-- ==== Sys2Proof/Word.lean ====
section
/-! DEFINITION. The word types of the machine and the sparse table that holds register files and per-unit state. -/
namespace Sys2Proof

/-- A byte of memory (R6). -/
abbrev Byte := BitVec 8
/-- A scalar register, an address, a doubleword of a record. -/
abbrev Word := BitVec 64
/-- A 32-bit slot instruction or SVI word (R18, R309). -/
abbrev Word32 := BitVec 32
/-- A vector register (R124). -/
abbrev VReg := BitVec 4096
/-- A tile register or a B tile: 128 rows of 128 bytes, byte j of row i at bits [8 (128 i + j) + 7 : 8 (128 i + j)] (R177). -/
abbrev Tile := BitVec 131072
/-- An accumulator bank: 512 INT32 slots (R234). -/
abbrev Bank := BitVec 16384
/-- A scale register (R72). -/
abbrev ScReg := BitVec 128
/-- One 128-byte line, and one queue entry (R98, R254). -/
abbrev Line := BitVec 1024
/-- A 256-bit bundle, and a tile word (R120, R265). -/
abbrev Bundle := BitVec 256

/-- A sparse table: keys strictly rising, and no entry equal to the value an unlisted key reads as. -/
abbrev Tab (α : Type) := List (Nat × α)

end Sys2Proof
end

