-- ==== Sys2Proof/Config.lean ====
section
/-! DEFINITION. What an implementation fixes and the spec leaves open: free values, the keys of the hub, and the
firmware's answers. None of them has a body, so no proof can use a value of one. -/
namespace Sys2Proof

/-- The free values of the machine (R4): a fresh number for each pair of a counter value and an index. It stands wherever
the spec gives a result that is undefined or unstated. -/
opaque Config.freeVal : Nat → Nat → Nat

/-- The answer that the host's firmware gives a system call 0x0100 to 0x7FFE: served or not, and x10 (R354). -/
opaque Config.firmware : Nat → List Word → Option Word

/-- The four key slots of the mask ROM: the digest of a modulus, and whether its revocation fuse is blown (R419). -/
opaque Config.keySlot : Fin 4 → BitVec 512 × Bool

/-- The device secret that the hub derives at every reset (R420), the salt and info of HKDF that turn it into the identity key, and the
manufacturing certificate (R421). -/
opaque Config.deviceSecret : BitVec 512
opaque Config.hkdfSalt : List Byte
opaque Config.hkdfInfo : List Byte
opaque Config.certificate : List Byte

/-- Whether a code object (its bytes as a number, and their count) is what the loader's translator has made of an SVI text, and the physical
address of that text (R322). -/
opaque Config.sviText : Nat → Nat → Option Nat

/-- The frame in which a routine leaves a free choice among free launch tags (R362): any number. -/
opaque Config.tagChoice : Nat → Nat

end Sys2Proof
end

