-- ==== Sys2Proof/Machine/Num.lean ====
section
/-! DEFINITION. Bit fields, sparse tables, the pseudocode helpers, formats, rounding and the integer routines of chapter 03. -/
namespace Sys2Proof.Machine

/-! ## Bit fields -/

/-- Bits lo to lo + len - 1 of a pattern, as a number. -/
def fld {n : Nat} (x : BitVec n) (lo len : Nat) : Nat := (x.extractLsb' lo len).toNat

/-- One bit of a pattern. -/
def bit {n : Nat} (x : BitVec n) (i : Nat) : Bool := x.getLsbD i

/-- A pattern with bits lo to lo + len - 1 replaced by the low bits of v. -/
def setFld {n : Nat} (x : BitVec n) (lo len v : Nat) : BitVec n :=
  (x &&& ~~~(((BitVec.allOnes len).setWidth n) <<< lo)) ||| (((BitVec.ofNat len v).setWidth n) <<< lo)

/-- Field of a natural number. -/
def nfld (x lo len : Nat) : Nat := (x >>> lo) % 2 ^ len

/-- Truth as a number. -/
def b2n (b : Bool) : Nat := if b then 1 else 0

/-! ## Sparse tables -/

/-- The value under a key, with the default of the table. -/
def tget {α : Type} (d : α) : Tab α → Nat → α
  | [], _ => d
  | (j, a) :: t, k => if j = k then a else tget d t k

/-- A table without a key. -/
def tdel {α : Type} : Tab α → Nat → Tab α
  | [], _ => []
  | (j, a) :: t, k => if j = k then tdel t k else (j, a) :: tdel t k

/-- An entry put in its place, for a key the table does not hold. -/
def tins {α : Type} : Tab α → Nat → α → Tab α
  | [], k, a => [(k, a)]
  | (j, b) :: t, k, a => if k < j then (k, a) :: (j, b) :: t else (j, b) :: tins t k a

/-- The table with one value changed, in canonical form. -/
def tset {α : Type} [DecidableEq α] (d : α) (t : Tab α) (k : Nat) (a : α) : Tab α :=
  if a = d then tdel t k else tins (tdel t k) k a

/-- Keys strictly rising. -/
def tsorted {α : Type} : Tab α → Bool
  | [] => true
  | [_] => true
  | (j, _) :: (k, b) :: t => decide (j < k) && tsorted ((k, b) :: t)

/-- The canonical form of a table: keys strictly rising and no listed default. -/
def twf {α : Type} [DecidableEq α] (d : α) (t : Tab α) : Bool := tsorted t && t.all (fun e => decide (e.2 ≠ d))

/-! ## Helpers of R64 to R67 -/

/-- Sext(x, w) (R64). -/
def sextI (x : Int) (w : Nat) : Int :=
  let v := x % (2 : Int) ^ w
  if v ≥ (2 : Int) ^ (w - 1) then v - (2 : Int) ^ w else v

/-- Zext(x, w) (R64). -/
def zextI (x : Int) (w : Nat) : Int := x % (2 : Int) ^ w

/-- Sat(x, w) (R64). -/
def sat (x : Int) (w : Nat) : Int :=
  let m := (2 : Int) ^ (w - 1) - 1
  if x > m then m else if x < -m then -m else x

/-- Clz(x, w) of a value below 2^w (R64). -/
def clzN (x w : Nat) : Nat := if x % 2 ^ w = 0 then w else w - 1 - Nat.log2 (x % 2 ^ w)

/-- Bits(v) (R65). -/
def bitsOf (v : Int) : Nat :=
  let u := if v ≥ 0 then v.toNat else (-v - 1).toNat
  if u = 0 then 1 else Nat.log2 u + 2

/-- Census(S, w) (R65). -/
def census (s : List Int) (w : Nat) : Nat := s.foldl (fun m v => Nat.min m (w - bitsOf v)) (w - 1)

/-- The rounding modes (R66). -/
inductive Rnd where
  | rne | rtz | rdn | sr
  deriving DecidableEq, Repr

/-- The mode of a 2-bit field (R66). -/
def rndOf (c : Nat) : Rnd := if c % 4 = 0 then .rne else if c % 4 = 1 then .rtz else if c % 4 = 2 then .rdn else .sr

/-- One step of a lane's generator (R67). -/
def laneStep (g : BitVec 32) : BitVec 32 :=
  let a := g ^^^ (g <<< 13)
  let b := a ^^^ (a >>> 17)
  b ^^^ (b <<< 5)

/-- The seeding of lane l by a seed (R68). -/
def laneSeed (seed : BitVec 32) (l : Nat) : BitVec 32 :=
  let g := seed ^^^ BitVec.ofNat 32 (l * 0x9E3779B9)
  if g = 0 then 1 else g

/-- Lane states: a seed, and the lanes that have stepped since (a lane state is never zero). -/
structure Lanes where
  seed : BitVec 32
  tab : Tab (BitVec 32)
  deriving DecidableEq, Repr

/-- The state of a lane (R68). -/
def laneGet (L : Lanes) (i : Nat) : BitVec 32 :=
  let g := tget 0 L.tab i
  if g = 0 then laneSeed L.seed i else g

/-- The stepped lane states (R67, R69): the lane's state advances in SR mode and in no other. -/
def laneAdv (m : Rnd) (L : Lanes) (i : Nat) : Lanes :=
  if m = .sr then { L with tab := tset 0 L.tab i (laneStep (laneGet L i)) } else L

/-- Shr(x, k, mode, lane) with the lane's stepped state g (R67). -/
def shrG (x : Int) (k : Nat) (m : Rnd) (g : BitVec 32) : Int :=
  if k = 0 then x else
  match m with
  | .sr =>
    let u := if k ≤ 32 then g.toNat % 2 ^ k else g.toNat * 2 ^ (k - 32)
    (x + (u : Int)) / (2 : Int) ^ k
  | .rdn => x / (2 : Int) ^ k
  | .rtz => Int.tdiv x ((2 : Int) ^ k)
  | .rne =>
    let q := x / (2 : Int) ^ k
    let r := x - q * (2 : Int) ^ k
    let h := (2 : Int) ^ (k - 1)
    if r > h ∨ (r = h ∧ q % 2 = 1) then q + 1 else q

/-- Shr with the lane states threaded through. -/
def shrL (x : Int) (k : Nat) (m : Rnd) (i : Nat) (L : Lanes) : Int × Lanes :=
  let L' := laneAdv m L i
  (shrG x k m (laneGet L' i), L')

/-- Shr in a mode that touches no lane. -/
def shrP (x : Int) (k : Nat) (m : Rnd) : Int := shrG x k m 0

/-! ## Formats (R54 to R57) -/

/-- Width of a format code (R54, Table 1). -/
def fmtW (f : Nat) : Nat := (#[2, 3, 4, 5, 6, 8, 12, 16] : Array Nat).getD (f % 8) 8

/-- Unsigned format. -/
def fmtU (f : Nat) : Bool := f / 8 % 2 = 1

/-- Block-scaled format. -/
def fmtB (f : Nat) : Bool := f / 16 % 2 = 1

/-- The NaI code of width w (R56). -/
def naiCode (w : Nat) (u : Bool) : Nat := if u then 2 ^ w - 1 else 2 ^ (w - 1)

/-- The value of a code, `none` for NaI (R54, R56). -/
def decE (w : Nat) (u : Bool) (c : Nat) : Option Int :=
  let c := c % 2 ^ w
  if c = naiCode w u then none else some (if u then (c : Int) else sextI c w)

/-- The code of a value that is in range, or of NaI. -/
def encE (w : Nat) (u : Bool) : Option Int → Nat
  | none => naiCode w u
  | some v => (v % (2 : Int) ^ w).toNat

/-- The clamp of a write-back point (R61). -/
def clampE (w : Nat) (u : Bool) (x : Int) : Int :=
  if u then (if x < 0 then 0 else if x > (2 : Int) ^ w - 2 then (2 : Int) ^ w - 2 else x) else sat x w

/-- Element i of a packed string (R57). -/
def elemAt {n : Nat} (s : BitVec n) (w i : Nat) : Nat := fld s (i * w) w

/-- A packed string from element codes, element 0 first (R57). -/
def packE (w : Nat) : List Nat → Nat
  | [] => 0
  | c :: t => c % 2 ^ w + 2 ^ w * packE w t

/-! ## Scale entries (R71 to R78) -/

def scExp {n : Nat} (s : BitVec n) : Int := sextI (fld s 0 8) 8
def scCen {n : Nat} (s : BitVec n) : Nat := fld s 8 6
def scCenv {n : Nat} (s : BitVec n) : Bool := bit s 14
def scMarg {n : Nat} (s : BitVec n) : Nat := fld s 15 2
def scFmt {n : Nat} (s : BitVec n) : Nat := fld s 17 5
def scSatc {n : Nat} (s : BitVec n) : Nat := fld s 32 16
def scPois {n : Nat} (s : BitVec n) : Nat := fld s 48 16

/-- A count that saturates at 65,535 (R71). -/
def sat16 (n : Nat) : Nat := Nat.min n 65535

/-- Counts added to SATC and POISON, each saturating (R73, R210). -/
def scCount {n : Nat} (s : BitVec n) (a b : Nat) : BitVec n :=
  setFld (setFld s 32 16 (sat16 (scSatc s + a))) 48 16 (sat16 (scPois s + b))

/-- One written element: its code, whether it was clamped, whether it is NaI. -/
structure OutE where
  code : Nat
  clamped : Bool
  nai : Bool
  deriving DecidableEq, Repr

/-- The result of a write through a scale register (R76): elements, EXP, the census recorded (`none`: no live element). -/
structure ScRes where
  outs : List OutE
  exp : Int
  cen : Option Nat
  lanes : Lanes
  bytes : List Nat := []

/-- The element loop of R76: shift s, width w, overflow flag. -/
def scLoop (s w : Nat) (u ovf : Bool) (m : Rnd) : List (Nat × Option Int) → Lanes → List OutE × Lanes
  | [], L => ([], L)
  | (l, v) :: t, L =>
    match v, ovf with
    | some x, false =>
      let r := shrL x s m l L
      let c := clampE w u r.1
      let k := scLoop s w u ovf m t r.2
      (⟨encE w u (some c), decide (c ≠ r.1), false⟩ :: k.1, k.2)
    | _, _ =>
      let k := scLoop s w u ovf m t (laneAdv m L l)
      (⟨naiCode w u, false, true⟩ :: k.1, k.2)

/-- The values of a list that are not NaI. -/
def liveOf (vs : List (Nat × Option Int)) : List Int := vs.filterMap (fun e => e.2)

/-- The shift of R76 before the clamp of the exponent. -/
def needShift (cen marg w : Nat) (u : Bool) : Int :=
  max 0 ((if u then 31 - (cen : Int) else 32 - cen) + marg - w)

/-- A write through a scale register into a per-tensor format (R76); `cold` is the census used when CENV = 0: the census of
the values for an instruction (R77), 0 for a tile word (R272). -/
def scWrite {n : Nat} (sc : BitVec n) (w : Nat) (u : Bool) (m : Rnd) (esrc : Int) (cold : Option Nat)
    (vs : List (Nat × Option Int)) (L : Lanes) : ScRes :=
  let live := liveOf vs
  let cen := if scCenv sc then scCen sc else cold.getD (census live 32)
  let s0 : Int := needShift cen (scMarg sc) w u
  let s : Int := if esrc + s0 < -128 then -128 - esrc else s0
  let ovf := decide (esrc + s > 127)
  let r := scLoop s.toNat w u ovf m vs L
  { outs := r.1, exp := if ovf then 127 else esrc + s, cen := if live = [] then none else some (census live 32), lanes := r.2 }

/-- The blocks of a block-scaled write (R78): each block is a list of elements; `s` is the tensor-wide shift. -/
def scBlocks (s w : Nat) (u ovf : Bool) (m : Rnd) : List (List (Nat × Option Int)) → Lanes → List OutE × List Nat × Lanes
  | [], L => ([], [], L)
  | b :: t, L =>
    let live := liveOf b
    let need := let k := 32 - census live 32; if u then k - 1 else k
    let sb := if live = [] then 0 else need - w
    let r := scLoop (s + sb) w u ovf m b L
    let k := scBlocks s w u ovf m t r.2
    (r.1 ++ k.1, (if ovf then 127 else 127 + sb) :: k.2.1, k.2.2)

/-- A write into a block-scaled format (R78). -/
def scWriteBlk (w : Nat) (u : Bool) (m : Rnd) (esrc : Int) (bs : List (List (Nat × Option Int))) (L : Lanes) : ScRes :=
  let live := (bs.map liveOf).flatten
  let s : Int := if esrc < -128 then -128 - esrc else 0
  let ovf := decide (esrc + s > 127)
  let r := scBlocks s.toNat w u ovf m bs L
  { outs := r.1, exp := if ovf then 127 else esrc + s, cen := if live = [] then none else some (census live 32), lanes := r.2.2,
    bytes := r.2.1 }

/-- A scale register after a write (R76). -/
def scAfter {n : Nat} (sc : BitVec n) (r : ScRes) : BitVec n :=
  let a := setFld sc 0 8 (r.exp % 256).toNat
  let b := match r.cen with
    | none => a
    | some c => setFld (setFld a 8 6 c) 14 1 1
  scCount b (r.outs.countP (·.clamped)) (r.outs.countP (·.nai))

/-! ## Integer routines (R79 to R84) -/

/-- `vexp` of x at exponent e, x not NaI (R79): the element and whether it counts in SATC. -/
def vexpR (x e : Int) : Nat × Bool :=
  if x > 0 then (32768, true) else
  let w := (x * 94548) / (2 : Int) ^ (-e).toNat
  let n := w / 65536
  let f := w - n * 65536
  if n < -16 then (0, false) else
  let p := 2543
  let p := 7431 + (p * f) / 65536
  let p := 22795 + (p * f) / 65536
  let p := 32768 + (p * f) / 65536
  ((shrP p (-n).toNat .rne).toNat, false)

/-- The seeds of `vrsqrt` (R81, Table 12). -/
def rsqrtSeeds : List Nat :=
  [357, 346, 337, 328, 320, 312, 305, 299, 293, 287, 281, 276, 271, 267, 262, 258,
   252, 245, 238, 232, 226, 221, 216, 211, 207, 203, 199, 195, 192, 189, 185, 182]

/-- `vrsqrt` of a > 0 at exponent e (R80): y in Q2.30 and the result exponent. -/
def vrsqrtR (a : Nat) (e : Int) : Nat × Int :=
  let z := clzN a 32
  let m := a * 2 ^ z
  let t : Int := e + 32 - z
  let odd := t % 2
  let X : Int := if odd = 1 then m / 2 else m / 4
  let t := if odd = 1 then t - 1 else t
  let i := nfld m 27 4 + 16 * odd.toNat
  let y0 : Int := rsqrtSeeds.getD i 0 * 2 ^ 22
  let it := fun (y : Int) => (y * (3 * 2 ^ 30 - (X * ((y * y) / 2 ^ 30)) / 2 ^ 30)) / 2 ^ 31
  ((it (it y0)).toNat, -(t / 2))

/-- The seeds of `vrecip` (R83, Table 14). -/
def recipSeeds : List Nat :=
  [504, 489, 475, 462, 449, 437, 426, 415, 405, 395, 386, 377, 368, 360, 352, 345,
   338, 331, 324, 318, 312, 306, 301, 295, 290, 285, 280, 275, 271, 266, 262, 258]

/-- `vrecip` of a nonzero a at exponent e (R82). -/
def vrecipR (a e : Int) : Int × Int :=
  let A := a.natAbs
  let z := clzN A 32
  let m := A * 2 ^ z
  let X : Int := (m / 4 : Nat)
  let y0 : Int := recipSeeds.getD (nfld m 26 5) 0 * 2 ^ 22
  let it := fun (y : Int) => (y * (2 * 2 ^ 30 - (X * y) / 2 ^ 30)) / 2 ^ 30
  let y := (it (it y0)) / 2
  (if a < 0 then -y else y, (z : Int) - 31 - e)

/-- `vdiv` at width w (R84): the quotient, `none` for NaI, and whether it counts in SATC. -/
def vdivR (a b : Option Int) (w : Nat) : Option Int × Bool :=
  match a, b with
  | some a, some b =>
    if b = 0 then
      if a > 0 then (some ((2 : Int) ^ (w - 1) - 1), true)
      else if a < 0 then (some (-((2 : Int) ^ (w - 1) - 1)), true)
      else (none, false)
    else (some (Int.tdiv a b), false)
  | _, _ => (none, false)

/-- The slices of a product of an a-bit and a b-bit operand (R19). -/
def slices (wa wb : Nat) : Nat := ((wa + 1) / 2) * ((wb + 1) / 2)

/-- KT of a width pair (R233). -/
def passK (wa wb : Nat) : Nat := Nat.min (1024 / wa) (1024 / wb)

/-- P of a width pair, in ccy (R233). -/
def passP (wa wb : Nat) : Nat :=
  let s := slices wa wb
  let kt := passK wa wb
  if s ≤ 16 then (kt + 16 / s - 1) / (16 / s) else kt * ((s + 15) / 16)

end Sys2Proof.Machine
end

