-- ==== Sys2Proof/Syntax.lean ====
section
/-! DEFINITION. The instructions and steps of the machine: one constructor per row of spec/opcode_table.json. Slot
instructions carry the operand fields of their encoding and the guard nibble `g` (NEG at bit 3, PSEL at bits 2..0, R121).
Steps without an encoding carry the number of the thing that acts. -/
namespace Sys2Proof

/-- The RV64I arithmetic functions of SVI (R307, Table 1 of chapter 11). -/
inductive SviAlu where
  | add | sub | sll | slt | sltu | xor | srl | sra | or | and
  deriving DecidableEq, Repr

/-- RV64I integer arithmetic and logic: `imm` is a 12-bit immediate (shift amounts in its low bits), `w` the W form. -/
inductive SviInt where
  | lui (rd : BitVec 5) (imm : BitVec 20)
  | auipc (rd : BitVec 5) (imm : BitVec 20)
  | opImm (f : SviAlu) (w : Bool) (rd rs1 : BitVec 5) (imm : BitVec 12)
  | opReg (f : SviAlu) (w : Bool) (rd rs1 rs2 : BitVec 5)
  deriving DecidableEq, Repr

/-- The six branch conditions of RV64I. -/
inductive SviCond where
  | eq | ne | lt | ge | ltu | geu
  deriving DecidableEq, Repr

/-- RV64I transfers; offsets are the RISC-V immediates without their zero bit 0 (R309). -/
inductive SviJump where
  | jal (rd : BitVec 5) (off : BitVec 20)
  | jalr (rd rs1 : BitVec 5) (imm : BitVec 12)
  | branch (c : SviCond) (rs1 rs2 : BitVec 5) (off : BitVec 12)
  deriving DecidableEq, Repr

/-- RV64I loads and stores of 2 to the power `z` bytes. -/
inductive SviMem where
  | load (z : BitVec 2) (uns : Bool) (rd rs1 : BitVec 5) (imm : BitVec 12)
  | store (z : BitVec 2) (rs1 rs2 : BitVec 5) (imm : BitVec 12)
  deriving DecidableEq, Repr

/-- `fence`, with the fields that decide whether it acts (R307). -/
structure SviFence where
  fm : BitVec 4
  pred : BitVec 4
  succ : BitVec 4
  rs1 : BitVec 5
  rd : BitVec 5
  deriving DecidableEq, Repr

/-- The eight functions of the M extension. -/
inductive SviMulFn where
  | mul | mulh | mulhsu | mulhu | div | divu | rem | remu
  deriving DecidableEq, Repr

/-- An M-extension instruction; `w` marks the W form. -/
structure SviMul where
  f : SviMulFn
  w : Bool
  rd : BitVec 5
  rs1 : BitVec 5
  rs2 : BitVec 5
  deriving DecidableEq, Repr

/-- The three Zicsr operations. -/
inductive SviCsrOp where
  | rw | rs | rc
  deriving DecidableEq, Repr

/-- A Zicsr instruction; with `imm` the field `src` is the 5-bit immediate, else the register rs1 (R312). -/
structure SviCsr where
  f : SviCsrOp
  imm : Bool
  csr : BitVec 12
  rd : BitVec 5
  src : BitVec 5
  deriving DecidableEq, Repr

/-- An integer RVV 1.0 instruction in its RISC-V fields (R313). -/
inductive SviVec where
  | vsetvli (rd rs1 : BitVec 5) (zimm : BitVec 11)
  | vsetivli (rd uimm : BitVec 5) (zimm : BitVec 10)
  | vsetvl (rd rs1 rs2 : BitVec 5)
  | arith (f6 : BitVec 6) (vm : BitVec 1) (vs2 vs1 : BitVec 5) (f3 : BitVec 3) (vd : BitVec 5)
  | mem (st : Bool) (nf : BitVec 3) (mew : BitVec 1) (mop : BitVec 2) (vm : BitVec 1) (rs2 rs1 : BitVec 5)
      (width : BitVec 3) (vd : BitVec 5)
  deriving DecidableEq, Repr

/-- The machine's instructions and steps, in the table's order. -/
inductive Instr where
  /-- R122: The all-zero word of any slot class does nothing and occupies its slot for one ccy. -/
  | nop
  /-- R146: Branches unconditionally to PC + off21 x 32; the target issues at c + 2. -/
  | br (o : BitVec 21) (g : BitVec 4)
  /-- R146: Branches to PC + off13 x 32 when xa meets the condition eq, ne, lt or ge. -/
  | brp (a : BitVec 6) (c : BitVec 2) (o : BitVec 13) (g : BitVec 4)
  /-- R146: Branches to PC + off21 x 32 and links PC + 32 into x63. -/
  | call (o : BitVec 21) (g : BitVec 4)
  /-- R146: Transfers to the address in x63, faulting PCALIGN on a misaligned target. -/
  | ret (g : BitVec 4)
  /-- R146: Transfers to the address in xa. -/
  | jr (a : BitVec 6) (g : BitVec 4)
  /-- R146: Transfers to the address in xa and links PC + 32 into x63. -/
  | callX (a : BitVec 6) (g : BitVec 4)
  /-- R149: Takes the lowest inactive loop level, loads a counted loop over the following LEN bundles and makes the boundary step for iteration 0. -/
  | loop (a : BitVec 6) (l : BitVec 9) (g : BitVec 4)
  /-- R149: Starts a modulo-scheduled loop of S stages that drives stage predicates p1–pS. -/
  | loope (s : BitVec 3) (a : BitVec 6) (l : BitVec 9) (g : BitVec 4)
  /-- R153: Sets FIRST := 0 on the innermost loop so that it drains and ends. -/
  | lpstage (g : BitVec 4)
  /-- R155: Increments STEPNO.COUNT, records imm15 in LASTID and stops the core when a job-wide stop's fall-back is pending. -/
  | step (i : BitVec 15) (g : BitVec 4)
  /-- R41: Ends the task when JOIN + ISSUED = 0, applies SETMASK, sets KIND 4 and lowers the launch's live count. -/
  | exit (g : BitVec 4)
  /-- R38: Writes the continuation at the home atomically and pushes or parks it according to JOIN + ISSUED. -/
  | cont (o : BitVec 21) (g : BitVec 4)
  /-- R156: Sets landing-table entry N to an unsigned 12-bit immediate. -/
  | setlt (t : BitVec 4) (i : BitVec 12) (g : BitVec 4)
  /-- R156: Sets landing-table entry N from xa, clamped to 4,095. -/
  | setltX (t : BitVec 4) (a : BitVec 6) (g : BitVec 4)
  /-- R157: Waits, for at most a cycle limit, until the cluster's event word E[w] holds every bit of a mask. -/
  | evwait (d : BitVec 3) (a b : BitVec 6) (w : BitVec 3) (g : BitVec 4)
  /-- R157: The event word satisfies the waiting mask, pd is set true and the next bundle issues. -/
  | evwaitEnd (k : Nat)
  /-- R157: The cycle limit of an evwait or bwait passes, pd is set false and the next bundle issues at c + 2 + lim. -/
  | boundedWaitLimit (k : Nat)
  /-- R158: After commit, writes a fault record with code TRAP and the immediate, and stops the task. -/
  | trap (i : BitVec 15) (g : BitVec 4)
  /-- R354: After commit, passes x10–x15 and request number imm15 to hub firmware, which writes its results before the next bundle. -/
  | sysc (i : BitVec 15) (g : BitVec 4)
  /-- R354: System-call request 0x0000 returns x10 := 0. -/
  | null (k : Nat)
  /-- R354: System-call request 0x0001 returns the ASID, context and partition in x10 and CLOWN in x11. -/
  | ctxinfo (k : Nat)
  /-- R351: System-call request 0x0002 frees an object that the context published. -/
  | objfree (k : Nat)
  /-- R354: System-call request 0x7FFF serves the request numbered in x17[14:0]. -/
  | svicall (k : Nat)
  /-- R158: After commit, writes a fault record with code BKPT and stops the task. -/
  | bkpt (i : BitVec 15) (g : BitVec 4)
  /-- R357: Clears ACTIVE and issues the bundle at EPC again with the emulated slots nullified. -/
  | emret (g : BitVec 4)
  /-- R159: Invalidates the context's lines in every instruction cache of a scope instance and freezes the core until that is done. -/
  | icinv (s : BitVec 3) (g : BitVec 4)
  /-- R160: Sends a split-phase request asking the hub to validate and seal staged code as a new arena object. -/
  | publish (c a b : BitVec 6) (g : BitVec 4)
  /-- R350: The hub finishes checking a published object, places it or refuses it, writes the reply slot and join-decrements the frame. -/
  | publishValidation (id : Nat)
  /-- R161: Reads a status register into xd, with bound 2. -/
  | csrr (d : BitVec 6) (r : BitVec 12) (g : BitVec 4)
  /-- R161: Writes xa to a status register at commit. -/
  | csrw (a : BitVec 6) (r : BitVec 12) (g : BitVec 4)
  /-- R161: Sets the bits of xa in a status register. -/
  | csrs (a : BitVec 6) (r : BitVec 12) (g : BitVec 4)
  /-- R161: Clears the bits of xa in a status register, including SCOPEX and FSCOPE of MMSTAT. -/
  | csrc (a : BitVec 6) (r : BitVec 12) (g : BitVec 4)
  /-- R161: Writes a zero-extended 6-bit immediate to a status register. -/
  | csrwI (i : BitVec 6) (r : BitVec 12) (g : BitVec 4)
  /-- R161: Sets the bits of a 6-bit immediate in a status register. -/
  | csrsI (i : BitVec 6) (r : BitVec 12) (g : BitVec 4)
  /-- R161: Clears the bits of a 6-bit immediate in a status register. -/
  | csrcI (i : BitVec 6) (r : BitVec 12) (g : BitVec 4)
  /-- R164: xd := xa + xb, wrapping. -/
  | add (d a b : BitVec 6) (g : BitVec 4)
  /-- R164: xd := xa − xb, wrapping. -/
  | sub (d a b : BitVec 6) (g : BitVec 4)
  /-- R164: xd := xa + Sext(imm9, 9). -/
  | addi (d a : BitVec 6) (i : BitVec 9) (g : BitVec 4)
  /-- R164: xd := xa & xb. -/
  | and (d a b : BitVec 6) (g : BitVec 4)
  /-- R164: xd := xa | xb. -/
  | or (d a b : BitVec 6) (g : BitVec 4)
  /-- R164: xd := xa ^ xb. -/
  | xor (d a b : BitVec 6) (g : BitVec 4)
  /-- R164: xd := xa & Sext(imm9, 9). -/
  | andi (d a : BitVec 6) (i : BitVec 9) (g : BitVec 4)
  /-- R164: xd := xa | Sext(imm9, 9). -/
  | ori (d a : BitVec 6) (i : BitVec 9) (g : BitVec 4)
  /-- R164: xd := xa ^ Sext(imm9, 9). -/
  | xori (d a : BitVec 6) (i : BitVec 9) (g : BitVec 4)
  /-- R164: Shifts xa left by xb[5:0]. -/
  | sll (d a b : BitVec 6) (g : BitVec 4)
  /-- R164: Shifts xa right logically by xb[5:0]. -/
  | srl (d a b : BitVec 6) (g : BitVec 4)
  /-- R164: Shifts xa right arithmetically by xb[5:0]. -/
  | sra (d a b : BitVec 6) (g : BitVec 4)
  /-- R164: Shifts xa left by imm9[5:0]. -/
  | slli (d a i : BitVec 6) (g : BitVec 4)
  /-- R164: Shifts xa right logically by imm9[5:0]. -/
  | srli (d a i : BitVec 6) (g : BitVec 4)
  /-- R164: Shifts xa right arithmetically by imm9[5:0]. -/
  | srai (d a i : BitVec 6) (g : BitVec 4)
  /-- R164: xd := Sext(imm15, 15). -/
  | li (d : BitVec 6) (i : BitVec 15) (g : BitVec 4)
  /-- R164: xd := (xd << 15) | Zext(imm15, 15). -/
  | lih (d : BitVec 6) (i : BitVec 15) (g : BitVec 4)
  /-- R164: xd := the low 64 bits of xa x xb. -/
  | mul (d a b : BitVec 6) (g : BitVec 4)
  /-- R164: xd := the high 64 bits of the signed product. -/
  | mulh (d a b : BitVec 6) (g : BitVec 4)
  /-- R164: xd := the high 64 bits of the unsigned product. -/
  | mulhu (d a b : BitVec 6) (g : BitVec 4)
  /-- R164: xd := the high 64 bits of the signed-by-unsigned product. -/
  | mulhsu (d a b : BitVec 6) (g : BitVec 4)
  /-- R170: Signed division truncated toward zero, with fixed results for division by zero and for overflow. -/
  | div (d a b : BitVec 6) (g : BitVec 4)
  /-- R170: Unsigned division, giving all ones for division by zero. -/
  | divu (d a b : BitVec 6) (g : BitVec 4)
  /-- R170: Signed remainder, giving xa for division by zero. -/
  | rem (d a b : BitVec 6) (g : BitVec 4)
  /-- R170: Unsigned remainder. -/
  | remu (d a b : BitVec 6) (g : BitVec 4)
  /-- R164: xd := the signed minimum of xa and xb. -/
  | min (d a b : BitVec 6) (g : BitVec 4)
  /-- R164: xd := the signed maximum of xa and xb. -/
  | max (d a b : BitVec 6) (g : BitVec 4)
  /-- R164: xd := the unsigned minimum of xa and xb. -/
  | minu (d a b : BitVec 6) (g : BitVec 4)
  /-- R164: xd := the unsigned maximum of xa and xb. -/
  | maxu (d a b : BitVec 6) (g : BitVec 4)
  /-- R164: xd := the number of leading zero bits of xa. -/
  | clz (d a : BitVec 6) (g : BitVec 4)
  /-- R164: xd := the number of trailing zero bits of xa. -/
  | ctz (d a : BitVec 6) (g : BitVec 4)
  /-- R164: xd := the number of one bits of xa. -/
  | popc (d a : BitVec 6) (g : BitVec 4)
  /-- R164: Sign-extends xa from a width of imm9[5:0] + 1. -/
  | sext (d a i : BitVec 6) (g : BitVec 4)
  /-- R164: Zero-extends xa from a width of imm9[5:0] + 1. -/
  | zext (d a i : BitVec 6) (g : BitVec 4)
  /-- R165: Sets pd to the relation cond between xa and xb. -/
  | cmp (d : BitVec 3) (a b : BitVec 6) (c : BitVec 3) (g : BitVec 4)
  /-- R165: Sets pd to the relation cond between xa and a signed 6-bit immediate. -/
  | cmpi (d : BitVec 3) (a i : BitVec 6) (c : BitVec 3) (g : BitVec 4)
  /-- R166: pd := pa and pb. -/
  | pand (d a b : BitVec 3) (g : BitVec 4)
  /-- R166: pd := pa or pb. -/
  | por (d a b : BitVec 3) (g : BitVec 4)
  /-- R166: pd := pa xor pb. -/
  | pxor (d a b : BitVec 3) (g : BitVec 4)
  /-- R166: pd := pa and not pb. -/
  | pandn (d a b : BitVec 3) (g : BitVec 4)
  /-- R164: xd := xa if predicate p[fn] is true, else xb. -/
  | sel (d a b : BitVec 6) (f : BitVec 3) (g : BitVec 4)
  /-- R167: xd := xa. -/
  | mov (d a : BitVec 6) (g : BitVec 4)
  /-- R167: Packs the eight predicates into xd. -/
  | movFromPall (d : BitVec 6) (g : BitVec 4)
  /-- R167: Sets p1–p7 from bits 1–7 of xa. -/
  | movToPall (a : BitVec 6) (g : BitVec 4)
  /-- R168: Saturating signed add at width 64, 32, 16 or 8. -/
  | adds (d a b : BitVec 6) (f : BitVec 3) (g : BitVec 4)
  /-- R168: Saturating signed subtract at width 64, 32, 16 or 8. -/
  | subs (d a b : BitVec 6) (f : BitVec 3) (g : BitVec 4)
  /-- R169: Extracts a signed bit field of xa at a position and length given by xb. -/
  | bfx (d a b : BitVec 6) (g : BitVec 4)
  /-- R169: Extracts an unsigned bit field of xa. -/
  | bfxu (d a b : BitVec 6) (g : BitVec 4)
  /-- R169: Inserts the low bits of xa into a field of xd. -/
  | bfi (d a b : BitVec 6) (g : BitVec 4)
  /-- R174: Landing-class load of a sign-extended byte. -/
  | ldb (d a : BitVec 6) (t : BitVec 4) (o : BitVec 5) (g : BitVec 4)
  /-- R174: Landing-class load of a zero-extended byte. -/
  | ldbu (d a : BitVec 6) (t : BitVec 4) (o : BitVec 5) (g : BitVec 4)
  /-- R174: Landing-class load of a sign-extended halfword. -/
  | ldh (d a : BitVec 6) (t : BitVec 4) (o : BitVec 5) (g : BitVec 4)
  /-- R174: Landing-class load of a zero-extended halfword. -/
  | ldhu (d a : BitVec 6) (t : BitVec 4) (o : BitVec 5) (g : BitVec 4)
  /-- R174: Landing-class load of a sign-extended word. -/
  | ldw (d a : BitVec 6) (t : BitVec 4) (o : BitVec 5) (g : BitVec 4)
  /-- R174: Landing-class load of a zero-extended word. -/
  | ldwu (d a : BitVec 6) (t : BitVec 4) (o : BitVec 5) (g : BitVec 4)
  /-- R174: Landing-class load of a doubleword. -/
  | ldd (d a : BitVec 6) (t : BitVec 4) (o : BitVec 5) (g : BitVec 4)
  /-- R176: Stores a byte of xb. -/
  | stb (b a : BitVec 6) (o : BitVec 9) (g : BitVec 4)
  /-- R176: Stores a halfword of xb. -/
  | sth (b a : BitVec 6) (o : BitVec 9) (g : BitVec 4)
  /-- R176: Stores a word of xb. -/
  | stw (b a : BitVec 6) (o : BitVec 9) (g : BitVec 4)
  /-- R176: Stores a doubleword of xb. -/
  | std (b a : BitVec 6) (o : BitVec 9) (g : BitVec 4)
  /-- R175: Loads a doubleword from xa + (xb << 3) through landing class lt0–lt7. -/
  | ldx (d a b : BitVec 6) (t : BitVec 3) (g : BitVec 4)
  /-- R176: Stores n bytes of xs at the address xa + (xb << log2 n). -/
  | stx (s a b : BitVec 6) (z : BitVec 2) (g : BitVec 4)
  /-- R178: Loads 128 rows of 128 bytes into a tile register, busy until the landing cycle. -/
  | tld (d t : BitVec 4) (a b : BitVec 6) (g : BitVec 4)
  /-- R179: Loads memory rows transposed into the columns of a tile register. -/
  | tldt (d t : BitVec 4) (a b : BitVec 6) (g : BitVec 4)
  /-- R180: Stores the 128 rows of a tile register as 128 stores in row order. -/
  | tst (s : BitVec 4) (a b : BitVec 6) (g : BitVec 4)
  /-- R181: Loads a B tile of the B plane, optionally shifting each row by the smoothing vector. -/
  | bld (t : BitVec 4) (a b : BitVec 6) (m : BitVec 1) (g : BitVec 4)
  /-- R182: Split-phase load of n bytes into a reply slot of the own frame, followed by a join decrement. -/
  | rld (c a : BitVec 6) (z : BitVec 3) (i : BitVec 1) (s : BitVec 5) (g : BitVec 4)
  /-- R183: Posted store of n bytes to any space, acknowledged once it performs. -/
  | rst (b a : BitVec 6) (z : BitVec 2) (i : BitVec 1) (s : BitVec 5) (g : BitVec 4)
  /-- R185: Atomic whose result lands in xd, or in xd and x(d+1), at the landing cycle. -/
  | amo (d a : BitVec 6) (h : BitVec 5) (t g : BitVec 4)
  /-- R185: Split-phase atomic whose result goes to a frame reply slot, followed by a join decrement. -/
  | amoF (d a : BitVec 6) (h : BitVec 5) (g : BitVec 4)
  /-- R185: Posted atomic that only returns an acknowledgement. -/
  | amoN (d a : BitVec 6) (h : BitVec 5) (g : BitVec 4)
  /-- R196: Freezes the core until every earlier request whose home lies in the scope has performed. -/
  | fence (s : BitVec 3) (g : BitVec 4)
  /-- R197: Freezes the core until every earlier copy of channel c has performed. -/
  | drain (c : BitVec 2) (g : BitVec 4)
  /-- R197: Freezes the core until every earlier rst and amo.n has been acknowledged. -/
  | drainR (g : BitVec 4)
  /-- R196: The last request of a fence's first set performs; the freeze ends and the held egress requests issue. -/
  | fenceComplete (k : Nat)
  /-- R197: The copies or posted requests that a drain or drain.r awaits have completed, and the freeze ends. -/
  | drainComplete (k : Nat)
  /-- R198: Polls a barrier object one poll at a time until its PHASE differs from a given phase or a cycle limit passes. -/
  | bwait (d : BitVec 3) (a b : BitVec 6) (s : BitVec 3) (g : BitVec 4)
  /-- R198: A poll reply arrives; if it shows a changed PHASE, pd is set true with acquire effect, otherwise the next poll issues. -/
  | bwaitPollReply (id : Nat)
  /-- R199: Reads a 64-byte record, checks it and parks it or pushes it to a ready queue or its spill ring. -/
  | qpush (a : BitVec 6) (g : BitVec 4)
  /-- R200: Posts a tile word to the sequencer of a cluster, die, package or group, as a split-phase request. -/
  | tpost (c a : BitVec 6) (g : BitVec 4)
  /-- R201: Executes a tile word at the core or its lane groups, freezing the core until the word completes. -/
  | tix (a : BitVec 6) (g : BitVec 4)
  /-- R213: Sets VTYPE from xb and VL from xa, or marks the configuration illegal. -/
  | vsetvl (d a b : BitVec 6) (g : BitVec 4)
  /-- R213: Returns (VTYPE << 32) | VL in xd and changes nothing. -/
  | vsetvlRead (d : BitVec 6) (g : BitVec 4)
  /-- R213: Sets VTYPE[6:0] from an immediate and VL from xa. -/
  | vsetvli (d a : BitVec 6) (v : BitVec 7) (g : BitVec 4)
  /-- R213: Sets VTYPE[6:0] and VL from immediates. -/
  | vsetivli (d : BitVec 6) (l : BitVec 8) (v : BitVec 7) (g : BitVec 4)
  /-- R214: Elementwise wrapping add. -/
  | vadd (d a : BitVec 5) (b : BitVec 6) (k : BitVec 2) (m : BitVec 1) (g : BitVec 4)
  /-- R214: Elementwise wrapping subtract. -/
  | vsub (d a : BitVec 5) (b : BitVec 6) (k : BitVec 2) (m : BitVec 1) (g : BitVec 4)
  /-- R214: Elementwise bitwise and. -/
  | vand (d a : BitVec 5) (b : BitVec 6) (k : BitVec 2) (m : BitVec 1) (g : BitVec 4)
  /-- R214: Elementwise bitwise or. -/
  | vor (d a : BitVec 5) (b : BitVec 6) (k : BitVec 2) (m : BitVec 1) (g : BitVec 4)
  /-- R214: Elementwise bitwise xor. -/
  | vxor (d a : BitVec 5) (b : BitVec 6) (k : BitVec 2) (m : BitVec 1) (g : BitVec 4)
  /-- R214: Elementwise left shift. -/
  | vsll (d a : BitVec 5) (b : BitVec 6) (k : BitVec 2) (m : BitVec 1) (g : BitVec 4)
  /-- R214: Elementwise logical right shift. -/
  | vsrl (d a : BitVec 5) (b : BitVec 6) (k : BitVec 2) (m : BitVec 1) (g : BitVec 4)
  /-- R214: Elementwise arithmetic right shift. -/
  | vsra (d a : BitVec 5) (b : BitVec 6) (k : BitVec 2) (m : BitVec 1) (g : BitVec 4)
  /-- R214: Elementwise multiply, low SEW bits. -/
  | vmul (d a : BitVec 5) (b : BitVec 6) (k : BitVec 2) (m : BitVec 1) (g : BitVec 4)
  /-- R214: Elementwise multiply, high SEW bits, signed or unsigned. -/
  | vmulh (d a : BitVec 5) (b : BitVec 6) (k : BitVec 2) (m u : BitVec 1) (g : BitVec 4)
  /-- R214: Elementwise signed minimum. -/
  | vmin (d a : BitVec 5) (b : BitVec 6) (k : BitVec 2) (m : BitVec 1) (g : BitVec 4)
  /-- R214: Elementwise signed maximum. -/
  | vmax (d a : BitVec 5) (b : BitVec 6) (k : BitVec 2) (m : BitVec 1) (g : BitVec 4)
  /-- R214: Elementwise unsigned minimum. -/
  | vminu (d a : BitVec 5) (b : BitVec 6) (k : BitVec 2) (m : BitVec 1) (g : BitVec 4)
  /-- R214: Elementwise unsigned maximum. -/
  | vmaxu (d a : BitVec 5) (b : BitVec 6) (k : BitVec 2) (m : BitVec 1) (g : BitVec 4)
  /-- R214: Elementwise exact add, clamped, with NaI. -/
  | vsadd (d a : BitVec 5) (b : BitVec 6) (k : BitVec 2) (m u : BitVec 1) (g : BitVec 4)
  /-- R214: Elementwise exact subtract, clamped, with NaI. -/
  | vssub (d a : BitVec 5) (b : BitVec 6) (k : BitVec 2) (m u : BitVec 1) (g : BitVec 4)
  /-- R222: Fractional product rounded by SEW − 1 bits and clamped. -/
  | vsmul (d a b : BitVec 5) (r : BitVec 2) (m : BitVec 1) (g : BitVec 4)
  /-- R214: Widening exact add. -/
  | vwadd (d a : BitVec 5) (b : BitVec 6) (k : BitVec 2) (m u : BitVec 1) (g : BitVec 4)
  /-- R214: Widening exact multiply. -/
  | vwmul (d a : BitVec 5) (b : BitVec 6) (k : BitVec 2) (m u : BitVec 1) (g : BitVec 4)
  /-- R214: Widening multiply-accumulate into vd, clamped. -/
  | vwmacc (d a : BitVec 5) (b : BitVec 6) (k : BitVec 2) (m u : BitVec 1) (g : BitVec 4)
  /-- R215: Narrowing rounded right shift of 2SEW elements to SEW, clamped. -/
  | vnsra (d a : BitVec 5) (b : BitVec 6) (k : BitVec 1) (r : BitVec 2) (m : BitVec 1) (g : BitVec 4)
  /-- R216: Narrows active elements through a scale register by the delayed-scaling procedure. -/
  | vnclip (d a s : BitVec 5) (r : BitVec 2) (m u q : BitVec 1) (g : BitVec 4)
  /-- R215: Rounded arithmetic right shift at SEW. -/
  | vshr (d a : BitVec 5) (b : BitVec 6) (k : BitVec 1) (r : BitVec 2) (m : BitVec 1) (g : BitVec 4)
  /-- R217: Sets mask bits from an elementwise relation or a NaI test. -/
  | vcmp (d a : BitVec 5) (b : BitVec 6) (k : BitVec 1) (c : BitVec 3) (g : BitVec 4)
  /-- R214: Selects b_i or va[i] by the v0 mask. -/
  | vmerge (d a : BitVec 5) (b : BitVec 6) (k : BitVec 2) (g : BitVec 4)
  /-- R218: Combines two mask registers by a logic function. -/
  | vmlog (d a b : BitVec 5) (f : BitVec 3) (g : BitVec 4)
  /-- R220: Writes the exact sum of vb[0] and the active elements, clamped once. -/
  | vredsum (d a b : BitVec 5) (w u m : BitVec 1) (g : BitVec 4)
  /-- R220: Writes the greatest of vb[0] and the active elements. -/
  | vredmax (d a b : BitVec 5) (u m : BitVec 1) (g : BitVec 4)
  /-- R220: Writes the least of vb[0] and the active elements. -/
  | vredmin (d a b : BitVec 5) (u m : BitVec 1) (g : BitVec 4)
  /-- R221: Writes the exact inclusive prefix sums, each clamped once. -/
  | vscan (d a b : BitVec 5) (w u m : BitVec 1) (g : BitVec 4)
  /-- R223: Slides elements up by an offset. -/
  | vslideup (d a : BitVec 5) (b : BitVec 6) (k m : BitVec 1) (g : BitVec 4)
  /-- R223: Slides elements down by an offset, filling with zero. -/
  | vslidedn (d a : BitVec 5) (b : BitVec 6) (k m : BitVec 1) (g : BitVec 4)
  /-- R224: Gathers elements of va by the indices in vb. -/
  | vgath (d a b : BitVec 5) (m : BitVec 1) (g : BitVec 4)
  /-- R224: Packs the elements of va selected by a mask. -/
  | vcompress (d a b : BitVec 5) (g : BitVec 4)
  /-- R228: Unit-stride vector load at the landing cycle. -/
  | vld (d : BitVec 5) (a : BitVec 6) (t : BitVec 4) (m : BitVec 1) (g : BitVec 4)
  /-- R228: Strided vector load, with the stride in x(a+1). -/
  | vlds (d : BitVec 5) (a : BitVec 6) (t : BitVec 4) (m : BitVec 1) (g : BitVec 4)
  /-- R228: Indexed vector load. -/
  | vldx (d : BitVec 5) (a : BitVec 6) (b : BitVec 5) (m : BitVec 1) (t : BitVec 3) (g : BitVec 4)
  /-- R231: Fault-only-first vector load that trims VL at the first failing element after the first. -/
  | vldff (d : BitVec 5) (a : BitVec 6) (t : BitVec 4) (m : BitVec 1) (g : BitVec 4)
  /-- R228: Unit-stride vector store of the active elements. -/
  | vst (s : BitVec 5) (a : BitVec 6) (m : BitVec 1) (g : BitVec 4)
  /-- R228: Strided vector store. -/
  | vsts (s : BitVec 5) (a : BitVec 6) (m : BitVec 1) (g : BitVec 4)
  /-- R228: Indexed vector store. -/
  | vstx (s : BitVec 5) (a : BitVec 6) (b : BitVec 5) (m : BitVec 1) (g : BitVec 4)
  /-- R79: Integer exponential of each INT32 element into unsigned Q1.15. -/
  | vexp (d a : BitVec 5) (e : BitVec 8) (m : BitVec 1) (g : BitVec 4)
  /-- R80: Integer inverse square root of each element, with a result exponent. -/
  | vrsqrt (d a : BitVec 5) (e : BitVec 8) (m : BitVec 1) (g : BitVec 4)
  /-- R82: Integer reciprocal of each element, with a result exponent. -/
  | vrecip (d a : BitVec 5) (e : BitVec 8) (m : BitVec 1) (g : BitVec 4)
  /-- R226: Exact truncated signed division, saturating on division by zero. -/
  | vdiv (d a b : BitVec 5) (m : BitVec 1) (g : BitVec 4)
  /-- R227: Moves element k of va, sign-extended, to xd. -/
  | vmvxs (d : BitVec 6) (a : BitVec 5) (b : BitVec 6) (g : BitVec 4)
  /-- R227: Writes xa into element k of vd, ignoring VL and the mask. -/
  | vmvsx (d : BitVec 5) (a b : BitVec 6) (g : BitVec 4)
  /-- R227: Writes xa into every element of vd. -/
  | vsplat (d : BitVec 5) (a : BitVec 6) (m : BitVec 1) (g : BitVec 4)
  /-- R227: Copies nr whole vector registers. -/
  | vmov (d a : BitVec 5) (r : BitVec 2) (g : BitVec 4)
  /-- R235: Allocates n accumulator banks at the lowest fitting base and returns the base. -/
  | aalloc (d : BitVec 6) (n : BitVec 7) (g : BitVec 4)
  /-- R235: Frees accumulator banks b to b + n − 1. -/
  | afree (b n : BitVec 7) (g : BitVec 4)
  /-- R237: Adds A x B into a C tile, by K-blocks with saturation. -/
  | mma (a : BitVec 4) (t x : BitVec 6) (m : BitVec 1) (g : BitVec 4)
  /-- R237: Replaces a C tile with A x B. -/
  | mmaz (a : BitVec 4) (t x : BitVec 6) (m : BitVec 1) (g : BitVec 4)
  /-- R238: Grouped, ragged matrix product with one B tile per row group. -/
  | mmag (a : BitVec 4) (t x : BitVec 6) (m : BitVec 1) (g : BitVec 4)
  /-- R240: Reads a C tile out through a scale register into one or two tile registers. -/
  | aout (d : BitVec 4) (b : BitVec 7) (s : BitVec 5) (r : BitVec 2) (z : BitVec 1) (g : BitVec 4)
  /-- R241: Pushes one C-tile row to a queue as four INT32 source entries. -/
  | aoutq (q : BitVec 4) (b r : BitVec 7) (z : BitVec 1) (g : BitVec 4)
  /-- R235: Writes zero to accumulator banks b to b + n − 1. -/
  | azero (b n : BitVec 7) (g : BitVec 4)
  /-- R242: Writes zero to every byte of a tile register. -/
  | tzero (d g : BitVec 4)
  /-- R242: Copies one tile register to another. -/
  | tmov (d s g : BitVec 4)
  /-- R243: Copies a 64-byte smoothing vector from space 0x1 and records its format. -/
  | smset (a : BitVec 6) (f : BitVec 5) (g : BitVec 4)
  /-- R243: Clears SMSTAT.VALID. -/
  | smclr (g : BitVec 4)
  /-- R248: Writes field f of a copy channel's shadow set. -/
  | ecfg (c : BitVec 2) (f a : BitVec 6) (g : BitVec 4)
  /-- R250: Checks and probes a channel's shadow program and hands it to the generator. -/
  | ego (c : BitVec 2) (g : BitVec 4)
  /-- R251: Returns a channel's LIVE, PEND and DONE status. -/
  | estat (d : BitVec 6) (c : BitVec 2) (g : BitVec 4)
  /-- R253: Writes a queue's QSRC register. -/
  | qcfgSrc (a : BitVec 6) (q g : BitVec 4)
  /-- R253: Writes a queue's QSNK register. -/
  | qcfgSnk (a : BitVec 6) (q g : BitVec 4)
  /-- R255: Pushes a vector register to a queue as four source entries. -/
  | qenq (v : BitVec 5) (q g : BitVec 4)
  /-- R255: Pops four converted sink entries into a vector register. -/
  | qdeq (v : BitVec 5) (q g : BitVec 4)
  /-- R255: Pops one converted sink entry into a row of a tile register. -/
  | qdeqTile (d q : BitVec 4) (a : BitVec 6) (g : BitVec 4)
  /-- R257: Discards every element of a queue. -/
  | qreset (q g : BitVec 4)
  /-- R257: Returns the counts of a queue's entries and elements. -/
  | qstat (d : BitVec 6) (q g : BitVec 4)
  /-- R258: Loads a scale-table entry into a scale register at the landing cycle. -/
  | scld (s a : BitVec 6) (t g : BitVec 4)
  /-- R258: Stores a scale register back to its scale-table entry. -/
  | scst (s : BitVec 6) (g : BitVec 4)
  /-- R259: Sets one field of a scale register from xa. -/
  | scset (s a : BitVec 6) (f : BitVec 3) (g : BitVec 4)
  /-- R260: Sets SRSEED and reseeds the 128 lane states. -/
  | srseed (a : BitVec 6) (g : BitVec 4)
  /-- R261: ORs xa[31:0] into an event word of the cluster. -/
  | evset (a : BitVec 6) (w : BitVec 3) (g : BitVec 4)
  /-- R261: Clears the bits of xa[31:0] in an event word of the cluster. -/
  | evclr (a : BitVec 6) (w : BitVec 3) (g : BitVec 4)
  /-- R262: Sends an arrival at a group barrier as a split-phase release at package scope. -/
  | gbar (c : BitVec 6) (e : BitVec 8) (g : BitVec 4)
  /-- R262: The package sequencer records a member's arrival and, when every bit is set, completes the epoch and writes the reply slots. -/
  | groupBarrierArrival (id : Nat)
  /-- R263: Sets SLK.VALUE from a 12-bit immediate. -/
  | slk (i : BitVec 12) (g : BitVec 4)
  /-- R263: Sets SLK.VALUE from xa, clamped to 4,095. -/
  | slkReg (a : BitVec 6) (g : BitVec 4)
  /-- R246: Returns ANSTAT, ANCFG, SMSTAT or MXSTAT by sel. -/
  | anstat (d : BitVec 6) (s : BitVec 3) (g : BitVec 4)
  /-- R307: An RV64I integer arithmetic or logic instruction of SVI, with auipc under R309. -/
  | sviIntegerOp (o : SviInt)
  /-- R309: An SVI jal, jalr or branch, whose target must start an instruction of the same image. -/
  | sviTransfer (o : SviJump)
  /-- R311: An SVI load or store, performed as a request of the core under the device's ordering rules. -/
  | sviLoadStore (o : SviMem)
  /-- R307: An SVI fence with nonempty sets acts as a native fence at system scope; otherwise it has no effect. -/
  | sviFence (o : SviFence)
  /-- R307: Acts as native sysc 0x7FFF with the request number in x17. -/
  | ecall
  /-- R307: Acts as native bkpt 0. -/
  | ebreak
  /-- R307: An M-extension multiply or divide instruction with the RISC-V results. -/
  | sviMOp (o : SviMul)
  /-- R312: csrrw, csrrs, csrrc or their immediate forms on the SVI CSRs. -/
  | sviCsrAccess (o : SviCsr)
  /-- R313: An included integer instruction of the RISC-V vector extension. -/
  | sviVectorOp (o : SviVec)
  /-- R310: A reached excluded SVI word faults precisely. -/
  | sviill (w : BitVec 32)
  /-- R315: Xagael form of tpost. -/
  | agTpost (b a : BitVec 5)
  /-- R315: Xagael form of tix. -/
  | agTix (a : BitVec 5)
  /-- R316: Xagael atomic in the landing-class form. -/
  | agAmo (h b a d : BitVec 5)
  /-- R316: Xagael atomic in the split-phase form. -/
  | agAmoF (h b a : BitVec 5)
  /-- R316: Xagael atomic in the posted form. -/
  | agAmoN (h b a : BitVec 5)
  /-- R315: Xagael form of drain.r. -/
  | agDrainR
  /-- R315: Xagael form of fence at a scope. -/
  | agDrainScope (f : BitVec 7)
  /-- R315: Xagael form of slk from a register. -/
  | agSlk (a : BitVec 5)
  /-- R315: Xagael form of slk from an immediate. -/
  | agSlki (i : BitVec 12)
  /-- R315: Xagael form of icinv. -/
  | agIcinv (s : BitVec 2)
  /-- R317: Continues at SVI PC + 4 x imm20 under cont. -/
  | agCont (i : BitVec 20)
  /-- R317: ag.cont with imm20 = 0 acts as exit. -/
  | agExit
  /-- R280: Tile word computing C + A x B over batches by K-blocks, written through D's entry. -/
  | tmma (id : Nat)
  /-- R281: Tile word computing a ragged grouped matrix product. -/
  | tmmag (id : Nat)
  /-- R282: Tile word copying element codes and block scales. -/
  | tcopy (id : Nat)
  /-- R282: Tile word transposing dimensions 0 and 1. -/
  | ttrans (id : Nat)
  /-- R287: Tile word reducing along an axis by sum, max, min or block-saturated sum. -/
  | tred (id : Nat)
  /-- R288: Tile word forming exact prefix sums over a set of axes. -/
  | tscan (id : Nat)
  /-- R285: Tile word applying an elementwise function with broadcast. -/
  | tew (id : Nat)
  /-- R286: Tile word narrowing a tensor through D's scale entry. -/
  | tqnt (id : Nat)
  /-- R289: Tile word computing an integer softmax per row. -/
  | tsmax (id : Nat)
  /-- R290: Tile word normalising each row to zero mean and unit variance, or by RMS. -/
  | tnorm (id : Nat)
  /-- R291: Tile word making an optimiser step on weights and moments. -/
  | topt (id : Nat)
  /-- R292: Tile word running an all-reduce, reduce-scatter or all-gather over a group, optionally around the pod ring. -/
  | tcoll (id : Nat)
  /-- R284: Tile word filling a tensor with a value or an iota. -/
  | tfill (id : Nat)
  /-- R283: Tile word gathering rows by index. -/
  | tgath (id : Nat)
  /-- R283: Tile word scattering rows by index. -/
  | tscat (id : Nat)
  /-- R294: Tile word that completes once every earlier word in its scope has completed. -/
  | tbar (id : Nat)
  /-- R275: A sequencer accepts a tile word, makes its decode checks and snapshots its descriptors, scale entries and group. -/
  | tileWordAccept (id : Nat)
  /-- R277: All writes of a word and its children have performed; the scale entries are updated and completion is reported. -/
  | tileWordCompletion (id : Nat)
  /-- R305: A child word faults; the parent issues no further child, waits for those in flight and fails with a fault link appended. -/
  | childFault (id : Nat)
  /-- R33: In each ccy, the cluster sequencer gives the head of the highest ready queue to the lowest idle core, restoring a KIND 2 record from its save block. -/
  | dispatch (c : Nat)
  /-- R120: A bundle that missed in the instruction cache arrives and the fetch freeze ends. -/
  | fetchArrival (k : Nat)
  /-- R90: Data of a landing-class request arrives into the lehr, or ends a late-data freeze at its landing cycle. -/
  | replyArrival (id : Nat)
  /-- R90: Core time reaches a request's landing cycle and the destination takes the data, or the core freezes. -/
  | landingCycle (k : Nat)
  /-- R126: An instruction's latency bound passes and its result stands in its destination. -/
  | latencyBoundExpiry (k : Nat)
  /-- R129: A slot's occupancy ends and a bundle waiting for it may issue. -/
  | occupancyEnd (k : Nat)
  /-- R239: The busy time of a tile, B tile, bank or scale register passes in wall ccy, ending a busy freeze. -/
  | busyClear (k : Nat)
  /-- R245: At each 64-ccy window boundary the Annealer pays DEBT, sets the allowance and loads ANCFG. -/
  | annealerWindow (k : Nat)
  /-- R135: A single freeze lasts more than 4,194,304 wall ccy and the task stops with a context fault. -/
  | frzto (k : Nat)
  /-- R137: Once the conditions of R136 hold, a fault, trap or breakpoint is taken between bundles and the task stops. -/
  | trapTaken (k : Nat)
  /-- R138: A pending interrupt is taken at the first instant at which R136 holds, ending an admission or Annealer freeze. -/
  | interruptTaken (k : Nat)
  /-- R355: A bundle that fails decode with EMUEN set writes the emulation record and enters the handler. -/
  | emulationEntry (k : Nat)
  /-- R186: A release atomic held in the egress issues once the first set for its scope has performed. -/
  | releaseIssue (id : Nat)
  /-- R186: An acquire atomic performs, and requests of later bundles may issue. -/
  | acquirePerformed (id : Nat)
  /-- R95: A load reaches its home, reads the last value written and sends its reply. -/
  | memoryLoadPerform (id t : Nat)
  /-- R95: A store or posted store reaches its home, writes the location and sends an acknowledgement. -/
  | memoryStorePerform (id t : Nat)
  /-- R105: An acknowledgement returns to the issuing core and lowers its outstanding count. -/
  | acknowledgementArrival (id : Nat)
  /-- R187: Handler 0 returns the old value. -/
  | amoLoad (id t : Nat)
  /-- R187: Handler 1 writes the operand. -/
  | amoStore (id t : Nat)
  /-- R187: Handler 2 writes the operand and returns the old value. -/
  | amoSwap (id t : Nat)
  /-- R187: Handler 3 writes the new value when the old value equals the expected one. -/
  | amoCas (id t : Nat)
  /-- R187: Handler 4 adds the operand, wrapping. -/
  | amoAdd (id t : Nat)
  /-- R187: Handler 5 adds the operand with saturation and NaI. -/
  | amoSaturatingAdd (id t : Nat)
  /-- R187: Handler 6 ands the operand into the location. -/
  | amoAnd (id t : Nat)
  /-- R187: Handler 7 ors the operand into the location. -/
  | amoOr (id t : Nat)
  /-- R187: Handler 8 xors the operand into the location. -/
  | amoXor (id t : Nat)
  /-- R187: Handler 9 keeps the signed minimum. -/
  | amoSignedMin (id t : Nat)
  /-- R187: Handler 10 keeps the signed maximum. -/
  | amoSignedMax (id t : Nat)
  /-- R187: Handler 11 keeps the unsigned minimum. -/
  | amoUnsignedMin (id t : Nat)
  /-- R187: Handler 12 keeps the unsigned maximum. -/
  | amoUnsignedMax (id t : Nat)
  /-- R187: Handler 13 increments the location while it is below the bound. -/
  | fetchIncrementWithBound (id t : Nat)
  /-- R187: Handler 14 decrements the location while it is above the floor. -/
  | fetchDecrementWithFloor (id t : Nat)
  /-- R194: Handler 15 counts arrivals, completes the phase and records any overrun. -/
  | barrierArrive (id t : Nat)
  /-- R195: Handler 16 sets EXPECT and WAKE and clears COUNT, OVR and OVRCNT. -/
  | barrierReset (id t : Nat)
  /-- R36: At the frame's home, a completion writes its reply and then decrements JOIN, pushing the record when JOIN reaches zero. -/
  | joinDec (id t : Nat)
  /-- R188: Handler 18 appends an entry to a queue object when it has room. -/
  | queuePush (id t : Nat)
  /-- R188: Handler 19 removes the head entry of a queue object. -/
  | queuePop (id t : Nat)
  /-- R187: Handler 20 adds four INT16 lanes with saturation. -/
  | packedSatAddInt16 (id t : Nat)
  /-- R187: Handler 21 adds eight INT8 lanes with saturation. -/
  | packedSatAddInt8 (id t : Nat)
  /-- R187: Handler 22 keeps the greatest value with its index. -/
  | maxWithIndex (id t : Nat)
  /-- R111: Handler 23 adds a 32-bit operand, or a merged packet, into a 64-bit word with saturation. -/
  | wideAdd (id t : Nat)
  /-- R187: Handler 24 compares and swaps 128 bits. -/
  | cas128 (id t : Nat)
  /-- R187: Handler 25 sets one bit and returns the old word. -/
  | bitTestAndSet (id t : Nat)
  /-- R190: Handler 26 merges census, counts and EXP into a scale entry. -/
  | censusMinMerge (id t : Nat)
  /-- R191: Handler 27 ORs bits into an event word of a named cluster, or is dropped with EVPERM. -/
  | eventPost (id t : Nat)
  /-- R249: The generator performs one copy of a channel program, reading its source and then writing its destination or a queue. -/
  | copyPerform (k c i : Nat)
  /-- R250: A program's last copy performs; its JOIN is decremented and a pending program becomes live. -/
  | copyProgramComplete (k c : Nat)
  /-- R378: A page-table walk ends with a translation or a fault, for every merged request. -/
  | pageWalkComplete (ctx page : Nat)
  /-- R114: At each fabric tick, every waiting packet's slack is decremented, or EXH is set at zero. -/
  | slackTick
  /-- R403: A packet's first flit reaches a router input or home queue and begins to wait. -/
  | packetArrival (place : Nat) (hdr : BitVec 128) (addr : BitVec 64) (data : BitVec 1024)
  /-- R117: A router output or home queue grants one waiting packet by the rules of R117. -/
  | arbiterGrant (place : Nat)
  /-- R402: A reserved slot carries a waiting circuit flit, or a demoted flit is counted in CMISS. -/
  | circuitSlot (port slot : Nat)
  /-- R399: A link's CRC check fails and the flit is retried. -/
  | flitRetry (port : Nat)
  /-- R408: The Sorord link trains, retrains at another width or rate, or goes down, and the change is journalled. -/
  | linkStateChange (up : Bool) (width rate : BitVec 2)
  /-- R397: A fabric port is lost or trained again, and the change is journalled. -/
  | portStateChange (port : Nat) (up : Bool) (ldelay : BitVec 8)
  /-- R409: A host store through the memory aperture performs at its device home. -/
  | hostMemoryWrite (pa n : Nat) (v : BitVec 1024)
  /-- R409: A host read returns once every earlier host store has performed. -/
  | hostMemoryRead (pa n : Nat)
  /-- R9: A write to a hub-aperture or boot register that has no row of its own sets the field under its access code. -/
  | registerWrite (off : Nat) (v : BitVec 64)
  /-- R360: The hub rereads a watched control line after a write and takes the new TAIL. -/
  | launchQueueTailWrite (q : Nat)
  /-- R362: A task-list launch begins: it is checked, tagged and its records are pushed in list order. -/
  | taskListLaunch (q : Nat)
  /-- R362: A launch of KIND 0 is checked and its inline tile word is accepted at level 4. -/
  | tileWordLaunch (q : Nat)
  /-- R363: A launch retires, fails or ends by a stop, and its completion is journalled and then written. -/
  | launchRetire (tag : Nat)
  /-- R412: The hub mirrors a journal entry to host memory at JMBASE, in ascending SEQ. -/
  | journalMirrorWrite
  /-- R340: State command writing masked doublewords of a context entry. -/
  | ctxset (q : Nat)
  /-- R344: State command assigning clusters to a context, clearing event bits and loading spill-ring registers. -/
  | classign (q : Nat)
  /-- R344: State command releasing clusters from a context. -/
  | clrelease (q : Nat)
  /-- R349: State command checking, placing and sealing a loader object in a context's arena. -/
  | place (q : Nat)
  /-- R359: State command configuring a launch queue. -/
  | qconf (q : Nat)
  /-- R369: State command giving a context a save region of 2 MiB blocks. -/
  | savecfg (q : Nat)
  /-- R365: State command requesting pre-emption of every core of the named clusters and holding idle cores. -/
  | preempt (q : Nat)
  /-- R367: A pre-empted core with nothing pending writes a save block and writes its record back to the queue head as KIND 2. -/
  | preemptSave (k : Nat)
  /-- R365: The limit of a PREEMPT or SWOUT command passes and the command ends with TIMEOUT. -/
  | commandLimitExpiry (q : Nat)
  /-- R371: State command switching a context's clusters out to a switch image. -/
  | swout (q : Nat)
  /-- R373: State command switching clusters back in from their switch image. -/
  | swin (q : Nat)
  /-- R374: State command stopping every source and core of a context. -/
  | stop (q : Nat)
  /-- R375: The stop limit passes and running cores stop at agreeing step counts, or the command ends with STOPFAIL. -/
  | stopFallback (q : Nat)
  /-- R374: State command releasing every held core and stopped source of a context. -/
  | resume (q : Nat)
  /-- R374: RESUME with ABORT ends the interrupted launches with RESULT 3. -/
  | resumeAbort (q : Nat)
  /-- R345: State command writing PARTCFG. -/
  | partset (q : Nat)
  /-- R384: State command invalidating a context's translations over a VA range and advancing GEN. -/
  | tlbinv (q : Nat)
  /-- R384: TLBINV with ALL invalidates every translation of the context. -/
  | tlbinvAll (q : Nat)
  /-- R385: Every request of the context with an older GEN has performed or failed, and TLBINV ends. -/
  | tlbinvEnd (q : Nat)
  /-- R390: FAULT action 0 configures the context's fault ring. -/
  | faultRingConfig (q : Nat)
  /-- R392: FAULT action 1 resumes a stopped task at its resume PC. -/
  | faultResume (q : Nat)
  /-- R392: FAULT action 2 replays an uncommitted task from a given PC. -/
  | faultReplay (q : Nat)
  /-- R392: FAULT action 3 ends a stopped task as by exit, without SETMASK. -/
  | faultDiscard (q : Nat)
  /-- R390: The hub rereads a fault ring's HEAD and moves waiting records into it. -/
  | faultRingHeadWrite (ctx : Nat)
  /-- R400: State command installing a context's fabric plan. -/
  | fplan (q : Nat)
  /-- R400: FPLAN with DEGRONLY copies only the plan's degraded-precision bit. -/
  | fplanDegronly (q : Nat)
  /-- R423: State command selecting the package's operating point. -/
  | opset (q : Nat)
  /-- R423: A commanded or emergency change of operating point takes effect at a tick boundary. -/
  | operatingPointChange
  /-- R424: State command writing the budget-table entry of an operating point. -/
  | anset (q : Nat)
  /-- R426: State command setting the emergency point and the trip temperature. -/
  | tripset (q : Nat)
  /-- R426: A junction sensor reads at or above the trip temperature; the package moves to the emergency point and journals the trip. -/
  | thermalTrip (die : BitVec 2) (temp : BitVec 8)
  /-- R422: State command writing a signed attestation report. -/
  | attest (q : Nat)
  /-- R417: Package reset starts the mask ROM, derives the device secret and zeroes every SRAM. -/
  | packageReset
  /-- R417: The Sorord link trains and boot moves from TRAIN to WAIT. -/
  | linkTrained
  /-- R417: A host write of GO = 1 in WAIT starts LOAD of the firmware image. -/
  | bootctlGo
  /-- R417: The image read from BOOTADDR completes, or fails with ERR 6. -/
  | imageLoaded (ok : Bool)
  /-- R419: VERIFY ends; the hub enters RUN and enables system queue 0, or enters FAIL. -/
  | imageVerified
  /-- R429: Every SRAM and DRAM word is checked within 8 ms, corrected or reported as UECC. -/
  | scrub (loc : Nat) (bad : Bool)
  /-- R159: Every instruction cache of the icinv's scope instance has finished invalidating, and the core's freeze ends. -/
  | icinvFinish (k : Nat)
  /-- R354: Hub firmware finishes serving a sysc request, writes x10 (and x11) and lets the next bundle issue. -/
  | syscServed (k : Nat)
  /-- R382: A micro-TLB or cluster TLB drops an entry of its own accord, so the next access to that page walks again. -/
  | tlbDrop (ctx page : Nat)
  deriving DecidableEq, Repr

end Sys2Proof
end

