-- ==== Sys2Proof/Machine/State.lean ====
section
/-! DEFINITION. The machine's state as plain data, and the state after reset. Rule numbers are those of spec/. -/
namespace Sys2Proof.Machine

/-- Why the machine as a whole stops. -/
inductive Fault where
  /-- Raised by `step` when the schedule gives a turn to a core outside 0 to 511 (R16). Safe: the package has no such core. -/
  | noSuchCore
  deriving DecidableEq, Repr

/-- Why an instruction has no meaning here. -/
inductive Refusal where
  /-- Raised by `exec` for an instruction whose meaning is not written yet. Safe: nothing is concluded about it. -/
  | notModelled (mnemonic : String)
  deriving DecidableEq, Repr

/-- The codes of faults, command results and journal events (R391, Table 7 of chapter 17). -/
inductive Code where
  | undef | priv | codebnd | pcalign | addrspace | bound | align | pgnp | ptebad | permr | permw | pgcow | uecc | frzto
  | trap | bkpt | emustate | emulnest | sviill | loopnest | loopbody | joinovf | joinpend | joinuf | accheld | accbank
  | accfull | accfree | recbad | framebad | qovf | qspflt | amobad | evperm | tilearg | mmaarg | mmafmt | ragged | scfmt
  | scidx | scarg | vconfig | vreg | ecfg | qbind | qfmt | groupmem | publen | tiwop | tiwlevel | tiwflag | tiwbad | tiwgrp
  | tiwexp | descbad | descdim | descfmt | stage | groupbad | groupov | lrecbad | saveflt
  | cmdpriv | cmdbad | ctxbusy | ctxbad | clbusy | qroom | timeout | savefull | stopfail | nofault | commit | lqovf | fltovf
  | pubenc | pubsys | pubtgt | pubread | pubfull
  deriving DecidableEq, Repr

/-- What a fault record says of one fault, beside the task it belongs to (R390, Table 6 of chapter 17). -/
structure FaultInfo where
  code : Code
  /-- 0 precise, 1 after commit, 2 context fault, 3 tile-word decode. -/
  prec : Nat := 0
  slot : Nat := 0
  engine : Nat := 0
  ecmd : Nat := 0
  estat : Word := 0
  addr : Word := 0
  /-- 0 read, 1 write, 2 fetch, 3 atomic. -/
  acc : Nat := 0
  space : Nat := 0
  wlvl : Nat := 0
  pa : Nat := 0
  level : Nat := 1
  deriving DecidableEq, Repr

/-- A task record, eight doublewords (R25). -/
structure Rec where
  w0 : Word := 0
  w1 : Word := 0
  w2 : Word := 0
  w3 : Word := 0
  w4 : Word := 0
  w5 : Word := 0
  w6 : Word := 0
  w7 : Word := 0
  deriving DecidableEq, Repr

/-- A written fault record with its links, as it enters the fault ring (R306, R390). -/
structure FaultRec where
  g : List Word
  links : List (BitVec 128) := []
  stopping : Bool := false
  deriving DecidableEq, Repr

/-- The resources of the scoreboard (R130 step 3). -/
inductive Res where
  | tile (n : Nat) | btile (n : Nat) | bank (n : Nat) | sc (n : Nat)
  deriving DecidableEq, Repr

/-- One busy mark: until a wall ccy, or until a landing entry has been written; `mm` marks the C tile of a matrix
instruction, whose successor is exempt (R239). -/
structure Busy where
  res : Res
  wall : Nat := 0
  land : Option Nat := none
  mm : Bool := false
  deriving DecidableEq, Repr

/-- A result that waits for its latency bound (R126). -/
inductive PDst where
  | x (d : Nat) (v : Word)
  | v (d : Nat) (r : VReg)
  | sc (d : Nat) (r : ScReg)
  | slk (v : Word)
  /-- The smoothing vector of `smset` (R243). -/
  | sm (v : BitVec 512)
  /-- SRSEED (R264). -/
  | seed (v : BitVec 32)
  deriving DecidableEq, Repr

/-- A pending result and the core time from which bundles read it. -/
structure Pend where
  ready : Nat
  dst : PDst
  deriving DecidableEq, Repr

/-- One part of a landing entry's data: the request that brings it, and the data once it is in the lehr (R90, R92). -/
structure Part where
  req : Nat
  data : Option Line := none
  deriving DecidableEq, Repr

/-- Where the data of a landing-class request goes (R90). Parts are numbered from 0. -/
inductive LandDst where
  /-- Scalar load of n bytes, sign-extended or not (R174). -/
  | x (d n : Nat) (signed : Bool)
  /-- A 16-byte atomic result into xd and x(d+1) (R185). -/
  | pair (d : Nat)
  /-- Vector load: group vd at width eew, elements set to all ones, elements (index, part, byte offset in the line) (R228). -/
  | vec (d eew : Nat) (ones : List Nat) (els : List (Nat × Nat × Nat))
  /-- `tld` (e = 0) or `tldt` with element size e (R178, R179). -/
  | tile (d e : Nat)
  /-- `bld`: B tile, with smoothing or not; the vector and format are those set at issue (R181). -/
  | btile (b : Nat) (sm : Option (BitVec 512 × BitVec 5))
  /-- `scld` (R258). -/
  | scale (n : Nat) (tidx : BitVec 12)
  /-- The vector of an `smset` that its bundle holds (R103, R105, R243). -/
  | smooth
  deriving DecidableEq, Repr

/-- A landing-class request between its issue and its landing cycle, in core time (R90). -/
structure Landing where
  id : Nat
  at_ : Nat
  dst : LandDst
  parts : List Part
  /-- Room reserved in the lehr (R92). -/
  room : Nat
  /-- Never freezes the core: its data was read at issue (R91). -/
  own : Bool := false
  /-- Destination registers that a later-issued write has taken over (R128). -/
  dead : List Nat := []
  deriving DecidableEq, Repr

/-- One of the sixteen queues (R252, R254): `pos` elements of the head entry have been popped. -/
structure Queue where
  src : Word := 0
  snk : Word := 0
  ents : List Line := []
  pos : Nat := 0
  deriving DecidableEq, Repr

/-- A copy with an end in another package: its requests there, reads before writes (R106, R396). -/
structure FarCopy where
  i : Nat
  writing : Bool
  ids : List Nat
  deriving DecidableEq, Repr

/-- A program handed to a channel's generator (R249, R250). `next`: every copy below it has performed; `ahead`: further
copies that have performed; `map`: the page translations that the probe found. -/
structure CopyProg where
  /-- The model's name of the program, and its channel. -/
  id : Nat := 0
  chan : Nat := 0
  f : Tab Word
  slack : Nat
  next : Nat := 0
  ahead : List Nat := []
  map : Tab Nat := []
  gen : BitVec 8 := 0
  deps : List Nat := []
  ltag : BitVec 16 := 0
  ctx : Nat := 0
  /-- FRAME of its task and arena offset of its `ego`, for fault records (R251). -/
  frame : Word := 0
  off : Word := 0
  prio : Nat := 0
  /-- Its copies under way to or from other packages. -/
  far : List FarCopy := []
  deriving DecidableEq, Repr

/-- One copy channel (R247): `done` counts performed copies of the live program. -/
structure Channel where
  shadow : Tab Word := []
  live : Option CopyProg := none
  pend : Option CopyProg := none
  done : Nat := 0
  deriving DecidableEq, Repr

/-- What a core waits on after a commit: one wait of its C slot, one of its M slot. -/
inductive Wait where
  | none
  /-- `fence`: the requests that must perform (R196). -/
  | reqs (ids : List Nat)
  /-- `drain.r`: the posted requests that must be acknowledged (R197). -/
  | acks (ids : List Nat)
  /-- `drain`: the copy programs that must have performed (R197). -/
  | drain (ids : List Nat)
  /-- `evwait`: destination, word, mask and the last core time tested (R157). -/
  | ev (pd w : Nat) (mask : BitVec 32) (last : Nat)
  /-- `bwait`: destination, awaited phase, address, last core time, scope and the poll in flight (R198). -/
  | bw (pd : Nat) (ph : BitVec 4) (addr : Word) (last scope : Nat) (poll : Option Nat)
  /-- A bounded wait that has failed, until core time `until_` (R157, R198). -/
  | bubble (until_ : Nat)
  /-- `sysc`: the request number, and x10 to x15 and x17 as they stood at its commit (R158, R354). -/
  | sysc (n : Nat) (args : List Word)
  /-- `icinv`: the scope (R159). -/
  | icinv (scope : Nat)
  /-- `tix`: the tile word (R201). -/
  | tix (id : Nat)
  /-- Emulation entry waiting for R136: the slots that failed step 1, and the bundle (R355). -/
  | emu (mask : BitVec 8) (b : Bundle)
  deriving DecidableEq, Repr

/-- Where a core stands (R33, R154, R389). -/
inductive Run where
  | idle
  | running
  /-- `exit` or `cont` has committed and the core waits for R136 (R154). -/
  | ending
  /-- Stopped by a fault (R389). -/
  | stopped
  deriving DecidableEq, Repr

/-- What the read of a waiting `qpush`, `tpost` or `tix` has brought: the data, or its failure with walk level and physical address (R199). -/
inductive PRead where
  | data (v : Line)
  | fail (code : Code) (lvl pa : Nat)
  deriving DecidableEq, Repr

/-- The pre-emption states of Table 5 of chapter 16. -/
inductive Pre where
  | none | finishing | armed | draining | taking | saving | held
  deriving DecidableEq, Repr

/-- A trap that waits for R136: the fault and whether resumption is at the next bundle (R137). -/
structure Trap where
  info : FaultInfo
  next : Bool := false
  /-- The arena offset that the record reports. -/
  off : Word := 0
  /-- The fault links of a tile word that `tix` has run (R306). -/
  links : List (BitVec 128) := []
  /-- Its record has been written, when the fault was found (R394). -/
  told : Bool := false
  deriving DecidableEq, Repr

/-- One core. -/
structure Core where
  run : Run := .idle
  pre : Pre := .none
  pc : Word := 0
  /-- The entry loaded at dispatch (R340), the context, the record held, the launch tag, the group table pointer. -/
  ctx : Nat := 0
  ent : Tab Word := []
  trec : Rec := {}
  ltag : BitVec 16 := 0
  gbase : Word := 0
  x : Tab Word := []
  /-- p0 to p7; bit 0 reads true (R124). -/
  p : BitVec 8 := 1
  v : Tab VReg := []
  t : Tab Tile := []
  bt : Tab Tile := []
  acc : Tab Bank := []
  accAl : BitVec 128 := 0
  sc : Tab ScReg := []
  lt : Tab (BitVec 12) := []
  q : Tab Queue := []
  vl : BitVec 13 := 0
  vtype : BitVec 32 := 0
  srseed : BitVec 32 := 0
  /-- The seed that has seeded the lane states last, and the lane states that differ from their seeding by it (R68, R260). -/
  lseed : BitVec 32 := 0
  lanes : Tab (BitVec 32) := []
  slk : Word := 0
  slkstat : Word := 0
  mmstat : Word := 0
  frzstat : Word := 0
  joincnt : Word := 0
  ctime : Nat := 0
  wtime : Nat := 0
  stepno : Word := 0
  lpc : Tab Word := []
  lps : Tab Word := []
  emuAct : Bool := false
  /-- Slots being emulated; with `emuAct` false, the slots nullified at the reissue after `emret` (R357). -/
  emuMask : BitVec 8 := 0
  epc : Word := 0
  smv : BitVec 512 := 0
  smaddr : Word := 0
  smstat : Word := 0
  mxstat : Word := 0
  ancfg : Word := 0x00800240#64
  debt : Nat := 0
  used : Nat := 0
  al : Nat := 128
  denies : Nat := 0
  gang : Nat := 0
  /-- The Annealer window last begun (R245), and whether the waiting bundle has been denied (R246). -/
  window : Nat := 0
  denied : Bool := false
  ch : Tab Channel := []
  pend : List Pend := []
  land : List Landing := []
  busy : List Busy := []
  /-- Occupancy ends per slot, in the clock `oclk` that freezes other than busy freezes stop (R129, R133). -/
  occ : Tab Nat := []
  oclk : Nat := 0
  /-- No bundle issues before this core time (a taken transfer's c + 1, R127). -/
  issueAt : Nat := 0
  wait : Wait := .none
  /-- The wait of the M slot: a `fence`, a drain, a `bwait` or a `tix`. -/
  mwait : Wait := .none
  trap : Option Trap := none
  /-- The task's `exit` or `cont` has committed, and a stop under R389 has come before its end (R135, R140). -/
  ended : Bool := false
  skipBk : Bool := false
  /-- The task has been stopped by UECC or FRZTO: it cannot be resumed (R393, R428). -/
  lost : Bool := false
  /-- A STOP fall-back makes the core stop at its next `step` (R155, R375). -/
  stepStop : Bool := false
  /-- The core has stopped at a `step` (R375). -/
  atStep : Bool := false
  /-- Bundles held in the instruction cache, by physical address (R159). -/
  ic : List (Nat × Bundle) := []
  /-- The read that a waiting `qpush`, `tpost` or `tix` has sent, and its reply (R199, R203). -/
  prd : Option (Nat × Option PRead) := none
  /-- Ccy that the waiting `ego` has spent on its probe (R250). -/
  probed : Nat := 0
  /-- The ccy of the core's last turn, and that in which it reached Saving (R367). -/
  lastCcy : Nat := 0
  satCcy : Nat := 0
  /-- Length of the freeze under way (R135). -/
  frz : Nat := 0
  /-- The save block the task came from or goes to (R367), and the resume PC. -/
  resume : Word := 0
  deriving DecidableEq, Repr

/-- The kinds of request (R94, R110). -/
inductive ReqKind where
  | load | store | amo
  deriving DecidableEq, Repr

/-- Where the reply of a request goes. -/
inductive ReqDst where
  | none
  /-- Part `i` of landing entry `l` of the issuing core. -/
  | land (l i : Nat)
  /-- A reply slot in the task's own frame, then its join decrement (R36): location of the slot, bytes, frame. -/
  | slot (loc n : Nat) (frame : Word)
  /-- The poll of a `bwait`. -/
  | poll
  /-- Back through the fabric to another package (R396): the header of the packet that brought it. -/
  | remote (hdr : BitVec 128)
  /-- A WAKE on its way to the package of another's core (R194): the header of the packet whose atomic has completed the phase. -/
  | wake (hdr : BitVec 128)
  /-- Kept, once its reply is here, for the copy generator or the tile-word sequencer that has sent it (KIND 34 and 35, R398). -/
  | gen
  deriving DecidableEq, Repr

/-- How far a request has come. -/
inductive ReqStage where
  /-- In the egress, the fabric or a home queue. -/
  | out
  /-- Performed; its reply or acknowledgement is on the way. -/
  | done
  deriving DecidableEq, Repr

/-- A request in flight (R92, R94). `loc` is the memory location of its first byte, `none` while it still is to be
translated on its target (space 0x5). `deps` are requests that must perform first. -/
structure Req where
  id : Nat
  core : Nat
  kind : ReqKind
  addr : Word
  loc : Option Nat
  n : Nat
  /-- Bytes written, by offset from the address. -/
  wr : List (Nat × Byte) := []
  /-- The bytes that a load reads, as runs of offset and length; empty: all of them (R228). -/
  act : List (Nat × Nat) := []
  h : Nat := 0
  op : Word := 0
  op2 : Word := 0
  op3 : Word := 0
  op4 : Word := 0
  acq : Bool := false
  rel : Bool := false
  scope : Nat := 0
  /-- Counted by `drain.r` (R105, R185). -/
  posted : Bool := false
  /-- An atomic with acquire or release in its attribute word (R112, R406). -/
  ord : Bool := false
  /-- A wide add in a window of its context (R113, R398). -/
  win : Bool := false
  slack : Nat := 0
  exh : Bool := false
  prio : Nat := 0
  ltag : BitVec 16 := 0
  ctx : Nat := 0
  gen : BitVec 8 := 0
  deps : List Nat := []
  dst : ReqDst := .none
  stage : ReqStage := .out
  /-- Since when it waits in the service queue of its home, the grants made to others there since, and whether it has been granted
  (R117, R403). -/
  arr : Option Nat := none
  seen : Nat := 0
  go : Bool := false
  res : Line := 0
  /-- Failed after commit: its data is undefined (R388). -/
  bad : Bool := false
  /-- The task and the place that a fault record of the request names: slot, FRAME, arena offset of the issuing bundle (R140). -/
  slot : Nat := 0
  frame : Word := 0
  off : Word := 0
  /-- ENGINE of such a record (Table 6 of chapter 17). -/
  eng : Nat := 2
  /-- The PC of the issuing bundle, at which an SVI instruction resumes (R318). -/
  npc : Word := 0
  /-- Its packet has left this package (R396). -/
  sent : Bool := false
  deriving DecidableEq, Repr

/-- A split-phase request that the hub or a sequencer answers: `publish`, `gbar`, and completions on their way to a frame
(R36): a write of `n` bytes at `loc`, then a join decrement of `frame` seen from die `die`. -/
inductive HubReq where
  | publish (core : Nat) (addr : Word) (len : Nat)
  | gbar (core ctx group : Nat)
  | done
  deriving DecidableEq, Repr

/-- A completion on its way to a frame, or a hub request that will become one (R36, R160, R262). -/
structure Comp where
  id : Nat
  what : HubReq
  loc : Nat
  n : Nat
  v : Line
  frame : Word
  die : Nat
  /-- The core whose split-phase request it completes (R92). -/
  owner : Option Nat := none
  deps : List Nat := []
  ltag : BitVec 16 := 0
  ctx : Nat := 0
  exh : Bool := false
  slack : Nat := 0
  deriving DecidableEq, Repr

/-- The spill-ring registers of one queue (R43). -/
structure Ring where
  base : Word := 0
  size : Word := 0
  head : Word := 0
  tail : Word := 0
  deriving DecidableEq, Repr

/-- One cluster: event words, ready queues, spill rings, frozen marks (one entry per reason), ages of ready heads, aged
marks, and the dispatch stop of SWOUT (R33 to R47, R371). -/
structure Cluster where
  ev : Tab (BitVec 32) := []
  /-- Sets and clears of the ccy `evCcy`, which later ccy see (R47). -/
  evS : Tab (BitVec 32) := []
  evC : Tab (BitVec 32) := []
  evCcy : Nat := 0
  rq : Tab (List Rec) := []
  ring : Tab Ring := []
  frz : List Nat := []
  age : Tab Nat := []
  /-- Queues whose head is aged, earliest first, with the dispatches made since (R34). -/
  aged : List (Nat × Nat) := []
  noDisp : Bool := false
  /-- The ccy of its last DISPATCH; that of its last push, with the push's place in the order of R44. -/
  dispCcy : Nat := 0
  pushCcy : Nat := 0
  pushKey : Nat := 0
  deriving DecidableEq, Repr

/-- A sealed object of an arena (R351). -/
structure Obj where
  off : Nat
  size : Nat
  published : Bool
  /-- Software has written its bytes through a page table, so that they are undefined (R347). -/
  broken : Bool := false
  /-- Physical base of the arena in which it was placed: its bytes stand there, wherever the arena moves (R351). -/
  base : Nat := 0
  /-- SHA-512 of the bytes as they were placed (R351). -/
  sum : BitVec 512
  deriving DecidableEq, Repr

/-- A group-table entry as loaded at launch (R48, R49). -/
structure Group where
  members : BitVec 512 := 0
  count : Nat := 0
  order : List Nat := []
  deriving DecidableEq, Repr

/-- The arrivals of one group: epoch, slots of arrivals that count now, arrivals held for the next epoch (R262). -/
structure Epoch where
  n : BitVec 32 := 0
  arr : List (Nat × Nat) := []
  deriving DecidableEq, Repr

/-- The fault ring of a context (R390): `wait` are records the hub keeps, `ovfl` an overflow episode under way. -/
structure FRing where
  base : Nat := 0
  log2n : Nat := 0
  head : Nat := 0
  tail : Nat := 0
  lost : Nat := 0
  wait : List FaultRec := []
  ovfl : Bool := false
  deriving DecidableEq, Repr

/-- A fabric plan (R400): geometry, own coordinate, ring of coordinates, slot tables as (port, entry) pairs. -/
structure Plan where
  dx : Nat := 1
  dy : Nat := 1
  dz : Nat := 1
  mx : Nat := 0
  my : Nat := 0
  mz : Nat := 0
  circ : Bool := false
  degr : Bool := false
  ring : List (BitVec 12) := []
  slots : Tab (BitVec 16) := []
  deriving DecidableEq, Repr

/-- One context beside its 32 doublewords (R340): windows, generation, save region, objects, groups, fault ring, plan. -/
structure Ctx where
  d : Tab Word := []
  rwin : Tab Word := []
  gen : BitVec 8 := 0
  saveBase : Word := 0
  saveCnt : Nat := 0
  saveUsed : List Nat := []
  /-- Software has written the group table while a launch was in flight (R49). -/
  grpBroken : Bool := false
  objs : List Obj := []
  gptr : Word := 0
  groups : Tab Group := []
  epochs : Tab Epoch := []
  fr : FRing := {}
  plan : Option Plan := none
  stopped : Bool := false
  /-- Switch images of switched-out clusters: global cluster number and image address (R371). -/
  sw : Tab Nat := []
  /-- Frozen queues of switched-out clusters: global cluster and queue, one entry per reason (R37, R371). -/
  swFrz : List (Nat × Nat) := []
  /-- Tasks written back while they were stopped, by global cluster and FRAME (R392). -/
  wbStop : List (Nat × Word) := []
  /-- Those of them that UECC or FRZTO has stopped (R393, R428). -/
  wbLost : List (Nat × Word) := []
  deriving DecidableEq, Repr

/-- A TLB entry (R382): the TLB that holds it (k the micro-TLB of core k, 1024 + n the TLB of global cluster n), context, first VA,
size, physical base, permissions, tagged with the ASID and the generation at the walk. -/
structure TlbEnt where
  place : Nat
  ctx : Nat
  gen : BitVec 8
  asid : BitVec 16
  va : Nat
  size : Nat
  pa : Nat
  r : Bool
  w : Bool
  cow : Bool
  deriving DecidableEq, Repr

/-- A launch queue (R359); `tail` is the TAIL last read (R360). -/
structure LaunchQ where
  base : Word := 0
  ctl : Word := 0
  cfg : BitVec 32 := 0
  head : BitVec 32 := 0
  tail : BitVec 32 := 0
  deriving DecidableEq, Repr

/-- A launch in flight (R50, R362, R363): its live records by global cluster and FRAME, the code of its first fault record, staging
fields L5 to L7. -/
structure Launch where
  tag : BitVec 16
  q : Nat
  /-- The HEAD of its record, and whether its queue was a system queue (R51, R359). -/
  idx : Nat := 0
  sysq : Bool := false
  ctx : Nat
  kind : Nat
  recs : List (Nat × Word) := []
  cmpaddr : Word
  cmpval : Word
  gptr : Word := 0
  l5 : Word := 0
  l6 : Word := 0
  l7 : Word := 0
  failed : Option Code := none
  degr : Bool := false
  stopped : Bool := false
  /-- The word of a KIND 0 launch that has not completed. -/
  word : Option Nat := none
  deriving DecidableEq, Repr

/-- A state command in progress (R364): its queue, opcode and operands, how far it has come, and the requests it waits for. -/
structure Cmd where
  q : Nat
  cmd : Nat
  op0 : Word
  op1 : Word
  op2 : Word
  cmpaddr : Word := 0
  cmpval : Word := 0
  idx : Nat := 0
  phase : Nat := 0
  ids : List Nat := []
  deriving DecidableEq, Repr

/-- Where a tile word comes from (R275). -/
inductive TFrom where
  | tpost (slot : Nat) (frame : Word)
  | tix
  | launch
  deriving DecidableEq, Repr

/-- How far a tile word has come (R275 to R278, R305). -/
inductive TStage where
  | posted
  | accepted
  /-- Its sources in other packages are being read (R396). -/
  | fetch
  /-- A child has failed: the leaf record and the links above it. -/
  | child (info : FaultInfo) (links : List (BitVec 128))
  | done
  | failed (info : FaultInfo) (links : List (BitVec 128))
  deriving DecidableEq, Repr

/-- A scale entry's update at a word's completion (R74): EXP, CEN, CENV, SATC and POISON to add. `move`: CEN and CENV are set
whatever CENV is (R282). -/
structure EntUpd where
  sci : Nat
  exp : Int
  cen : Nat
  cenv : Bool
  satc : Nat
  poison : Nat
  move : Bool := false
  deriving DecidableEq, Repr

/-- A tile word in flight: snapshots of descriptors D, A, B, C, of their scale entries, of the group and the row counts. `core`
is the posting core, or the launch queue of a launch word. `deps` are the words it starts after (R276, R294); `held` and `freed`
belong to a grouped `tbar`: its arrival counts in a later epoch, its epoch has completed (R294). `off` is the arena offset of the
posting bundle. -/
structure TileW where
  id : Nat
  word : Bundle
  src : TFrom
  core : Nat
  ctx : Nat
  ltag : BitVec 16
  seed : BitVec 32
  stage : TStage
  desc : List (BitVec 512) := []
  ents : List Word := []
  grp : Group := {}
  rc : List Nat := []
  smv : BitVec 512 := 0
  deps : List Nat := []
  upd : List EntUpd := []
  degr : Bool := false
  held : Bool := false
  freed : Bool := false
  off : Word := 0
  /-- Its requests to other packages: reads while it is at `fetch`, writes once it is done (R396). -/
  far : List Nat := []
  /-- The cores at which its children run, from its start on (R303). -/
  cores : List Nat := []
  /-- The degraded wire setting at its acceptance (R293, R400). -/
  wire : Bool := false
  /-- Software has accessed its staging regions while it ran (R302). -/
  spoilt : Bool := false
  /-- The slot that its fault records name, and the PC of its bundle, at which an SVI instruction resumes (R318). -/
  slot : Nat := 3
  npc : Word := 0
  deriving DecidableEq, Repr

/-- A packet that waits in the router of a die: its input (0 to 5 the die's ports by direction, 6 local injection), the bytes of its access,
and the flit time at which it came (R398, R403). -/
structure Pkt where
  id : Nat
  die : Nat
  inp : Nat
  n : Nat := 8
  at_ : Nat := 0
  /-- The request expects no old value; it carries acquire or release (R406). -/
  post : Bool := false
  ord : Bool := false
  hdr : BitVec 128
  addr : Word
  data : Line
  /-- Grants made to others at its output since it began to wait (R117), and the ticks that it has waited. -/
  seen : Nat := 0
  ticks : Nat := 0
  deriving DecidableEq, Repr

/-- The record of a merge at a port (R407): the port and the headers of the two inputs. -/
structure Merge where
  id : Nat
  port : Nat
  a : BitVec 128
  b : BitVec 128
  deriving DecidableEq, Repr

/-- A journal entry, doublewords J0 to J3 (R411). -/
structure JEnt where
  seq : Word
  j1 : Word
  time : Word
  arg : Word
  deriving DecidableEq, Repr

/-- A change of operating point that has begun (R423, R426, R427): the point, whether a trip caused it, the ARG of its journal entry, and the
tick at which it began. -/
structure OpChg where
  op : BitVec 3
  trip : Bool := false
  arg : Word := 0
  at_ : Nat := 0
  deriving DecidableEq, Repr

/-- The hub, its boot and its power state (R359, R411, R417 to R429). -/
structure Hub where
  jseq : Nat := 0
  journal : List JEnt := []
  mirrored : Nat := 0
  jmbase : Word := 0
  linkstat : Word := 0
  fport : Tab Word := []
  bootState : Nat := 0
  bootErr : Nat := 0
  sq0log : BitVec 5 := 0
  bootaddr : Word := 0
  sq0base : Word := 0
  sq0ctl : Word := 0
  errstat : Word := 0
  ticks : Nat := 0
  partcfg : Word := 0x3C#64
  op : BitVec 3 := 2
  /-- Entries that ANSET has written: bit 32 set, STEP above BUDGET (R424). -/
  budget : Tab (BitVec 33) := []
  /-- Changes of operating point that have begun, oldest first, and the tick and point of the last trip that has taken effect (R423, R426,
  R427). -/
  opNext : List OpChg := []
  tripAt : Option (Nat × BitVec 3) := none
  emerg : BitVec 3 := 0
  trip : BitVec 8 := 105
  svn : BitVec 16 := 0
  minSvn : BitVec 16 := 0
  fwDigest : BitVec 512 := 0
  /-- The firmware image as LOAD has read it (R417), and the body offset at which the firmware has begun (R419). -/
  image : List Byte := []
  fwEntry : Option Nat := none
  sysBase : Word := 0
  sysSize : Word := 0
  lq : Tab LaunchQ := []
  ptr : Tab Nat := []
  credit : Tab Nat := []
  launches : List Launch := []
  cmds : List Cmd := []
  /-- The geometry of the plans installed since reset (R400). -/
  geom : Option (Nat × Nat × Nat) := none
  /-- The slot tables the routers hold (R401). -/
  slots : Tab (BitVec 16) := []
  slotCtx : Option Nat := none
  /-- REVID (R418). -/
  revid : Word := 0x0100
  /-- What the last host read returned (R409). -/
  hostData : Line := 0
  /-- Control lines that a store has changed and the hub has not read again: queue q as q, the fault ring of context n as 16384 + n, with the
  tick of the store (R410). -/
  dirty : List (Nat × Nat) := []
  /-- Live records of launches that have ended: context, global cluster and FRAME (R344, R363). -/
  orphans : List (Nat × Nat × Word) := []
  /-- The pod's count of flit times; the flit time of each port's next slot; flits taken in the neighbour's buffer, by 4 × port + 2 × class + VC
  (R402, R403). -/
  flit : Nat := 0
  slotAt : Tab Nat := []
  used : Tab Nat := []
  deriving DecidableEq, Repr

/-- The SVI image of a context as its translator has placed it (R307 to R318): physical base and size of the SVI text, and the arena
offset of its translation, 32 bytes to an SVI word. Size 0: none. -/
structure SviImg where
  base : Nat := 0
  size : Nat := 0
  off : Nat := 0
  deriving DecidableEq, Repr

/-- One move of the schedule: a turn of a core, or a step of another agent. -/
inductive Move where
  | core (k : Nat)
  | event (i : Instr)
  deriving DecidableEq, Repr

/-- The machine: one package. -/
structure State where
  cores : Tab Core
  clus : Tab Cluster
  /-- All memories, by location (Machine/Ops.lean gives the map). -/
  mem : List Host.Cell
  ctxs : Tab Ctx
  reqs : List Req
  comps : List Comp
  tiles : List TileW
  tlb : List TlbEnt
  /-- The 8-byte words, by location, whose stored data holds an uncorrectable error (R428). -/
  uecc : List Nat
  pkts : List Pkt
  merges : List Merge
  /-- The packet that each port has sent last: port and packet (R396). -/
  wire : List (Nat × Pkt)
  hub : Hub
  /-- The SVI images of each context (R307 to R318, R322). -/
  svi : Tab (List SviImg)
  /-- vxrm above vxsat, kept per core for SVI code (R312). -/
  vx : Tab (BitVec 3)
  /-- The core whose turn it is. -/
  cur : Nat
  agenda : List Move
  /-- The present ccy (R44, R47): a new one begins when the order of the moves needs it. -/
  ccy : Nat
  /-- The counter of free values (the model's own). -/
  free : Nat
  nextId : Nat
  deriving DecidableEq, Repr

/-- The machine right after package reset (R11, R417): the hub's mask ROM is about to train the link, every core is idle. -/
def State.reset : State where
  cores := []
  clus := []
  mem := []
  ctxs := []
  reqs := []
  comps := []
  tiles := []
  tlb := []
  uecc := []
  pkts := []
  merges := []
  wire := []
  hub := {}
  svi := []
  vx := []
  cur := 0
  agenda := []
  ccy := 1
  free := 0
  nextId := 1

end Sys2Proof.Machine
end

