-- ==== Sys2Proof/WellFormed.lean ====
section
/-! DEFINITION. Which instructions are well formed: the field values that R122 lets a slot hold beyond the reserved bits, and the
legal encodings of SVI (R307 to R317). The checks are on the instruction alone; privilege and configuration are the machine's. -/
namespace Sys2Proof

/-- User status-register numbers of R162, and every number of the system range. -/
def csrNumOk (n : Nat) : Bool :=
  n ≤ 4 || (8 ≤ n && n ≤ 0xE) || (0x10 ≤ n && n ≤ 0x12) || (0x18 ≤ n && n ≤ 0x23) || (0x30 ≤ n && n ≤ 0x4F) || 0x800 ≤ n

/-- Operand kind and field b of form VA (R214, Table 5). -/
def vaOk (k : BitVec 2) (b : BitVec 6) : Bool := k ≠ 3 && (k ≠ 0 || !b.msb)

/-- The register fields of an atomic (R184, R316). -/
def amoRegsOk (d a : Nat) (h : BitVec 5) : Bool :=
  a % 2 = 0 && (!(h = 3 || h = 15 || h = 16 || h = 19) || d % 2 = 0) && (h ≠ 24 || d % 4 = 0)

/-- The register fields of `ag.amo` (R316). -/
def agAmoOk (d b a : BitVec 5) (h : BitVec 5) : Bool :=
  a.toNat % 2 = 0 && (!(h = 3 || h = 15 || h = 16 || h = 19) || (b.toNat % 2 = 0 && d.toNat % 2 = 0)) &&
    (h ≠ 24 || (b.toNat % 4 = 0 && d.toNat % 2 = 0))

/-- RV64I arithmetic: the functions that exist with an immediate and in the W forms, and the shift amounts. -/
def sviIntOk : SviInt → Bool
  | .lui _ _ => true
  | .auipc _ _ => true
  | .opImm f w _ _ imm =>
    match f with
    | .sub => false
    | .sll | .srl | .sra => if w then imm.toNat < 32 else imm.toNat < 64
    | .add => true
    | _ => !w
  | .opReg f w _ _ _ =>
    match f with
    | .add | .sub | .sll | .srl | .sra => true
    | _ => !w

/-- M extension: the W forms that exist. -/
def sviMulOk (m : SviMul) : Bool :=
  match m.f with
  | .mulh | .mulhsu | .mulhu => !m.w
  | _ => true

/-- Loads and stores: `ldu` does not exist. -/
def sviMemOk : SviMem → Bool
  | .load z uns _ _ _ => !(z = 3 && uns)
  | .store _ _ _ _ => true

/-- The forms of the integer subset of RVV 1.0 in OPIVV, OPIVX and OPIVI (R313, Table 3). -/
def rvvOpi (f6 : Nat) (vm : Bool) (vs2 vs1 : Nat) (f3 : Nat) : Bool :=
  let v := f3 == 0
  let x := f3 == 4
  let i := f3 == 3
  match f6 with
  | 0x00 | 0x09 | 0x0A | 0x0B | 0x0C => true
  | 0x02 | 0x04 | 0x05 | 0x06 | 0x07 => v || x
  | 0x03 => x || i
  | 0x0E => true
  | 0x0F => x || i
  | 0x10 => !vm
  | 0x11 => true
  | 0x12 => (v || x) && !vm
  | 0x13 => v || x
  | 0x17 => !vm || vs2 = 0
  | 0x18 | 0x19 | 0x1C | 0x1D => true
  | 0x1A | 0x1B => v || x
  | 0x1E | 0x1F => x || i
  | 0x20 | 0x21 | 0x25 | 0x28 | 0x29 | 0x2A | 0x2B | 0x2C | 0x2D | 0x2E | 0x2F => true
  | 0x22 | 0x23 => v || x
  | 0x27 => v || x || (vm && (vs1 = 0 || vs1 = 1 || vs1 = 3 || vs1 = 7))
  | 0x30 | 0x31 => v
  | _ => false

/-- The forms of the integer subset in OPMVV and OPMVX. -/
def rvvOpm (f6 : Nat) (vm : Bool) (vs2 vs1 : Nat) (f3 : Nat) : Bool :=
  let v := f3 == 2
  let x := f3 == 6
  match f6 with
  | 0x00 | 0x01 | 0x02 | 0x03 | 0x04 | 0x05 | 0x06 | 0x07 => v
  | 0x08 | 0x09 | 0x0A | 0x0B => true
  | 0x0E | 0x0F => x
  | 0x10 => if v then (vs1 = 0 && vm) || vs1 = 16 || vs1 = 17 else vs2 = 0 && vm
  | 0x12 => v && 2 ≤ vs1 && vs1 ≤ 7
  | 0x14 => v && (vs1 = 1 || vs1 = 2 || vs1 = 3 || vs1 = 16 || (vs1 = 17 && vs2 = 0))
  | 0x17 | 0x18 | 0x19 | 0x1A | 0x1B | 0x1C | 0x1D | 0x1E | 0x1F => v && vm
  | 0x20 | 0x21 | 0x22 | 0x23 | 0x24 | 0x25 | 0x26 | 0x27 => true
  | 0x29 | 0x2B | 0x2D | 0x2F => true
  | 0x30 | 0x31 | 0x32 | 0x33 | 0x34 | 0x35 | 0x36 | 0x37 => true
  | 0x38 | 0x3A | 0x3B | 0x3C | 0x3D | 0x3F => true
  | 0x3E => x
  | _ => false

/-- The integer subset of RVV 1.0 (R313, Table 3): reserved encodings are excluded (R310). -/
def sviVecOk : SviVec → Bool
  | .vsetvli _ _ _ => true
  | .vsetivli _ _ _ => true
  | .vsetvl _ _ _ => true
  | .arith f6 vm vs2 vs1 f3 _ =>
    match f3.toNat with
    | 0 | 3 | 4 => rvvOpi f6.toNat (vm = 1) vs2.toNat vs1.toNat f3.toNat
    | 2 | 6 => rvvOpm f6.toNat (vm = 1) vs2.toNat vs1.toNat f3.toNat
    | _ => false
  | .mem st nf mew mop vm rs2 _ width _ =>
    mew = 0 && (width = 0 || width = 5 || width = 6 || width = 7) &&
      (mop ≠ 0 ||
        match rs2.toNat with
        | 0 => true
        | 8 => vm = 1 && (nf = 0 || nf = 1 || nf = 3 || nf = 7) && (!st || width = 0)
        | 11 => vm = 1 && nf = 0 && width = 0
        | 16 => !st
        | _ => false)

/-- The well-formed instructions: those some word encodes, and every step that has no encoding. -/
def wellFormed : Instr → Bool
  | .loop _ l _ => l ≠ 0
  | .loope s _ l _ => l ≠ 0 && s ≠ 0
  | .icinv s _ => s.toNat < 4
  | .csrr _ r _ => csrNumOk r.toNat
  | .csrw _ r _ => csrNumOk r.toNat
  | .csrs _ r _ => csrNumOk r.toNat
  | .csrc _ r _ => csrNumOk r.toNat
  | .csrwI _ r _ => csrNumOk r.toNat
  | .csrsI _ r _ => csrNumOk r.toNat
  | .csrcI _ r _ => csrNumOk r.toNat
  | .cmp _ _ _ c _ => c ≠ 7
  | .cmpi _ _ _ c _ => c ≠ 7
  | .adds _ _ _ f _ => f.toNat < 4
  | .subs _ _ _ f _ => f.toNat < 4
  | .rld _ _ z i s _ => z.toNat ≤ 4 && (i = 1 || s = 0)
  | .rst _ _ _ i s _ => i = 1 || s = 0
  | .amo d a h _ _ => amoRegsOk d.toNat a.toNat h
  | .amoF d a h _ => amoRegsOk d.toNat a.toNat h
  | .amoN d a h _ => amoRegsOk d.toNat a.toNat h
  | .fence s _ => s.toNat ≤ 4
  | .bwait _ _ _ s _ => s.toNat ≤ 4
  | .vsetvli _ _ v _ => v.extractLsb' 2 3 ≠ 4#3
  | .vsetivli _ _ v _ => v.extractLsb' 2 3 ≠ 4#3
  | .vadd _ _ b k _ _ => vaOk k b
  | .vsub _ _ b k _ _ => vaOk k b
  | .vand _ _ b k _ _ => vaOk k b
  | .vor _ _ b k _ _ => vaOk k b
  | .vxor _ _ b k _ _ => vaOk k b
  | .vsll _ _ b k _ _ => vaOk k b
  | .vsrl _ _ b k _ _ => vaOk k b
  | .vsra _ _ b k _ _ => vaOk k b
  | .vmul _ _ b k _ _ => vaOk k b
  | .vmulh _ _ b k _ _ _ => vaOk k b
  | .vmin _ _ b k _ _ => vaOk k b
  | .vmax _ _ b k _ _ => vaOk k b
  | .vminu _ _ b k _ _ => vaOk k b
  | .vmaxu _ _ b k _ _ => vaOk k b
  | .vsadd _ _ b k _ _ _ => vaOk k b
  | .vssub _ _ b k _ _ _ => vaOk k b
  | .vwadd _ _ b k _ _ _ => vaOk k b
  | .vwmul _ _ b k _ _ _ => vaOk k b
  | .vwmacc _ _ b k _ _ _ => vaOk k b
  | .vmerge _ _ b k _ => vaOk k b
  | .vcmp _ _ b k c _ => if c.toNat ≥ 6 then b = 0 && k = 0 else k = 1 || !b.msb
  | .vlds _ a _ _ _ => a.toNat % 2 = 0
  | .vsts _ a _ _ => a.toNat % 2 = 0
  | .vexp _ _ e _ _ => (-24 : Int) ≤ e.toInt && e.toInt ≤ 0
  | .mmag _ _ x _ _ => x.toNat % 2 = 0
  | .ecfg _ f _ _ => f.toNat ≤ 4 || (8 ≤ f.toNat && f.toNat ≤ 25)
  | .anstat _ s _ => s.toNat ≤ 3
  | .sviIntegerOp o => sviIntOk o
  | .sviLoadStore o => sviMemOk o
  | .sviMOp o => sviMulOk o
  | .sviVectorOp o => sviVecOk o
  | .agAmo h b a d => agAmoOk d b a h
  | .agAmoF h b a => agAmoOk 0 b a h
  | .agAmoN h b a => agAmoOk 0 b a h
  | .agDrainScope f => f.toNat ≠ 0 && f.toNat ≤ 5
  | .agCont i => i ≠ 0
  | .sviill _ => true
  | _ => true

end Sys2Proof
end

