-- ==== Sys2Proof/Machine/Ops.lean ====
section
/-! DEFINITION. The named operations over the state: units, registers, memory, addresses, translation, pushes of records,
the journal, fault records, taking a trap and returning from one. -/
namespace Sys2Proof.Machine

/-! ## Units -/

/-- Core k. -/
def core (s : State) (k : Nat) : Core := tget {} s.cores k
/-- The state with core k replaced. -/
def setCore (s : State) (k : Nat) (c : Core) : State := { s with cores := tset {} s.cores k c }
/-- The core whose turn it is. -/
def cur (s : State) : Core := core s s.cur
/-- The state with the current core replaced. -/
def setCur (s : State) (c : Core) : State := setCore s s.cur c
/-- The state with a function applied to core k. -/
def modCore (s : State) (k : Nat) (f : Core → Core) : State := setCore s k (f (core s k))
/-- The state with a function applied to the current core. -/
def modCur (s : State) (f : Core → Core) : State := setCur s (f (cur s))

/-- Die, global cluster number and cluster within its die of a package-wide core index (R16); 512 + 128 d stands for the requests of other
packages that enter at die d (R396). -/
def dieOf (k : Nat) : Nat := k / 128 % 4
def cluOf (k : Nat) : Nat := k / 8
def cluInDie (k : Nat) : Nat := k / 8 % 16

/-- Cluster c, numbered 16 × die + cluster. -/
def clu (s : State) (c : Nat) : Cluster := tget {} s.clus c
def setClu (s : State) (c : Nat) (x : Cluster) : State := { s with clus := tset {} s.clus c x }
/-- Context n. -/
def ctx (s : State) (n : Nat) : Ctx := tget {} s.ctxs n
def setCtx (s : State) (n : Nat) (x : Ctx) : State := { s with ctxs := tset {} s.ctxs n x }

/-- Doubleword j of context entry n; D0[21:16] reads the entry's number (R340). -/
def ctxD (s : State) (n j : Nat) : Word :=
  let d := tget 0 (ctx s n).d j
  if j = 0 then setFld d 16 6 n else d

/-- Doubleword j of the entry that a core loaded at dispatch (R340). -/
def entD (c : Core) (j : Nat) : Word := tget 0 c.ent j
/-- The entry that the checks of a core's addresses read: as loaded, with CLOWN and CLSW as they now stand (R343, R371). -/
def entNow (s : State) (c : Core) (j : Nat) : Word := if j = 9 ∨ j = 28 then ctxD s c.ctx j else entD c j

/-! ## Free values -/

/-- A free value of the present window, by index. -/
def freeN (s : State) (i : Nat) : Nat := Config.freeVal s.free i
/-- The state in which the free values used so far are not given again. -/
def bump (s : State) : State := { s with free := s.free + 1 }

/-! ## Memory: locations

A location is a physical address below 2^52; byte b of core k's scratchpad at 2^52 + k × 2^22 + b; offset o of die d's ring
at 2^53 + d × 2^28 + o. A byte that nothing has written reads as zero. 2^55 + 128 c stands for the sequencer of cluster c, the
home of event posts (R191); no byte lives there. -/

/-- Location of a scratchpad byte. -/
def spLoc (k b : Nat) : Nat := 2 ^ 52 + k * 2 ^ 22 + b
/-- Location of a die-ring byte. -/
def ringLoc (d o : Nat) : Nat := 2 ^ 53 + d * 2 ^ 28 + o
/-- The home of an event post to global cluster c (R191). -/
def evLoc (c : Nat) : Nat := 2 ^ 55 + 128 * c
/-- Location of offset o of the window of cluster cl of die d (R86). -/
def winLoc (d cl o : Nat) : Nat := spLoc (d * 128 + cl * 8 + o / 128 % 8) (0x200000 + o / 1024 * 128 + o % 128)

/-- The canonical form of memory: locations strictly rising, and no listed byte equal to what an unlisted location reads as. -/
def Memory.wf (m : List Host.Cell) : Bool := twf (0 : Byte) m

/-- One byte. -/
def rdB (s : State) (a : Nat) : Byte := tget 0 s.mem a
/-- One byte written. -/
def wrB (s : State) (a : Nat) (b : Byte) : State := { s with mem := tset 0 s.mem a b }

/-- n bytes at rising locations as a little-endian number (R89). -/
def rdMem (m : List Host.Cell) (a : Nat) : Nat → Nat
  | 0 => 0
  | n + 1 => (tget (0 : Byte) m a).toNat + 256 * rdMem m (a + 1) n

/-- n bytes of a number stored at rising locations (R89). -/
def wrMem (m : List Host.Cell) (a : Nat) : Nat → Nat → List Host.Cell
  | 0, _ => m
  | n + 1, v => wrMem (tset (0 : Byte) m a (BitVec.ofNat 8 v)) (a + 1) n (v / 256)

def rd (s : State) (a n : Nat) : Nat := rdMem s.mem a n
def wr (s : State) (a n v : Nat) : State := { s with mem := wrMem s.mem a n v }

/-- Bytes of a list stored at offsets from a location, in list order. -/
def wrList (m : List Host.Cell) (a : Nat) : List (Nat × Byte) → List Host.Cell
  | [] => m
  | (o, b) :: t => wrList (tset (0 : Byte) m (a + o) b) a t

/-- The n bytes of a number, as (offset, byte) pairs. -/
def bytesOf : Nat → Nat → Nat → List (Nat × Byte)
  | _, 0, _ => []
  | o, n + 1, v => (o, BitVec.ofNat 8 v) :: bytesOf (o + 1) n (v / 256)

/-- A 64-byte record at a location (R25). -/
def rdRec (s : State) (a : Nat) : Rec :=
  let w := fun i => BitVec.ofNat 64 (rd s (a + 8 * i) 8)
  ⟨w 0, w 1, w 2, w 3, w 4, w 5, w 6, w 7⟩

/-- The eight doublewords of a record. -/
def recWords (r : Rec) : List Word := [r.w0, r.w1, r.w2, r.w3, r.w4, r.w5, r.w6, r.w7]

/-- Doublewords stored at rising locations. -/
def wrWords (s : State) (a : Nat) : List Word → State
  | [] => s
  | w :: t => wrWords (wr s a 8 w.toNat) (a + 8) t

def wrRec (s : State) (a : Nat) (r : Rec) : State := wrWords s a (recWords r)

/-! ## Record fields (R25) -/

def Rec.pc (r : Rec) : Nat := fld r.w0 0 40
def Rec.preempt (r : Rec) : Bool := bit r.w0 40
def Rec.committed (r : Rec) : Bool := bit r.w0 41
def Rec.system (r : Rec) : Bool := bit r.w0 42
def Rec.stepped (r : Rec) : Bool := bit r.w0 43
def Rec.prio (r : Rec) : Nat := fld r.w0 48 2
def Rec.qid (r : Rec) : Nat := fld r.w0 50 6
def Rec.kind (r : Rec) : Nat := fld r.w0 56 8
def Rec.join (r : Rec) : Int := sextI (fld r.w2 0 16) 16
def Rec.group (r : Rec) : Nat := fld r.w2 16 8
def Rec.waitw (r : Rec) : Nat := fld r.w2 24 3
def Rec.setw (r : Rec) : Nat := fld r.w2 27 3
def Rec.slack (r : Rec) : Nat := fld r.w2 32 12
def Rec.saveix (r : Rec) : Nat := fld r.w2 44 20
def Rec.waitmask (r : Rec) : BitVec 32 := BitVec.ofNat 32 (fld r.w3 0 32)
def Rec.setmask (r : Rec) : BitVec 32 := BitVec.ofNat 32 (fld r.w3 32 32)
def Rec.setKind (r : Rec) (k : Nat) : Rec := { r with w0 := setFld r.w0 56 8 k }
def Rec.setPc (r : Rec) (pc : Nat) : Rec := { r with w0 := setFld r.w0 0 40 pc }
def Rec.setJoin (r : Rec) (j : Int) : Rec := { r with w2 := setFld r.w2 0 16 (j % 65536).toNat }
def Rec.setSaveix (r : Rec) (i : Nat) : Rec := { r with w2 := setFld r.w2 44 20 i }
def Rec.setCommitted (r : Rec) (b : Bool) : Rec := { r with w0 := setFld r.w0 41 1 (b2n b) }

/-- Cluster within its die and offset of a FRAME in space 0x6; global cluster number on die d (R28). -/
def frClu (f : Word) : Nat := fld f 24 4
def frOff (f : Word) : Nat := fld f 0 24
def frLoc (d : Nat) (f : Word) : Nat := winLoc d (frClu f) (frOff f)
/-- The core whose scratchpad holds a frame's slot (R86). -/
def frCore (d : Nat) (f : Word) : Nat := d * 128 + frClu f * 8 + frOff f / 128 % 8

/-! ## Scalar, predicate and vector registers of a core -/

/-- A pending result for scalar register d. -/
def pendX (c : Core) (d : Nat) : Bool := c.pend.any (fun p => match p.dst with | .x e _ => e = d | _ => false)
def pendV (c : Core) (d : Nat) : Bool := c.pend.any (fun p => match p.dst with | .v e _ => e = d | _ => false)
def pendSc (c : Core) (d : Nat) : Bool := c.pend.any (fun p => match p.dst with | .sc e _ => e = d | _ => false)
def pendSlk (c : Core) : Bool := c.pend.any (fun p => match p.dst with | .slk _ => true | _ => false)

/-- Scalar register d of the current core as a bundle reads it: x0 reads zero (R8), a result before its bound is an
undefined value (R126). -/
def rx (s : State) (d : Nat) : Word :=
  if d = 0 then 0
  else if pendX (cur s) d then BitVec.ofNat 64 (freeN s d)
  else tget 0 (cur s).x d

def rx6 (s : State) (d : BitVec 6) : Word := rx s d.toNat
def rx5 (s : State) (d : BitVec 5) : Word := rx s d.toNat

/-- Predicate j; p0 reads true (R124). -/
def rp (c : Core) (j : Nat) : Bool := j = 0 || bit c.p j

/-- Vector register d of the current core (R126). -/
def rv (s : State) (d : Nat) : VReg :=
  if pendV (cur s) d then BitVec.ofNat 4096 (freeN s (64 + d)) else tget 0 (cur s).v d

/-- The fields of a scale register: reserved bits read as zero (Tables 7 and 8 of chapter 03). -/
def scFields (r : ScReg) : ScReg := r &&& 0xFFFFFFFFFFF003FFFFF#128
/-- Scale register d of the current core (R73, R126). -/
def rsc (s : State) (d : Nat) : ScReg :=
  scFields (if pendSc (cur s) d then BitVec.ofNat 128 (freeN s (96 + d)) else tget 0 (cur s).sc d)

/-- SLK.VALUE as requests of the bundle see it (R96, R263). -/
def rslk (s : State) : Nat := if pendSlk (cur s) then freeN s 160 % 4096 else fld (cur s).slk 0 12

/-- The smoothing vector as a bundle reads it, undefined until its new value has come (R126, R243). -/
def rsm (s : State) : BitVec 512 :=
  if (cur s).pend.any (fun p => match p.dst with | .sm _ => true | _ => false) || (cur s).land.any (fun l => l.dst = .smooth) then
    BitVec.ofNat 512 (freeN s 161)
  else (cur s).smv

/-- SRSEED as a bundle reads it (R264). -/
def rseed (s : State) : BitVec 32 :=
  if (cur s).pend.any (fun p => match p.dst with | .seed _ => true | _ => false) then BitVec.ofNat 32 (freeN s 162) else (cur s).srseed

/-- The name of the register a pending result goes to: file and number. -/
def PDst.name : PDst → Nat × Nat
  | .x d _ => (0, d)
  | .v d _ => (1, d)
  | .sc d _ => (2, d)
  | .slk _ => (3, 0)
  | .sm _ => (4, 0)
  | .seed _ => (5, 0)

/-- The registers a landing entry writes: file and number (R90). -/
def LandDst.names : LandDst → List (Nat × Nat)
  | .x d _ _ => [(0, d)]
  | .pair d => [(0, d), (0, d + 1)]
  | .vec d eew ones els =>
    ((ones ++ els.map (fun e => e.1)).map (fun i => (1, d + i * eew / 4096))).dedup
  | .scale n _ => [(2, n)]
  | .smooth => [(4, 0)]
  | .tile _ _ => []
  | .btile _ _ => []

/-- The last core time at which an earlier write of register `nm` still is in flight (R128). -/
def inflight (c : Core) (nm : Nat × Nat) : Option Nat :=
  let a := (c.pend.filter (fun p => p.dst.name = nm)).map (·.ready)
  let b := (c.land.filter (fun l => l.dst.names.contains nm && !l.dead.contains nm.2)).map (·.at_)
  (a ++ b).foldl (fun m r => some (Nat.max r (m.getD 0))) none

/-- Earlier in-flight writes of register `nm` lose their value (R128). -/
def takeOver (c : Core) (nm : Nat × Nat) : Core :=
  { c with
    pend := c.pend.filter (fun p => p.dst.name ≠ nm)
    land := c.land.map (fun l => if l.dst.names.contains nm then { l with dead := nm.2 :: l.dead } else l) }

/-- A result put into its register at once. -/
def putNow (c : Core) : PDst → Core
  | .x d v => if d = 0 then c else { c with x := tset 0 c.x d v }
  | .v d r => { c with v := tset 0 c.v d r }
  | .sc d r => { c with sc := tset 0 c.sc d r }
  | .slk v => { c with slk := v }
  | .sm v => { c with smv := v }
  | .seed v => { c with srseed := v }

/-- A result with latency bound b (R126, R128): bound 1 with nothing in flight is in place for the next bundle. -/
def putAt (c : Core) (b : Nat) (d : PDst) : Core :=
  match inflight c d.name with
  | none => if b ≤ 1 then putNow c d else { c with pend := ⟨c.ctime + b, d⟩ :: c.pend }
  | some r => { takeOver c d.name with pend := ⟨Nat.max (c.ctime + b) r, d⟩ :: (takeOver c d.name).pend }

/-- A scalar result of the current core; writes of x0 are discarded (R124). -/
def wx (s : State) (b d : Nat) (v : Word) : State := if d = 0 then s else modCur s (putAt · b (.x d v))
def wv (s : State) (b d : Nat) (r : VReg) : State := modCur s (putAt · b (.v d r))
def wsc (s : State) (b d : Nat) (r : ScReg) : State := modCur s (putAt · b (.sc d r))

/-- A predicate result; writes of p0 are discarded (R124). -/
def wp (s : State) (d : Nat) (b : Bool) : State :=
  if d = 0 then s else modCur s (fun c => { c with p := setFld c.p d 1 (b2n b) })

/-- Due results go to their destinations (R126). -/
def expire (c : Core) : Core :=
  let due := (c.pend.filter (fun p => p.ready ≤ c.ctime)).reverse
  due.foldl (fun c p => putNow c p.dst) { c with pend := c.pend.filter (fun p => ¬ p.ready ≤ c.ctime) }

/-- A landed value for register nm: it replaces the value of a pending result that keeps the register undefined, and a
register taken over by a later write is left alone (R90, R128). -/
def landPut (c : Core) (dead : List Nat) (d : PDst) : Core :=
  if dead.contains d.name.2 then c
  else if c.pend.any (fun p => p.dst.name = d.name)
  then { c with pend := c.pend.map (fun p => if p.dst.name = d.name then { p with dst := d } else p) }
  else putNow c d

/-- The registers of a new landing entry: earlier writes in flight lose their value, and the register is undefined until
both times have passed (R128). -/
def claim (c : Core) (l : Landing) : Core :=
  l.dst.names.foldl (fun c nm =>
    match inflight c nm with
    | none => c
    | some r =>
      let c' := takeOver c nm
      let d : PDst := match nm.1 with
        | 0 => .x nm.2 0
        | 1 => .v nm.2 0
        | 2 => .sc nm.2 0
        | _ => .sm 0
      { c' with pend := ⟨Nat.max r l.at_, d⟩ :: c'.pend }) c

/-! ## Contexts of a core -/

/-- The task runs at system level; its emulation handlers run at user level (R338, R356). -/
def sysLevel (c : Core) : Bool := c.trec.system && !c.emuAct
/-- The ASID of the loaded entry. -/
def asidOf (c : Core) : Nat := if sysLevel c then 0 else fld (entD c 0) 0 16
/-- The arena a core fetches from: base and size (R347). -/
def arena (s : State) (c : Core) : Nat × Nat :=
  if sysLevel c then (fld s.hub.sysBase 0 52, fld s.hub.sysSize 0 41) else (fld (entD c 1) 0 52, fld (entD c 2) 0 41)

/-- The SVI image that a core runs: the pc lies in its translation (R307, R309). -/
def sviOf (s : State) (c : Core) : Option SviImg :=
  if sysLevel c then none
  else (tget [] s.svi c.ctx).find? (fun i => decide (i.off ≤ c.pc.toNat) && decide (c.pc.toNat < i.off + 8 * i.size))

/-- The SVI PC of a core in image i (R309). -/
def sviPc (i : SviImg) (c : Core) : Nat := (c.pc.toNat - i.off) / 8

/-- The arena offset that a fault record carries: the SVI PC in translated code (R318), else the PC. -/
def repOff (s : State) (c : Core) : Word :=
  match sviOf s c with
  | some i => BitVec.ofNat 64 (sviPc i c)
  | none => c.pc

/-- A fault as its record names it: translated code reports slot 0 (R318). -/
def repInfo (s : State) (c : Core) (i : FaultInfo) : FaultInfo := if (sviOf s c).isSome then { i with slot := 0 } else i

/-- The partition mode and whether die d lies in partition p (R345). -/
def inPart (s : State) (p d : Nat) : Bool :=
  match fld s.hub.partcfg 0 2 with
  | 0 => p = 0
  | 1 => d / 2 = p
  | 2 => d = p
  | _ => false

/-- Whether p names a partition of the current mode (R345). -/
def partOk (s : State) (p : Nat) : Bool :=
  match fld s.hub.partcfg 0 2 with
  | 0 => p = 0
  | 1 => p < 2
  | 2 => p < 4
  | _ => false

/-! ## Physical addresses and translation (R376 to R380) -/

/-- A mapped physical address lies in a range of Table 1 (R376). -/
def paOk (pa : Nat) : Bool :=
  match pa / 2 ^ 50 % 4 with
  | 0 => nfld pa 40 10 = 0 && nfld pa 0 38 < 0x2CB4178000
  | 1 => nfld pa 40 10 = 0
  | 2 => true
  | _ => false

/-- n bytes from a physical address on lie in one memory of Table 1, and in one die's HBM (R376). -/
def rangeOk (a n : Nat) : Bool := paOk a && paOk (a + n - 1) && decide (a / 2 ^ 38 = (a + n - 1) / 2 ^ 38 ∨ 2 ^ 50 ≤ a)

/-- A translation: physical base of the page, page size, permissions. -/
structure Xl where
  pa : Nat
  size : Nat
  r : Bool
  w : Bool
  cow : Bool
  deriving DecidableEq, Repr

/-- A walk or an access that stops: the code, the level of the walk (R378), and the physical address of an uncorrectable error (R428). -/
structure WFail where
  code : Code
  lvl : Nat
  pa : Nat
  deriving DecidableEq, Repr

/-- One leaf entry (R377, R378) at a level: every address of its page lies in the physical map (R376). -/
def leafXl (e : Word) (lvl size : Nat) : Except WFail Xl :=
  let pa := fld e 16 36 * 65536
  if fld e 6 10 ≠ 0 ∨ fld e 52 12 ≠ 0 ∨ (bit e 5 ∧ lvl ≠ 1) ∨ (bit e 3 ∧ (¬ bit e 2 ∨ bit e 4)) ∨ paOk pa = false ∨
      paOk (pa + size - 1) = false ∨ pa % size ≠ 0 then .error ⟨.ptebad, lvl, 0⟩
  else .ok ⟨pa, size, bit e 2, bit e 3, bit e 4⟩

/-- A non-leaf entry (R377, R378): the address of the next table. -/
def nodePa (e : Word) (lvl : Nat) : Except WFail Nat :=
  let pa := fld e 16 36 * 65536
  if fld e 6 10 ≠ 0 ∨ fld e 52 12 ≠ 0 ∨ fld e 2 4 ≠ 0 ∨ paOk pa = false ∨ paOk (pa + 65535) = false then .error ⟨.ptebad, lvl, 0⟩ else .ok pa

/-- The first word with an uncorrectable error among n bytes at location l (R428). -/
def errIn (s : State) (l n : Nat) : Option Nat := s.uecc.find? (fun w => decide (w < l + n) && decide (l < w + 8))

/-- A fault of code c is counted in ERRSTAT where it is an uncorrectable error (R429). -/
def countErr (s : State) (c : Code) : State :=
  if c = .uecc then { s with hub := { s.hub with errstat := setFld s.hub.errstat 32 16 (Nat.min (fld s.hub.errstat 32 16 + 1) 65535) } } else s

/-- What a record says of an uncorrectable error in the word at location w: the physical address, zero for state without one (R428). -/
def ueccFail (lvl w : Nat) : WFail := ⟨.uecc, lvl, if w < 2 ^ 52 then w else 0⟩

/-- A store of n bytes at l leaves no error in the words that it covers. -/
def errClear (s : State) (l n : Nat) : State :=
  if s.uecc.isEmpty then s else { s with uecc := s.uecc.filter (fun w => !(decide (l ≤ w) && decide (w + 8 ≤ l + n))) }

/-- A page-table entry as a walk reads it at a level (R378). -/
def pteRd (s : State) (a lvl : Nat) : Except WFail Word :=
  match errIn s a 8 with
  | some w => .error (ueccFail lvl w)
  | none => .ok (BitVec.ofNat 64 (rd s a 8))

/-- The walk of the page table at `root` for a 48-bit address (R377, R378), up to the permission rows. -/
def walk (s : State) (root : Word) (va : Nat) : Except WFail Xl :=
  let a3 := fld root 9 43 * 512 + 8 * nfld va 42 6
  if paOk a3 = false then .error ⟨.ptebad, 3, 0⟩
  else match pteRd s a3 3 with
  | .error f => .error f
  | .ok e3 =>
  if ¬ bit e3 0 then .error ⟨.pgnp, 3, 0⟩
  else if bit e3 1 then .error ⟨.ptebad, 3, 0⟩
  else match nodePa e3 3 with
  | .error f => .error f
  | .ok t2 =>
    match pteRd s (t2 + 8 * nfld va 29 13) 2 with
    | .error f => .error f
    | .ok e2 =>
    if ¬ bit e2 0 then .error ⟨.pgnp, 2, 0⟩
    else if bit e2 1 then leafXl e2 2 (2 ^ 29)
    else match nodePa e2 2 with
    | .error f => .error f
    | .ok t1 =>
      match pteRd s (t1 + 8 * nfld va 16 13) 1 with
      | .error f => .error f
      | .ok e1 =>
      if ¬ bit e1 0 then .error ⟨.pgnp, 1, 0⟩
      else if ¬ bit e1 1 then .error ⟨.ptebad, 1, 0⟩
      else leafXl e1 1 65536

/-- The level-1 entry of an address. -/
def l1Entry (s : State) (root : Word) (va : Nat) : Word :=
  let e3 := BitVec.ofNat 64 (rd s (fld root 9 43 * 512 + 8 * nfld va 42 6) 8)
  let e2 := BitVec.ofNat 64 (rd s (fld e3 16 36 * 65536 + 8 * nfld va 29 13) 8)
  BitVec.ofNat 64 (rd s (fld e2 16 36 * 65536 + 8 * nfld va 16 13) 8)

/-- The group of 32 entries of an address holds its declaration (R379). -/
def contHolds (s : State) (root : Word) (va : Nat) (x : Xl) : Bool :=
  let b := va / 2 ^ 21 * 2 ^ 21
  decide (x.size = 65536) && (List.range 32).all (fun i => match walk s root (b + 65536 * i) with
    | .ok y => decide (y.size = 65536) && bit (l1Entry s root (b + 65536 * i)) 5 && decide (y.r = x.r) && decide (y.w = x.w) &&
        decide (y.cow = x.cow) && decide (y.pa + (va / 65536 % 32) * 65536 = x.pa + 65536 * i) && decide ((y.pa - 65536 * i) % 2 ^ 21 = 0)
    | .error _ => false)

/-- The entry of TLB `place` that covers an address of a context under its present ASID and generation (R382). -/
def tlbIn (s : State) (place cx va : Nat) : Option TlbEnt :=
  s.tlb.find? (fun e => e.place = place && e.ctx = cx && e.gen = (ctx s cx).gen && e.asid.toNat = fld (ctxD s cx 0) 0 16 &&
    decide (e.va ≤ va) && decide (va < e.va + e.size))

/-- The TLB of global cluster n, as a place and as a view of translation. -/
def cluTlb (n : Nat) : Nat := 1024 + n

/-- The entry by which `view` finds a translation: core k looks in its micro-TLB, then in its cluster's TLB; a generator or a sequencer in its
cluster's; the hub and a request of another package hold none (R382). -/
def tlbFind (s : State) (view cx va : Nat) : Option TlbEnt :=
  if view < 512 then (tlbIn s view cx va).or (tlbIn s (cluTlb (cluOf view)) cx va) else tlbIn s view cx va

/-- The view of the hub and of requests that other packages have sent. -/
def noTlb : Nat := 2048

/-- The translation of an address of context cx: a TLB entry if one is held, else a walk (R382, R383). -/
def xlOf (s : State) (view cx : Nat) (root : Word) (va : Nat) : Except WFail Xl :=
  match tlbFind s view cx va with
  | some e => .ok ⟨e.pa, e.size, e.r, e.w, e.cow⟩
  | none => walk s root va

/-- Permission rows of R378, with atomics other than handler 0 and stores as writes (R380). -/
def permOf (x : Xl) (write : Bool) : Option Code :=
  if write then (if x.w then none else if x.cow then some .pgcow else some .permw)
  else if x.r then none else some .permr

/-- Translate one space 0x0 address of context cx: its physical address. -/
def xlate (s : State) (view cx : Nat) (root : Word) (va : Nat) (write : Bool) : Except WFail Nat :=
  match xlOf s view cx root va with
  | .error f => .error f
  | .ok x =>
    match permOf x write with
    | some c => .error ⟨c, if x.size = 2 ^ 29 then 2 else 1, 0⟩
    | none => .ok (x.pa + va % x.size)

/-! ## Addresses (R85 to R88, R343) -/

/-- The space of an address. -/
def spc (a : Word) : Nat := fld a 60 4

/-- The plan of a context; a context without a plan has a pod of one package (R400). -/
def planOf (s : State) (cx : Nat) : Plan := ((ctx s cx).plan).getD {}

/-- A space 0x5 address names another package than this one (R85, R400). -/
def offPackage (s : State) (cx : Nat) (a : Word) : Bool :=
  let p := planOf s cx
  spc a = 5 && !(fld a 56 4 = p.mx && fld a 52 4 = p.my && fld a 48 4 = p.mz)

/-- The must-be-zero bits and the pod coordinates (R85, R88, first two rows). -/
def spaceOk (s : State) (cx : Nat) (a : Word) : Bool :=
  match spc a with
  | 0 => fld a 48 12 = 0
  | 1 => fld a 21 39 = 0
  | 2 => fld a 24 36 = 0
  | 3 => fld a 28 32 = 0
  | 4 => fld a 30 30 = 0
  | 5 =>
    let p := planOf s cx
    fld a 56 4 < p.dx && fld a 52 4 < p.dy && fld a 48 4 < p.dz
  | 6 => fld a 28 32 = 0
  | _ => false

/-- The ring offset lies below 192 MiB (R88, third row). -/
def ringOk (a : Word) : Bool := if spc a = 3 ∨ spc a = 4 then fld a 0 28 < 0xC000000 else true

/-- n bytes at offset o lie in units base to base + size - 1 of u bytes (R343). -/
def inUnits (o n base size u : Nat) : Bool := base * u ≤ o && o + n ≤ (base + size) * u

/-- The allotment row of R88 for n bytes, as core k with entry words `e` sees them (R343). -/
def allotOk (s : State) (k : Nat) (e : Nat → Word) (a : Word) (n : Nat) : Bool :=
  match spc a with
  | 1 => inUnits (fld a 0 21) n (fld (e 6) 0 5) (fld (e 6) 6 6) 65536
  | 2 => inUnits (fld a 0 24) n (fld (e 7) 0 8) (fld (e 7) 8 9) 65536
  | 3 => inUnits (fld a 0 28) n (fld (e 8) 0 8) (fld (e 8) 8 8) 1048576
  | 4 => inUnits (fld a 0 28) n (fld (e 8) 0 8) (fld (e 8) 8 8) 1048576 && inPart s (fld (e 0) 25 2) (fld a 28 2)
  | 6 => inUnits (fld a 0 24) n (fld (e 7) 0 8) (fld (e 7) 8 9) 65536 && bit (e 9) (16 * dieOf k + fld a 24 4)
  | _ => true

/-- Where a checked address leads: a location, or another package (space 0x5, translated on its target). -/
inductive Where where
  | loc (l : Nat)
  | far
  deriving DecidableEq, Repr

/-- A failed address check: code and walk level. -/
abbrev AFail := WFail

/-- The location of an address outside spaces 0x0 and 0x5, as core k sees it (R85 to R87). -/
def chipLoc (k : Nat) (a : Word) : Nat :=
  match spc a with
  | 1 => spLoc k (fld a 0 21)
  | 2 => winLoc (dieOf k) (cluInDie k) (fld a 0 24)
  | 3 => ringLoc (dieOf k) (fld a 0 28)
  | 4 => ringLoc (fld a 28 2) (fld a 0 28)
  | _ => winLoc (dieOf k) (fld a 24 4) (fld a 0 24)

/-- The rows of R88 in order for n bytes at `a`, aligned to `al`, as core k sees them in context cx with entry words `e`. -/
def addrRows (s : State) (k cx : Nat) (e : Nat → Word) (a : Word) (n al : Nat) : Option Code :=
  if spaceOk s cx a = false then some .addrspace
  else if ringOk a = false then some .bound
  else if allotOk s k e a n = false then some .bound
  else if a.toNat % al ≠ 0 then some .align
  else none

/-- Translation and permission of R378 for an address that has passed the rows of R88. -/
def addrXl (s : State) (k cx : Nat) (e : Nat → Word) (a : Word) (write : Bool) : Except AFail Where :=
  match spc a with
  | 0 =>
    match xlate s k cx (e 5) (fld a 0 48) write with
    | .error f => .error f
    | .ok p => .ok (.loc p)
  | 5 => .ok .far
  | _ => .ok (.loc (chipLoc k a))

/-- The checks of R88 in order, then translation and permission of R378. -/
def addrCheck (s : State) (k cx : Nat) (e : Nat → Word) (a : Word) (n al : Nat) (write : Bool) : Except AFail Where :=
  match addrRows s k cx e a n al with
  | some c => .error ⟨c, 0, 0⟩
  | none => addrXl s k cx e a write

/-- The rows of R88, the translation, and the whole check, for the current core. -/
def chkRows (s : State) (a : Word) (n al : Nat) : Option Code := addrRows s s.cur (cur s).ctx (entNow s (cur s)) a n al
def chkXl (s : State) (a : Word) (write : Bool) : Except AFail Where := addrXl s s.cur (cur s).ctx (entNow s (cur s)) a write
def chk (s : State) (a : Word) (n al : Nat) (write : Bool) : Except AFail Where :=
  addrCheck s s.cur (cur s).ctx (entNow s (cur s)) a n al write

/-- The location of an address that has passed its check (zero where it has none). -/
def locOf (s : State) (a : Word) (n : Nat) (write : Bool) : Nat :=
  match chk s a n 1 write with
  | .ok (.loc l) => l
  | _ => 0

/-- The scope within which the home of a location lies, as core k sees it (R100, Table 5 of chapter 04): 0 core, 1 cluster,
2 die, 3 package, 4 system. -/
def homeScope (k l : Nat) : Nat :=
  if l ≥ 2 ^ 55 then
    let c := (l - 2 ^ 55) / 128
    if c = cluOf k then 1 else if c / 16 = dieOf k then 2 else 3
  else if l ≥ 2 ^ 53 then (if (l - 2 ^ 53) / 2 ^ 28 = dieOf k then 2 else 3)
  else if l ≥ 2 ^ 52 then
    let h := (l - 2 ^ 52) / 2 ^ 22
    if h = k then 0 else if h / 8 = k / 8 then 1 else if h / 128 = k / 128 then 2 else 3
  else match l / 2 ^ 50 % 4 with
    | 0 => if nfld l 38 2 = dieOf k then 2 else 3
    | 1 => 3
    | _ => 4

/-- The scope of a request's home; a request without a location goes to another package (R100). -/
def reqScope (r : Req) : Nat := match r.loc with | none => 4 | some l => homeScope r.core l

/-- The nominal delay of an address for slack (R93, Table 4 of chapter 04); `l` is its location. -/
def nominal (a : Word) (l : Nat) : Nat :=
  match spc a with
  | 1 => 4
  | 2 => 28
  | 6 => 28
  | 3 => 96
  | 4 => 216
  | 5 => 2000
  | _ => match l / 2 ^ 50 % 4 with
    | 0 => 480
    | 1 => 1100
    | _ => 4000

/-! ## Time (R90, R129, R133, R134) -/

/-- A field that saturates at its maximum. -/
def satAdd {n : Nat} (x : BitVec n) (lo len : Nat) : BitVec n :=
  if fld x lo len + 1 < 2 ^ len then setFld x lo len (fld x lo len + 1) else x

/-- A ccy in which the core is not frozen. -/
def tick (c : Core) : Core := { c with ctime := c.ctime + 1, wtime := c.wtime + 1, oclk := c.oclk + 1, frz := 0 }
/-- A late-data freeze ccy. -/
def frzLate (c : Core) : Core := { c with wtime := c.wtime + 1, frzstat := satAdd c.frzstat 0 21, frz := c.frz + 1 }
/-- A busy freeze ccy: occupancies run on (R133). -/
def frzBusy (c : Core) : Core :=
  { c with wtime := c.wtime + 1, oclk := c.oclk + 1, frzstat := satAdd c.frzstat 21 21, frz := c.frz + 1 }
/-- An Annealer freeze ccy: the issue counts once in DENIES (R246). -/
def frzDeny (c : Core) : Core :=
  { c with
    wtime := c.wtime + 1
    frzstat := satAdd c.frzstat 42 21
    frz := c.frz + 1
    denied := true
    denies := if c.denied then c.denies else sat16 (c.denies + 1) }

/-- Slot j is occupied (R129). -/
def occupied (c : Core) (j : Nat) : Bool := c.oclk < tget 0 c.occ j

/-- A busy mark still holds: its wall ccy has not come, or its landing entry has not been written (R130, R239). -/
def Busy.holds (c : Core) (b : Busy) : Bool :=
  match b.land with
  | some l => c.land.any (fun e => e.id = l)
  | none => c.wtime < b.wall

/-- Resource r is busy; with `mm` the C tile of an earlier matrix instruction is exempt (R239). -/
def resBusy (c : Core) (mm : Bool) (r : Res) : Bool := c.busy.any (fun b => b.res = r && !(mm && b.mm) && b.holds c)

/-- The budget-table entry of an operating point: STEP above BUDGET (R423, R424, Table 5 of chapter 20). -/
def budgetOf (s : State) (op : Nat) : Word :=
  let dflt := (#[(320, 64), (448, 128), (576, 128), (704, 192), (832, 192), (960, 256), (1024, 256), (1024, 256)] :
    Array (Nat × Nat)).getD op (576, 128)
  let e := tget 0 s.hub.budget op
  if e = 0 then BitVec.ofNat 64 (dflt.1 + 65536 * dflt.2) else BitVec.ofNat 64 (e.toNat % 2 ^ 32)

/-- BUDGET and STEP as the Annealer reads them (R244). -/
def budgetN (a : Word) : Nat := Nat.min (fld a 0 16) 1024
def stepN (a : Word) : Nat := if fld a 16 16 = 0 then 65535 else fld a 16 16

/-- The first ccy of a window (R245), with ANCFG loaded from the current entry (R424). -/
def windowStep (s : State) (c : Core) : Core :=
  let a := budgetOf s s.hub.op.toNat
  let pay := Nat.min c.debt c.al
  { c with ancfg := a, debt := c.debt - pay, used := pay, al := Nat.min (budgetN a) (pay + stepN a), window := c.window + 1 }

/-- A window boundary is due (R245). -/
def windowDue (c : Core) : Bool := c.window < c.wtime / 64

/-! ## The journal (R411, R412) -/

/-- A new journal entry in its hub slot. -/
def journal (s : State) (kind code q cx : Nat) (tag : BitVec 16) (arg : Word) : State :=
  let n := s.hub.jseq + 1
  let j1 := BitVec.ofNat 64 (kind + code * 2 ^ 8 + q * 2 ^ 24 + cx * 2 ^ 38 + tag.toNat * 2 ^ 44)
  let e : JEnt := ⟨BitVec.ofNat 64 n, j1, BitVec.ofNat 64 s.hub.ticks, arg⟩
  { s with hub := { s.hub with jseq := n, journal := (e :: s.hub.journal).take 4096 } }

/-- The numbers of Table 7 of chapter 17 (R391). -/
def Code.num : Code → Nat
  | .undef => 0x01 | .priv => 0x02 | .codebnd => 0x03 | .pcalign => 0x04 | .addrspace => 0x05 | .bound => 0x06
  | .align => 0x07 | .pgnp => 0x08 | .ptebad => 0x09 | .permr => 0x0A | .permw => 0x0B | .pgcow => 0x0C | .uecc => 0x0D
  | .frzto => 0x0E | .trap => 0x0F | .bkpt => 0x10 | .emustate => 0x11 | .emulnest => 0x12 | .sviill => 0x13
  | .loopnest => 0x14 | .loopbody => 0x15 | .joinovf => 0x16 | .joinpend => 0x17 | .joinuf => 0x18 | .accheld => 0x19
  | .accbank => 0x1A | .accfull => 0x1B | .accfree => 0x1C | .recbad => 0x1D | .framebad => 0x1E | .qovf => 0x1F
  | .qspflt => 0x20 | .amobad => 0x21 | .evperm => 0x22 | .tilearg => 0x23 | .mmaarg => 0x24 | .mmafmt => 0x25
  | .ragged => 0x26 | .scfmt => 0x27 | .scidx => 0x28 | .scarg => 0x29 | .vconfig => 0x2A | .vreg => 0x2B | .ecfg => 0x2C
  | .qbind => 0x2D | .qfmt => 0x2E | .groupmem => 0x2F | .publen => 0x30 | .tiwop => 0x31 | .tiwlevel => 0x32
  | .tiwflag => 0x33 | .tiwbad => 0x34 | .tiwgrp => 0x35 | .tiwexp => 0x36 | .descbad => 0x37 | .descdim => 0x38
  | .descfmt => 0x39 | .stage => 0x3A | .groupbad => 0x3B | .groupov => 0x3C | .lrecbad => 0x3D | .saveflt => 0x3E
  | .cmdpriv => 0x100 | .cmdbad => 0x101 | .ctxbusy => 0x102 | .ctxbad => 0x103 | .clbusy => 0x104 | .qroom => 0x105
  | .timeout => 0x106 | .savefull => 0x107 | .stopfail => 0x108 | .nofault => 0x109 | .commit => 0x10A
  | .lqovf => 0x200 | .fltovf => 0x201
  | .pubenc => 0x110 | .pubsys => 0x111 | .pubtgt => 0x112 | .pubread => 0x113 | .pubfull => 0x114

/-! ## Fault records (R363, R388 to R390) -/

/-- A launch in flight is marked failed with its first fault code (R363). -/
def failLaunch (s : State) (tag : BitVec 16) (c : Code) : State :=
  { s with hub := { s.hub with launches := s.hub.launches.map (fun l =>
      if l.tag = tag ∧ l.failed = none then { l with failed := some c } else l) } }

/-- One record written into the ring at entry `tail` (R390). -/
def ringPut (s : State) (base log2n tail : Nat) (r : FaultRec) : State :=
  let a := base + 128 + 128 * (tail % 2 ^ log2n)
  let s := wrWords s a r.g
  let s := (r.links.take 4).zipIdx.foldl (fun s e => wr s (a + 64 + 16 * e.2) 16 e.1.toNat) s
  wr s (base + 8) 4 ((tail + 1) % 2 ^ 32)

/-- The ring has room (R390). -/
def FRing.room (f : FRing) : Bool := f.log2n ≠ 0 && (f.tail + 2 ^ 32 - f.head) % 2 ^ 32 < 2 ^ f.log2n

/-- A fault record goes to the context's ring, waits in the hub, or is dropped and counted (R390). -/
def putFault (s : State) (cx : Nat) (r : FaultRec) : State :=
  let x := ctx s cx
  let f := x.fr
  if f.wait = [] ∧ f.room then
    let s := ringPut s f.base f.log2n f.tail r
    setCtx s cx { x with fr := { f with tail := (f.tail + 1) % 2 ^ 32, ovfl := false } }
  else if r.stopping ∨ f.wait.length < 256 then
    setCtx s cx { x with fr := { f with wait := f.wait ++ [r] } }
  else
    let s := if f.log2n = 0 then s else wr s (f.base + 16) 4 ((f.lost + 1) % 2 ^ 32)
    let s := setCtx s cx { x with fr := { f with lost := f.lost + 1, ovfl := true } }
    if f.ovfl then s else journal s 5 Code.fltovf.num 0 cx 0 0

/-- The doublewords of a fault record (R390, Table 6 of chapter 17). -/
def faultWords (i : FaultInfo) (cx : Nat) (committed stopped emu : Bool) (k qid : Nat) (tag : BitVec 16) (frame : Word)
    (aoff nlink wtime : Nat) : List Word :=
  [ BitVec.ofNat 64 (i.code.num + cx * 2 ^ 16 + i.prec * 2 ^ 22 + b2n committed * 2 ^ 24 + b2n stopped * 2 ^ 25 +
      b2n emu * 2 ^ 26 + i.level % 8 * 2 ^ 27 + k % 512 * 2 ^ 32 + qid % 4 * 2 ^ 41 + tag.toNat * 2 ^ 48),
    frame,
    BitVec.ofNat 64 (aoff % 2 ^ 40 + i.slot % 8 * 2 ^ 40 + i.engine % 16 * 2 ^ 43 + i.ecmd % 65536 * 2 ^ 48),
    i.estat, i.addr,
    BitVec.ofNat 64 (i.acc % 4 + i.space % 16 * 4 + i.wlvl % 4 * 2 ^ 6 + nlink * 2 ^ 8),
    BitVec.ofNat 64 i.pa, BitVec.ofNat 64 wtime ]

/-- A fault of a task of core k is recorded (R388 to R390) and fails its launch (R363). -/
def report (s : State) (k : Nat) (i : FaultInfo) (stopped : Bool) (off : Word) (links : List (BitVec 128)) : State :=
  let c := core s k
  let r : FaultRec :=
    { g := faultWords i c.ctx c.trec.committed stopped c.emuAct k c.trec.qid c.ltag c.trec.w1 (fld off 0 40) links.length
        c.wtime
      links := links, stopping := stopped }
  putFault (failLaunch s c.ltag i.code) c.ctx r

/-- A fault that belongs to a context and not to a task on a core (R388), of queue `qid` where it concerns one. -/
def reportCtx (s : State) (cx : Nat) (i : FaultInfo) (tag : BitVec 16) (frame : Word) (qid : Nat) (links : List (BitVec 128)) : State :=
  let r : FaultRec := { g := faultWords i cx false false false 0 qid tag frame 0 links.length s.hub.ticks, links := links }
  putFault (failLaunch s tag i.code) cx r

/-- A context fault about a record in its slot or in a queue (R388): it names the record's frame, queue and COMMITTED. -/
def reportRec (s : State) (cx : Nat) (i : FaultInfo) (tag : BitVec 16) (t : Rec) : State :=
  let r : FaultRec := { g := faultWords i cx t.committed false false 0 t.qid tag t.w1 0 0 s.hub.ticks, links := [] }
  putFault (failLaunch s tag i.code) cx r

/-! ## Traps (R136 to R139, R389) -/

/-- The conditions of R136 for a trap or an interrupt. -/
def quiet (c : Core) : Bool :=
  c.pend.isEmpty && c.land.isEmpty && !c.busy.any (·.holds c) && !(List.range 8).any (occupied c)

/-- Queue q of cluster n is frozen, once more (R389). -/
def freezeQ (s : State) (n q : Nat) : State := setClu s n { clu s n with frz := q :: (clu s n).frz }
/-- One reason to keep queue q of cluster n frozen is gone. -/
def thawQ (s : State) (n q : Nat) : State := setClu s n { clu s n with frz := (clu s n).frz.erase q }

/-- The global number of the cluster a task's record belongs to (R28). -/
def homeClu (k : Nat) (f : Word) : Nat := 16 * dieOf k + frClu f

/-- A state command names core k (R365, R371, R374). -/
def cmdNames (s : State) (m : Cmd) (k : Nat) : Bool :=
  let inMask := fun (mask : Nat) => decide (fld m.op0 8 2 = dieOf k) && mask.testBit (cluInDie k)
  match m.cmd with
  | 7 => inMask (fld m.op1 0 16)
  | 8 => inMask (fld m.op0 16 16)
  | 0xA => bit (ctxD s (fld m.op0 0 6) 9) (cluOf k)
  | _ => false

/-- A SWOUT or STOP in progress names core k: a task that stops there is written back (R371, R374, R394). -/
def awayAsked (s : State) (k : Nat) : Bool := s.hub.cmds.any (fun m => (decide (m.cmd = 8) || decide (m.cmd = 0xA)) && cmdNames s m k)

/-- The code of a fault after which a task cannot be resumed (R393, R428). -/
def Code.fatal (c : Code) : Bool := c = .uecc || c = .frzto

/-- TAKING A TRAP: the fault record is written, where it has not been, the task stops with its resume PC, and its queue freezes (R137, R389). The
first issue after a breakpoint's stop ignores the comparators (R353). -/
def takeTrap (s : State) (k : Nat) (t : Trap) (links : List (BitVec 128)) : State :=
  let s := if t.told then s else report s k t.info true t.off (t.links ++ links)
  let s := modCore s k (fun c =>
    { c with
      run := .stopped, ended := decide (c.run = .ending), trap := none, wait := .none, mwait := .none, frz := 0
      lost := c.lost || t.info.code.fatal
      pc := if t.next then c.resume else c.pc
      resume := if t.next then c.resume else c.pc
      pre := if c.pre = .none then .none else if awayAsked s k then .taking else .held
      skipBk := decide (t.info.code = .bkpt) && !t.next })
  freezeQ s (homeClu k (core s k).trec.w1) (core s k).trec.qid

/-- A trap of core k waits for R136. Its record is written when the fault is found, so that records stand in the order of detection (R394). -/
def pendTrap (s : State) (k : Nat) (t : Trap) : State :=
  modCore (report s k t.info true t.off t.links) k (fun c => { c with trap := some { t with told := true } })

/-- A trap of the current core: taken at once when R136 holds, else it waits for R136. -/
def raiseTrap (s : State) (t : Trap) : State := if quiet (cur s) then takeTrap s s.cur t [] else pendTrap s s.cur t

/-- RETURN FROM A TRAP: the stopped task goes on at its resume PC, and its queue loses one reason to be frozen
(R389, R392). -/
def resumeTask (s : State) (k : Nat) : State :=
  let s := thawQ s (homeClu k (core s k).trec.w1) (core s k).trec.qid
  modCore s k (fun c => { c with run := if c.ended then .ending else .running, ended := false, lost := false, pc := c.resume })

/-- EMULATION ENTRY: the record is written, the handler starts, and the failing slots are remembered (R355). -/
def emuEnter (s : State) (k : Nat) (b : Bundle) (mask : BitVec 8) : State :=
  let c := core s k
  let a := spLoc k (fld (entD c 11) 0 21)
  let s := wr s a 32 b.toNat
  let s := wr s (a + 32) 8 c.pc.toNat
  let s := wr s (a + 40) 24 mask.toNat
  modCore s k (fun c =>
    { c with
      emuAct := true, emuMask := mask, epc := c.pc, pc := BitVec.ofNat 64 (fld (entD c 10) 0 40), wait := .none, frz := 0, skipBk := false })

/-- EMULATION RETURN: the bundle at EPC issues again with the slots of MASK nullified (R357). -/
def emuLeave (c : Core) : Core := { c with emuAct := false, pc := c.epc }

/-! ## Pushing records (R26 to R46) -/

/-- Ready queue q of a cluster. -/
def rqOf (c : Cluster) (q : Nat) : List Rec := tget [] c.rq q
def ringOf (c : Cluster) (q : Nat) : Ring := tget {} c.ring q

/-- Entries of a ring: 0 for a disabled one (R43). -/
def Ring.cap (r : Ring) : Nat :=
  let l := fld r.size 0 5
  if 6 ≤ l ∧ l ≤ 20 then 2 ^ l else 0
/-- Records in a ring (R43). -/
def Ring.cnt (r : Ring) : Nat := (fld r.tail 0 32 + 2 ^ 32 - fld r.head 0 32) % 2 ^ 32

/-- The location of ring entry n of global cluster `cl`, translated in context cx (R46). -/
def ringEnt (s : State) (cx cl : Nat) (r : Ring) (n : Nat) (write : Bool) : Except WFail Nat :=
  if r.cap = 0 then .error ⟨.qspflt, 0, 0⟩
  else xlate s (cluTlb cl) cx (ctxD s cx 5) (nfld (r.base.toNat + 64 * (n % r.cap)) 0 48) write

/-- What a push finds (R37, R46). -/
inductive PushRes where
  | ok (s : State)
  | fail (c : Code)

/-- A new ccy begins. -/
def newCcy (s : State) : State := { s with ccy := s.ccy + 1 }

/-- Pushes of one ccy come in the order of R44: `key` is the core of a `qpush`, 512 + the home core of a wake or a `cont`, 1024 for a launch.
A push out of that order belongs to a later ccy. -/
def pushOrder (s : State) (n key : Nat) : State :=
  if (clu s n).pushCcy = s.ccy ∧ key < (clu s n).pushKey then
    let s := newCcy s
    if key < 512 then modCore s key (fun c => { c with lastCcy := s.ccy }) else s
  else s

/-- A push of a record into its queue of global cluster n, by context cx (R37). -/
def pushQ (s : State) (cx n key : Nat) (r : Rec) : PushRes :=
  let s := pushOrder s n key
  let c := { clu s n with pushCcy := s.ccy, pushKey := key }
  let q := r.qid % 4
  let g := ringOf c q
  if (rqOf c q).length < 32 ∧ g.cnt = 0 then .ok (setClu s n { c with rq := tset [] c.rq q (rqOf c q ++ [r]) })
  else if g.cap = 0 ∨ g.cnt ≥ g.cap then .fail .qovf
  else match ringEnt s cx n g (fld g.tail 0 32) true with
    | .error _ => .fail .qspflt
    | .ok a =>
      let s := wrRec s a r
      .ok (setClu s n { c with ring := tset {} c.ring q { g with tail := BitVec.ofNat 64 ((fld g.tail 0 32 + 1) % 2 ^ 32) } })

/-- The switch image of global cluster n in context cx, if it is switched out (R371): address of its 0th byte; the table holds that plus 1. -/
def swImage (s : State) (cx n : Nat) : Option Nat :=
  let a := tget 0 (ctx s cx).sw n
  if a = 0 then none else some (a - 1)

/-- The ring registers at a location of a switch image (Table 7 of chapter 16). -/
def imgRing (s : State) (b : Nat) : Ring :=
  ⟨BitVec.ofNat 64 (rd s b 8), BitVec.ofNat 64 (rd s (b + 8) 8), BitVec.ofNat 64 (rd s (b + 16) 8), BitVec.ofNat 64 (rd s (b + 24) 8)⟩

/-- A push to a switched-out cluster goes to the ring tail kept in the image (R371). -/
def pushImg (s : State) (cx n img : Nat) (r : Rec) : PushRes :=
  let b := img + 32 + 32 * (r.qid % 4)
  let g := imgRing s b
  if g.cap = 0 ∨ g.cnt ≥ g.cap then .fail .qovf
  else match ringEnt s cx n g (fld g.tail 0 32) true with
    | .error _ => .fail .qspflt
    | .ok a => .ok (wr (wrRec s a r) (b + 24) 8 ((fld g.tail 0 32 + 1) % 2 ^ 32))

/-- The push of a record by its frame's cluster, switched out or not. -/
def pushRec (s : State) (cx n key : Nat) (r : Rec) : PushRes :=
  match swImage s cx n with
  | some img => pushImg s cx n img r
  | none => pushQ s cx n key r

/-- Queue q of global cluster n is frozen for context cx: in the switch image where the cluster is switched out (R37, R371). -/
def freezeOf (s : State) (cx n q : Nat) : State :=
  if (swImage s cx n).isSome then setCtx s cx { ctx s cx with swFrz := (n, q) :: (ctx s cx).swFrz } else freezeQ s n q

/-- A push by hardware other than `qpush`: its failure is a context fault, the queue freezes and the record stays in its
slot (R37, R46). -/
def pushHw (s : State) (cx n key : Nat) (tag : BitVec 16) (r : Rec) : State :=
  match pushRec s cx n key r with
  | .ok s => s
  | .fail c => freezeOf (reportRec s cx { code := c, prec := 2, engine := 10, addr := r.w1 } tag r) cx n (r.qid % 4)

/-- The offset of window offset `o` in the MEM bytes of a switch image (Table 7 of chapter 16). -/
def imgOff (e : Nat → Word) (o : Nat) : Nat :=
  256 + 8 * fld (e 6) 6 6 * 65536 + (o - fld (e 7) 0 8 * 65536)

/-- Where the bytes of a frame stand: its window, or the switch image of its cluster (R371). -/
def frameHome (s : State) (cx d : Nat) (f : Word) : Nat :=
  match swImage s cx (16 * d + frClu f) with
  | some img => img + imgOff (ctxD s cx) (frOff f)
  | none => frLoc d f

/-- A report-only fault of an effect of a committed bundle: the record names the issuing task by its FRAME, and its bundle (R140, R388). -/
def reportLate (s : State) (k cx : Nat) (tag : BitVec 16) (frame off : Word) (i : FaultInfo) (links : List (BitVec 128)) : State :=
  let t := rdRec s (frameHome s cx (dieOf k) frame)
  let c := core s k
  let r : FaultRec :=
    { g := faultWords i cx t.committed false (c.emuAct && decide (c.trec.w1 = frame)) k t.qid tag frame (fld off 0 40) links.length
        c.wtime
      links := links }
  putFault (failLaunch s tag i.code) cx r

/-- A JOIN DECREMENT of the record slot of a frame on die d (R36, R39, Table 4 of chapter 02). -/
def joinDec (s : State) (cx d : Nat) (f : Word) : State :=
  let a := frameHome s cx d f
  let r := rdRec s a
  let tag := BitVec.ofNat 16 (rd s (a + 64) 2)
  if r.kind = 3 then wrRec s a (r.setJoin (r.join - 1))
  else if r.join = 0 then reportRec s cx { code := .joinuf, prec := 2, engine := 9, addr := f } tag { r with w1 := f }
  else
    let r' := r.setJoin (r.join - 1)
    let s := wrRec s a r'
    if r'.join = 0 then pushHw s cx (16 * d + frClu f) (512 + frCore d f) tag r' else s

/-- The frame rules of R28 for a FRAME in space 0x6 on die d, seen with entry words `e`; a switched-out cluster is
accepted (R371). -/
def frameOk (e : Nat → Word) (d : Nat) (f : Word) : Bool :=
  f ≠ 0 && spc f = 6 && fld f 28 32 = 0 && fld f 0 7 = 0 && inUnits (frOff f) 128 (fld (e 7) 0 8) (fld (e 7) 8 9) 65536 &&
    (bit (e 9) (16 * d + frClu f) || bit (e 28) (16 * d + frClu f))

/-- FRAME of space 0x2 rewritten to space 0x6 of core k's cluster (R28). DESIGN CHOICE (log entry 63): bits [27:24] of the given FRAME are
overwritten. -/
def frameCanon (k : Nat) (f : Word) : Word :=
  if spc f = 2 then setFld (setFld f 60 4 6) 24 4 (cluInDie k) else f

/-- The checks of R26 in the order of Table 2, for a record whose FRAME is canonical. DESIGN CHOICE (log entry 80): a record that breaks several rows
gives the first in that order, though R130 names PRIV before them. -/
def recCheck (e : Nat → Word) (d : Nat) (user : Bool) (r : Rec) : Option Code :=
  if fld r.w0 44 4 ≠ 0 ∨ fld r.w2 30 2 ≠ 0 ∨ fld r.w4 48 16 ≠ 0 ∨ r.kind ≥ 3 ∨ r.qid ≥ 4 ∨ fld r.w0 0 5 ≠ 0 then some .recbad
  else if r.join < 0 then some .recbad
  else if user ∧ (r.kind = 2 ∨ r.saveix ≠ 0) then some .recbad
  else if frameOk e d r.w1 = false then some .framebad
  else if user ∧ (r.system ∨ r.committed ∨ r.stepped) then some .priv
  else none

/-- The frame header of a pushed record: LTAG and CTX (R29). -/
def frameHdr (s : State) (a : Nat) (tag : BitVec 16) (cx : Nat) : State := wr (wr s (a + 64) 2 tag.toNat) (a + 66) 1 cx

/-- A function applied to the live records of the launch of a tag, or to those of context cx's launches that have ended where there is none
(R50, R363). -/
def onRecs (s : State) (tag : BitVec 16) (cx : Nat) (f : List (Nat × Word) → List (Nat × Word)) : State :=
  if s.hub.launches.any (fun l => decide (l.tag = tag)) then
    { s with hub := { s.hub with launches := s.hub.launches.map (fun l => if l.tag = tag then { l with recs := f l.recs } else l) } }
  else { s with hub := { s.hub with
      orphans := s.hub.orphans.filter (fun e => decide (e.1 ≠ cx)) ++
        (f ((s.hub.orphans.filter (fun e => decide (e.1 = cx))).map (·.2))).map (fun e => (cx, e)) } }

/-- One more, one fewer live record of a launch: global cluster and FRAME (R50). -/
def liveAdd (s : State) (tag : BitVec 16) (cx n : Nat) (f : Word) : State := onRecs s tag cx (fun l => l ++ [(n, f)])
def liveDel (s : State) (tag : BitVec 16) (cx n : Nat) (f : Word) : State := onRecs s tag cx (fun l => l.erase (n, f))

/-! ## Launch queues (R359, R360) -/

def lqOf (s : State) (q : Nat) : LaunchQ := tget {} s.hub.lq q
def setLq (s : State) (q : Nat) (x : LaunchQ) : State := { s with hub := { s.hub with lq := tset {} s.hub.lq q x } }
def LaunchQ.log2n (x : LaunchQ) : Nat := fld x.cfg 0 5
def LaunchQ.weight (x : LaunchQ) : Nat := Nat.max 1 (fld x.cfg 5 8)
def LaunchQ.ctx (x : LaunchQ) : Nat := fld x.cfg 13 6
def LaunchQ.sysq (x : LaunchQ) : Bool := bit x.cfg 19
def LaunchQ.en (x : LaunchQ) : Bool := bit x.cfg 20 && decide (1 ≤ x.log2n) && decide (x.log2n ≤ 16)
/-- Pending records (R360). -/
def LaunchQ.pending (x : LaunchQ) : Nat := (x.tail - x.head).toNat

/-- A hub address: physical, or of space 0x0 in a context (R359). -/
def hubLoc (s : State) (phys : Bool) (cx : Nat) (a : Word) (write : Bool) : Except WFail Nat :=
  if phys then (if fld a 52 12 = 0 ∧ paOk (fld a 0 52) then .ok (fld a 0 52) else .error ⟨.ptebad, 0, 0⟩)
  else if spc a ≠ 0 ∨ spaceOk s cx a = false then .error ⟨.addrspace, 0, 0⟩
  else xlate s noTlb cx (ctxD s cx 5) (fld a 0 48) write

/-! ## What software must not write (R3, R30, R49, R347), and watched lines (R360, R410) -/

/-- Two ranges of bytes meet. -/
def meets (a n b m : Nat) : Bool := decide (a < b + m) && decide (b < a + n)

/-- Every live record: context, global cluster and FRAME. -/
def liveAll (s : State) : List (Nat × Nat × Word) :=
  (s.hub.launches.map (fun l => l.recs.map (fun e => (l.ctx, e)))).flatten ++ s.hub.orphans

/-- The live records of whose frames bytes 0 to 127 are written, in their window or in a switch image (R30, R371). -/
def frameHits (s : State) (l n : Nat) : List (Nat × Nat × Word) :=
  (liveAll s).filter (fun e => meets l n (frameHome s e.1 (e.2.1 / 16) e.2.2) 128)

/-- A live record's slot, join counter and header become undefined, and a free value says whether its launch still waits for it (R30). -/
def breakFrame (s : State) (e : Nat × Nat × Word) : State :=
  let a := frameHome s e.1 (e.2.1 / 16) e.2.2
  let t := { s with mem := wrMem s.mem a 128 (freeN s (2 ^ 77 + 2 * a)) }
  if freeN s (2 ^ 77 + 2 * a + 1) % 2 = 0 then t
  else { t with hub := { t.hub with
    launches := t.hub.launches.map (fun l => if l.ctx = e.1 then { l with recs := l.recs.erase e.2 } else l)
    orphans := t.hub.orphans.erase e } }

/-- The bytes written lie in the group table of a launch in flight, of 256 entries of 2,048 bytes (R48, R49). -/
def tableHit (s : State) (l n : Nat) (x : Launch) : Bool :=
  x.gptr ≠ 0 && (List.range 9).any (fun i =>
    let g := fld x.gptr 0 48
    let p := (g / 65536 + i) * 65536
    let lo := Nat.max g p
    let hi := Nat.min (g + 2 ^ 19) (p + 65536)
    decide (lo < hi) && (match xlate s noTlb x.ctx (ctxD s x.ctx 5) lo false with
      | .ok a => meets l n a (hi - lo)
      | .error _ => false))

/-- Contexts whose group tables are written while a launch is in flight. -/
def tableHits (s : State) (l n : Nat) : List Nat := (s.hub.launches.filter (tableHit s l n)).map (·.ctx)

/-- The bytes written belong to object o (R347). -/
def objHit (l n : Nat) (o : Obj) : Bool := meets l n (o.base + o.off) o.size

/-- Contexts of whose sealed objects bytes are written (R347). -/
def objHits (s : State) (l n : Nat) : List Nat := (s.ctxs.filter (fun e => e.2.objs.any (objHit l n))).map (·.1)

/-- A watched control line holds bytes that are written: queue q as q, the ring of context n as 16384 + n (R360, R410). -/
def lineHits (s : State) (l n : Nat) : List Nat :=
  (s.hub.lq.filter (fun e => e.2.en && (match hubLoc s e.2.sysq e.2.ctx e.2.ctl false with
    | .ok a => meets l n a 128
    | .error _ => false))).map (·.1) ++
  (s.ctxs.filter (fun e => decide (e.2.fr.log2n ≠ 0) && meets l n e.2.fr.base 128)).map (fun e => 16384 + e.1)

/-- A range of n bytes at location l meets a staging region of a word that runs: scratchpads of its children's cores, the windows of their
clusters, the rings of their dies (R302, Table 8 of chapter 10). -/
def stageHit (s : State) (l n : Nat) (t : TileW) : Bool :=
  match s.hub.launches.find? (fun x => x.tag = t.ltag) with
  | none => false
  | some x =>
    let lv := fld t.word 16 3
    let deep := fun (v : Nat) => decide (v ≤ lv) && !bit t.word 22
    if 2 ^ 53 ≤ l then
      deep 4 && t.cores.any (fun k => decide (dieOf k = (l - 2 ^ 53) / 2 ^ 28)) && meets ((l - 2 ^ 53) % 2 ^ 28) n (fld x.l5 0 28) (fld x.l5 28 28)
    else if 2 ^ 52 ≤ l then
      let k := (l - 2 ^ 52) / 2 ^ 22
      let b := (l - 2 ^ 52) % 2 ^ 22
      if b < 0x200000 then t.cores.contains k && meets b n (fld x.l7 0 21) (fld x.l7 21 22)
      else deep 3 && t.cores.any (fun j => decide (cluOf j = cluOf k)) &&
        meets ((b - 0x200000) / 128 * 1024 + k % 8 * 128 + b % 128) n (fld x.l6 0 24) (fld x.l6 24 25)
    else false

/-- An access of software to n bytes at l: the words in whose staging regions it falls end with undefined values (R302). -/
def softTouch (s : State) (l n : Nat) : State :=
  if s.tiles.isEmpty then s else { s with tiles := s.tiles.map (fun t => if stageHit s l n t then { t with spoilt := true } else t) }

/-- A core at which a child of a word runs counts as not idle until the word completes (R303). -/
def childBusy (s : State) (k : Nat) : Bool := s.tiles.any (fun t => t.cores.contains k)

/-- What follows a write of n bytes at location l by a store, a copy, a tile word or the host: the values that R30, R49 and R347 leave
undefined, and the watches that it ends. -/
def madeDone (s : State) (l n : Nat) : State :=
  let s := (frameHits s l n).foldl breakFrame s
  let s := (tableHits s l n).foldl (fun s c => setCtx s c { ctx s c with grpBroken := true }) s
  let s := (objHits s l n).foldl (fun s c =>
    setCtx s c { ctx s c with objs := (ctx s c).objs.map (fun o => if objHit l n o then { o with broken := true } else o) }) s
  match lineHits s l n with
  | [] => s
  | ls => { s with hub := { s.hub with dirty := s.hub.dirty ++ (ls.filter (fun i => s.hub.dirty.all (fun e => decide (e.1 ≠ i)))).map (fun i => (i, s.hub.ticks)) } }

/-- The same for a write of a program. -/
def softDone (s : State) (l n : Nat) : State := madeDone (softTouch s l n) l n

/-- The runs of consecutive offsets in a list of bytes: offset and length. -/
def runsOf : List (Nat × Byte) → List (Nat × Nat)
  | [] => []
  | (o, _) :: t => match runsOf t with
    | (p, n) :: r => if p = o + 1 then (o, n + 1) :: r else (o, 1) :: (p, n) :: r
    | [] => [(o, 1)]

/-- A software write of bytes at offsets from a location, all within n bytes: nothing but those bytes is accessed (R89, R228, R428). -/
def softWrite (s : State) (l n : Nat) (bs : List (Nat × Byte)) : State :=
  if bs.length = n then softDone (errClear { s with mem := wrList s.mem l bs } l n) l n
  else (runsOf bs).foldl (fun s e => softDone (errClear s (l + e.1) e.2) (l + e.1) e.2) { s with mem := wrList s.mem l bs }

/-- A record of a FRAME stands in a ready queue or a spill ring of global cluster n, or in a ring of its switch image (R33, R51, R371). -/
def queuedIn (s : State) (cx n : Nat) (f : Word) : Bool :=
  (List.range 4).any (fun q =>
    let g := match swImage s cx n with
      | some img => imgRing s (img + 32 + 32 * q)
      | none => ringOf (clu s n) q
    ((swImage s cx n).isNone && (rqOf (clu s n) q).any (fun r => decide (r.w1 = f))) ||
      (List.range g.cnt).any (fun i => match ringEnt s cx n g (fld g.head 0 32 + i) false with
        | .ok a => decide (BitVec.ofNat 64 (rd s (a + 8) 8) = f)
        | .error _ => false))

/-- A live record whose push has failed stands in its slot alone, with JOIN = 0 and its KIND, for system software to push again (R37). -/
def adrift (s : State) (cx n : Nat) (f : Word) : Bool :=
  let r := rdRec s (frameHome s cx (n / 16) f)
  decide (r.kind ≤ 2) && decide (r.join = 0) && !queuedIn s cx n f

/-- A record becomes live on die d: slot, header, and the launch that waits for it. A second push of a live FRAME leaves both records' bytes
undefined (R30); one whose push has failed is pushed again, and stays one record (R37). -/
def liveRec (s : State) (cx d : Nat) (tag : BitVec 16) (r : Rec) : State :=
  let a := frameHome s cx d r.w1
  let n := 16 * d + frClu r.w1
  let live := (liveAll s).contains (cx, n, r.w1)
  let again := live && adrift s cx n r.w1
  let s0 := if again then liveDel s (BitVec.ofNat 16 (rd s (a + 64) 2)) cx n r.w1 else s
  let t := liveAdd (frameHdr (wrRec s0 a r) a tag cx) tag cx n r.w1
  if live && !again then breakFrame t (cx, n, r.w1) else t

/-- The effect of a push that has passed its checks (R26), made by core `key` for a cluster of die d: header, slot, and the queue when JOIN is
zero. -/
def pushOk (s : State) (cx d key : Nat) (tag : BitVec 16) (r : Rec) : PushRes :=
  if r.join = 0 then pushRec (liveRec s cx d tag r) cx (16 * d + frClu r.w1) key r else .ok (liveRec s cx d tag r)

/-! ## Copy programs (R247 to R249) -/

/-- Field n of a program. -/
def pf (f : Tab Word) (n : Nat) : Word := tget 0 f n
def pCount (f : Tab Word) (l : Nat) : Nat := fld (pf f (8 + 3 * l)) 0 32

/-- Copies of a program (R249). -/
def pTotal (f : Tab Word) : Nat := (List.range 6).foldl (fun n l => n * pCount f l) 1

/-- The status word of `estat` (R251). -/
def estatWord (x : Channel) : Word :=
  let live := match x.live with
    | none => false
    | some p => decide (x.done < pTotal p.f)
  BitVec.ofNat 64 (b2n live + 2 * b2n x.pend.isSome + Nat.min x.done (2 ^ 32 - 1) * 2 ^ 32)

/-! ## Events and requests -/

/-- A cluster as the present ccy sees its event words: every change of earlier ccy is in them, clears before sets (R47). -/
def evView (s : State) (c : Cluster) : Cluster :=
  if c.evCcy < s.ccy then
    { c with
      ev := (List.range 8).foldl (fun t w => tset 0 t w ((tget 0 c.ev w &&& ~~~(tget 0 c.evC w)) ||| tget 0 c.evS w)) c.ev
      evS := [], evC := [] }
  else c

/-- Event word w of global cluster n as the present ccy sees it (R47). -/
def evWord (s : State) (n w : Nat) : BitVec 32 := tget 0 (evView s (clu s n)).ev w

/-- Bits set, bits cleared in an event word of global cluster n, which later ccy see (R47). -/
def evSet (s : State) (n w : Nat) (m : BitVec 32) : State :=
  let c := evView s (clu s n)
  setClu s n { c with evCcy := s.ccy, evS := tset 0 c.evS w (tget 0 c.evS w ||| m) }
def evClr (s : State) (n w : Nat) (m : BitVec 32) : State :=
  let c := evView s (clu s n)
  setClu s n { c with evCcy := s.ccy, evC := tset 0 c.evC w (tget 0 c.evC w ||| m) }

/-- A new name. -/
def newId (s : State) : Nat × State := (s.nextId, { s with nextId := s.nextId + 1 })

/-- A copy program of core k whose completion decrements its own task's frame (R36). -/
def CopyProg.joinsOwn (p : CopyProg) (k : Nat) : Bool := pf p.f 4 ≠ 0 && frameCanon k (pf p.f 4) = p.frame

/-- The programs handed over on a channel that have not completed. -/
def Channel.progs (x : Channel) : List CopyProg := x.live.toList ++ x.pend.toList

/-- Requests of core k that have not completed: landing-class requests whose data has not landed, posted stores and atomics
without an acknowledgement, split-phase requests without their completion, `ego` of a program that joins its own frame among them (R92). -/
def outCount (s : State) (k : Nat) : Nat :=
  ((core s k).land.map (fun l => l.parts.length)).sum +
  s.reqs.countP (fun r => r.core = k && (match r.dst with | .land _ _ => false | _ => true)) +
  s.comps.countP (fun r => r.owner = some k) +
  ((core s k).ch.map (fun e => e.2.progs.countP (·.joinsOwn k))).sum +
  s.tiles.countP (fun w => w.core = k && (match w.src with | .tpost _ _ => true | _ => false))

/-- Room reserved in the lehr (R92). -/
def lehrRoom (c : Core) : Nat := (c.land.map (·.room)).sum

/-- The 128-byte line of a location. -/
def lineOf (l : Nat) : Nat := l / 128

/-- Requests that must perform before a new request of core k at `loc` (R97, R98, R101, R103): earlier requests to the same
line in spaces other than 0x0 and 0x5, held acquires and the first set of a fence whose bundle issues the request. -/
def orderDeps (s : State) (k : Nat) (loc : Option Nat) : List Nat :=
  (s.reqs.filter (fun r => r.core = k && r.stage = .out && (match loc, r.loc with
    | some l, some m => 2 ^ 52 ≤ l && decide (l < 2 ^ 55) && lineOf l = lineOf m
    | _, _ => false))).map (·.id)

/-- A request enters the fabric or its home's queue. -/
def addReq (s : State) (r : Req) : State := { s with reqs := s.reqs ++ [r] }

/-- A request by its number. -/
def findReq (s : State) (id : Nat) : Option Req := s.reqs.find? (fun r => r.id = id)
def setReq (s : State) (id : Nat) (f : Req → Req) : State :=
  { s with reqs := s.reqs.map (fun r => if r.id = id then f r else r) }
def delReq (s : State) (id : Nat) : State := { s with reqs := s.reqs.filter (fun r => r.id ≠ id) }

/-- A copy program of a channel with copies that have not performed (R106): `ids` names it. -/
def Channel.opens (x : Channel) (ids : List Nat) : Bool :=
  x.live.any (fun p => ids.contains p.id && decide (x.done < pTotal p.f)) || x.pend.any (fun p => ids.contains p.id)

/-- Whether requests, and every copy of programs, have all performed (or are gone). -/
def performed (s : State) (ids : List Nat) : Bool :=
  ids.isEmpty || (!s.reqs.any (fun r => ids.contains r.id && r.stage = .out) &&
    !s.cores.any (fun e => e.2.ch.any (fun x => x.2.opens ids)))

/-- A landing-class entry is added to the current core: registers are claimed (R90, R128). -/
def addLand (s : State) (l : Landing) : State :=
  modCur s (fun c => let c' := claim c l; { c' with land := c'.land ++ [l] })

/-- The flag COMMITTED is set in the record the core holds and in its frame slot (R173). -/
def setCommitted (s : State) (k : Nat) : State :=
  let c := core s k
  let a := frameHome s c.ctx (dieOf k) c.trec.w1
  let s := modCore s k (fun c => { c with trec := c.trec.setCommitted true })
  wr s a 8 (setFld (BitVec.ofNat 64 (rd s a 8)) 41 1 1).toNat

end Sys2Proof.Machine
end

