-- ==== Sys2Proof/Machine/Issue.lean ====
section
/-! DEFINITION. From fetch to commit: what a slot instruction gives the pipeline, the steps of R130, and what follows a commit:
loops, transfers, ends, traps. -/
namespace Sys2Proof.Machine

/-- What the C slot asks for after the commit. -/
inductive Ctl where
  | seq
  /-- A taken transfer (R146). -/
  | jump (t : Word)
  /-- `loop` and `loope`: stages, length, count (R149). -/
  | loop (s len cnt : Nat)
  | exit
  | cont (t : Word)
  | emret
  /-- `trap` and `bkpt`: the record, taken with the resume PC at the next bundle (R158). -/
  | trap (i : FaultInfo)
  | sysc (n : Nat) (args : List Word)
  | step
  deriving DecidableEq, Repr

/-- What one slot does to a scale register (R73): the fields it assigns, and what it adds to the counts. -/
structure ScUpd where
  sc : Nat
  bound : Nat := 1
  exp : Option Nat := none
  cen : Option (Nat × Bool) := none
  marg : Option Nat := none
  fmt : Option Nat := none
  tidx : Option Nat := none
  satc : Option Nat := none
  pois : Option Nat := none
  addS : Nat := 0
  addP : Nat := 0
  deriving DecidableEq, Repr

/-- One slot instruction as the pipeline sees it. Functions of the state read it as it stands before the bundle (R96). -/
structure SlotOp where
  slot : Nat
  guard : BitVec 4
  /-- Occupancy in ccy (R127). -/
  occ : State → Nat := fun _ => 1
  /-- Decode checks that depend on the state (R122, R162). -/
  legal : State → Bool := fun _ => true
  /-- Scoreboard resources read or overwritten (R130 step 3), and the exemption of R239. -/
  res : State → List Res := fun _ => []
  mm : Bool := false
  /-- Requests issued and room they reserve in the lehr (R92, R172). -/
  reqs : State → Nat × Nat := fun _ => (0, 0)
  /-- A read by request that must come before the bundle goes on: address and bytes (R199, R203). -/
  pread : State → Option (Word × Nat) := fun _ => none
  /-- Admission (R130 step 4), made for slots that are not nullified. -/
  admits : State → Bool := fun _ => true
  /-- Fault checks of step 5; the number is what the bundle's slots add to JOINCNT.ISSUED. -/
  check : State → Nat → Option FaultInfo := fun _ _ => none
  /-- The Annealer charge of a matrix instruction and its S (R245, R246). -/
  cost : State → Option (Nat × Nat) := fun _ => none
  /-- Requests aimed at the own frame (R36). -/
  issued : State → Nat := fun _ => 0
  /-- Sets COMMITTED (R173). -/
  commits : State → Bool := fun _ => false
  /-- Effect on registers and requests: the state before the bundle, then the state built so far. -/
  eff : State → State → State := fun _ s => s
  /-- The same for an instruction that has scale registers as destinations: the state and the updates. -/
  effu : State → State → State × List ScUpd := fun _ s => (s, [])
  /-- The C slot's request, issued last (R96). -/
  late : State → State → State := fun _ s => s
  ctl : State → Ctl := fun _ => .seq
  /-- Registers that a result of bound 1 goes to: file and number, predicates as file 6 (R128). -/
  now : List (Nat × Nat) := []
  /-- The least ccy that step 4 takes (R250). -/
  probe : State → Nat := fun _ => 0

/-- The guard's value, read before the bundle (R121). -/
def guardOn (c : Core) (g : BitVec 4) : Bool := xor (rp c (fld g 0 3)) (bit g 3)

/-- Slots nullified after `emret` (R357). -/
def masked (c : Core) (slot : Nat) : Bool := !c.emuAct && bit c.emuMask slot

/-- A slot that is executed (R131). -/
def SlotOp.on (o : SlotOp) (c : Core) : Bool := guardOn c o.guard && !masked c o.slot

/-! ## Hardware loops (R148 to R153) -/

def lpActive (c : Core) (k : Nat) : Bool := bit (tget 0 c.lpc k) 42
def lpStart (c : Core) (k : Nat) : Nat := fld (tget 0 c.lps k) 0 40
def lpLen (c : Core) (k : Nat) : Nat := fld (tget 0 c.lps k) 40 9

/-- The innermost loop: the active level with the highest number (R148). -/
def innermost (c : Core) : Option Nat := [3, 2, 1, 0].find? (lpActive c)

/-- A level stops being active. -/
def lpOff (c : Core) (k : Nat) : Core := { c with lpc := tset 0 c.lpc k (setFld (tget 0 c.lpc k) 42 1 0) }

/-- The body of level k holds an arena offset. -/
def inBody (c : Core) (k : Nat) (t : Nat) : Bool := lpStart c k ≤ t && t < lpStart c k + 32 * lpLen c k

/-- Stage predicates p1 to pS from the stage bits (R150). -/
def stagePreds (p : BitVec 8) (s stg : Nat) : BitVec 8 := setFld p 1 s stg

/-- The boundary step of level k (R150), with a pre-emption that arms a drain (R365): the core and whether the loop ended. -/
def boundary (c : Core) (k : Nat) : Core × Bool :=
  let r0 := tget 0 c.lpc k
  let arm := decide (c.pre = .armed)
  let r := if arm then setFld r0 43 1 1 else r0
  let c := if arm then { c with pre := .draining } else c
  let drain := bit r 43
  let first := if drain then 0 else fld r 0 32
  let s := fld r 32 3
  let dec := fun (x : Word) => if drain ∨ first = 0 then x else setFld x 0 32 (first - 1)
  if s = 0 then
    if first = 0 then ({ c with lpc := tset 0 c.lpc k (setFld r 42 1 0) }, true)
    else ({ c with lpc := tset 0 c.lpc k (dec r) }, false)
  else
    let stg := (fld r 35 7 * 2 + b2n (decide (first > 0))) % 2 ^ s
    let r := dec (setFld r 35 7 stg)
    if stg = 0 then ({ c with lpc := tset 0 c.lpc k (setFld r 42 1 0) }, true)
    else ({ c with lpc := tset 0 c.lpc k r, p := stagePreds c.p s stg }, false)

/-- A drain that ends becomes Taking; the resume PC is the PC that follows (R365). -/
def drainEnd (c : Core) : Core := if c.pre = .draining then { c with pre := .taking } else c

/-- A level that a drain has ended with iterations still to begin (R365). -/
def drainedOpen (c : Core) (k : Nat) : Bool := bit (tget 0 c.lpc k) 43 && fld (tget 0 c.lpc k) 0 32 ≠ 0

/-- A drain ends with a level that has drained; other levels end within a drain without ending it (R365). -/
def levelEnd (c : Core) (k : Nat) : Core := if bit (tget 0 c.lpc k) 43 then drainEnd c else c

/-- Steps at a last bundle, innermost level first (R151): the PC that follows. -/
def backEdge (c : Core) (pc : Nat) : List Nat → Core
  | [] => { c with pc := BitVec.ofNat 64 (pc + 32) }
  | k :: t =>
    if lpActive c k then
      if pc = lpStart c k + 32 * (lpLen c k - 1) then
        let r := boundary c k
        if r.2 then
          if drainedOpen r.1 k then { drainEnd r.1 with pc := BitVec.ofNat 64 (pc + 32) } else backEdge (levelEnd r.1 k) pc t
        else { r.1 with pc := BitVec.ofNat 64 (lpStart c k) }
      else { c with pc := BitVec.ofNat 64 (pc + 32) }
    else backEdge c pc t

/-- How many stage predicates, from p1 on, those steps write (R150, R151). -/
def stepStages (c : Core) (pc : Nat) : List Nat → Nat
  | [] => 0
  | k :: t =>
    if lpActive c k then
      if pc = lpStart c k + 32 * (lpLen c k - 1) then
        let r := boundary c k
        if r.2 then
          if drainedOpen r.1 k then 0 else stepStages (levelEnd r.1 k) pc t
        else fld (tget 0 c.lpc k) 32 3
      else 0
    else stepStages c pc t

/-- Loops ended by a taken transfer to t, innermost first (R152). -/
def endLoops (c : Core) (t : Nat) : List Nat → Core
  | [] => c
  | k :: l =>
    if lpActive c k then
      if inBody c k t then c
      else
        let drained := bit (tget 0 c.lpc k) 43
        let r := setFld (tget 0 c.lpc k) 42 1 0
        let c := { c with lpc := tset 0 c.lpc k (if drained then setFld r 0 32 0 else r) }
        endLoops (if drained then drainEnd c else c) t l
    else endLoops c t l

/-- The PC after a bundle without a transfer (R151); inside an emulation handler loops do not step (R356). -/
def seqPc (c : Core) : Core :=
  if c.emuAct then { c with pc := c.pc + 32 } else backEdge c c.pc.toNat [3, 2, 1, 0]

/-- A taken transfer: the target issues at c + 2 (R127, R146). -/
def jumpTo (c : Core) (t : Word) : Core :=
  let c := if c.emuAct then c else endLoops c t.toNat [3, 2, 1, 0]
  { c with pc := t, issueAt := c.ctime + 2 }

/-- `loop` and `loope` at commit: the lowest inactive level, then its boundary step (R149, R151). DESIGN CHOICE (log entry 64): the skip of a
loop of count 0 neither steps nor ends an enclosing level whose last bundle it passes. -/
def loopStart (c : Core) (s len cnt : Nat) : Core :=
  match [0, 1, 2, 3].find? (fun k => !lpActive c k) with
  | none => seqPc c
  | some k =>
    let start := c.pc.toNat + 32
    let lpc : Word := BitVec.ofNat 64 (cnt + s * 2 ^ 32 + 2 ^ 42)
    let lps : Word := BitVec.ofNat 64 (start % 2 ^ 40 + len * 2 ^ 40)
    let c := { c with lpc := tset 0 c.lpc k lpc, lps := tset 0 c.lps k lps }
    let r := boundary c k
    if r.2 then
      let after := start + 32 * len
      { levelEnd r.1 k with pc := BitVec.ofNat 64 after, issueAt := r.1.ctime + 2 }
    else { r.1 with pc := BitVec.ofNat 64 start }

/-! ## Ends of tasks (R38, R41, R154) -/

/-- JOIN of the slot plus ISSUED of the core (R38, R41). -/
def joinSum (s : State) (k : Nat) : Int :=
  let c := core s k
  (rdRec s (frameHome s c.ctx (dieOf k) c.trec.w1)).join + fld c.joincnt 0 16

/-- `exit` accepted at commit: SETMASK, KIND 4, one live record fewer (R41). -/
def exitCommit (s : State) (k : Nat) (setmask : Bool) : State :=
  let c := core s k
  let a := frameHome s c.ctx (dieOf k) c.trec.w1
  let s := if setmask then evSet s (cluOf k) c.trec.setw c.trec.setmask else s
  let s := wr s a 8 ((rdRec s a).setKind 4).w0.toNat
  liveDel s c.ltag c.ctx (homeClu k c.trec.w1) c.trec.w1

/-- `cont` at commit (R38): one atomic step at the home. -/
def contCommit (s : State) (k : Nat) (t : Word) : State :=
  let c := core s k
  let a := frameHome s c.ctx (dieOf k) c.trec.w1
  let r := rdRec s a
  let j := r.join + fld c.joincnt 0 16
  let r := (((r.setPc (fld t 0 40)).setKind 1).setCommitted false).setJoin j
  let s := wrRec s a r
  if j = 0 then pushHw s c.ctx (homeClu k c.trec.w1) (512 + frCore (dieOf k) c.trec.w1) c.ltag r else s

/-- A core whose task has left becomes idle, with its loop levels cleared (R154). -/
def coreFree (c : Core) : Core :=
  { c with
    run := .idle, lpc := [], lps := [], wait := .none, mwait := .none, trap := none, ended := false, emuAct := false, emuMask := 0
    pre := if c.pre = .none then .none else .held }

/-- After the commit of `exit` or `cont` the core takes the end once R136 holds and no wait of the M slot is left (R154). -/
def taskEnd (s : State) (k : Nat) : State :=
  if quiet (core s k) ∧ (core s k).mwait = .none then modCore s k coreFree else modCore s k (fun c => { c with run := .ending })

/-! ## Bounded waits (R157, R198) -/

/-- A predicate of a core set outright. -/
def setPred (c : Core) (d : Nat) (b : Bool) : Core := if d = 0 then c else { c with p := setFld c.p d 1 (b2n b) }

/-- An `evwait` ends with its predicate. -/
def endEv (c : Core) (b : Bool) : Core :=
  match c.wait with
  | .ev pd _ _ _ => { setPred c pd b with wait := .none }
  | _ => c

/-- A `bwait` ends with its predicate. -/
def endBw (c : Core) (b : Bool) : Core :=
  match c.mwait with
  | .bw pd _ _ _ _ _ => { setPred c pd b with mwait := .none }
  | _ => c

/-- A trap or an interrupt ends the bounded waits with pd false. -/
def endBounded (c : Core) : Core := endBw (endEv c false) false

/-- A bundle that has not committed is given up: it will be issued anew (R138, R139). -/
def giveUp (c : Core) : Core := { c with prd := none, probed := 0, denied := false }

/-! ## The steps of R130 -/

/-- A fault found at a slot of the bundle: the trap is taken before the bundle (R137). -/
def faultAt (s : State) (i : FaultInfo) : State :=
  raiseTrap (countErr s i.code) { info := repInfo s (cur s) i, off := repOff s (cur s) }

/-- The ENGINE number of a slot (Table 6 of chapter 17). -/
def slotEngine (j : Nat) : Nat := (#[0, 1, 1, 2, 3, 3, 4, 5] : Array Nat).getD j 0

/-- What happens when slots `mask` fail step 1 (R122, R355, R358). -/
def undefAt (s : State) (mask : BitVec 8) : State :=
  let c := cur s
  let slot := ((List.range 8).find? (fun j => bit mask j)).getD 0
  let eng := slotEngine slot
  if c.emuAct then faultAt s { code := .emulnest, prec := 2, slot := slot, engine := eng }
  else if bit (entD c 10) 40 then
    let b := (c.ic.find? (fun e => e.1 = (arena s c).1 + c.pc.toNat)).elim 0 (·.2)
    if quiet c then emuEnter s s.cur b mask else setCur s { c with wait := .emu mask b }
  else faultAt s { code := .undef, slot := slot, engine := eng }

/-- The first failing slot at step 5, with the JOINOVF check of R36 after the slot's own checks (R130, R132). -/
def firstFault (s : State) (all : Nat) : List SlotOp → Nat → Option FaultInfo
  | [], _ => none
  | o :: t, n =>
    if o.on (cur s) then
      match o.check s all with
      | some i => some i
      | none =>
        let n' := n + o.issued s
        if n' > 32767 ∧ o.issued s > 0 then some { code := .joinovf, slot := o.slot, engine := slotEngine o.slot }
        else firstFault s all t n'
    else firstFault s all t n

/-- The last value assigned, else the old one. -/
def lastOr (old : Nat) (us : List (Option Nat)) : Nat := us.foldl (fun v u => u.getD v) old

/-- The merge of the updates of one scale register, in ascending slot order, on its value before the bundle (R73). -/
def scMerge (old : ScReg) (us : List ScUpd) : ScReg :=
  let pairs := us.filterMap (·.cen)
  let valid := (pairs.filter (·.2)).map (·.1)
  let cen := if pairs = [] then (scCen old, scCenv old)
    else if valid = [] then ((pairs.getLastD (0, false)).1, false)
    else (valid.foldl Nat.min 63, true)
  let a := setFld old 0 8 (lastOr (fld old 0 8) (us.map (·.exp)))
  let a := setFld (setFld a 8 6 cen.1) 14 1 (b2n cen.2)
  let a := setFld a 15 2 (lastOr (scMarg old) (us.map (·.marg)))
  let a := setFld a 17 5 (lastOr (scFmt old) (us.map (·.fmt)))
  let a := setFld a 64 12 (lastOr (fld old 64 12) (us.map (·.tidx)))
  let a := setFld a 32 16 (sat16 (lastOr (scSatc old) (us.map (·.satc)) + (us.map (·.addS)).sum))
  setFld a 48 16 (sat16 (lastOr (scPois old) (us.map (·.pois)) + (us.map (·.addP)).sum))

/-- A merged scale register goes to its destination at the latest bound; under a landing entry that the same bundle has issued
the register is undefined until both times have passed (R73, R128). -/
def putScale (pre : State) (us : List ScUpd) (n : Nat) (s : State) : State :=
  let mine := us.filter (fun u => u.sc = n)
  let b := (mine.map (·.bound)).foldl Nat.max 1
  match (cur s).land.find? (fun l => decide (pre.nextId ≤ l.id) && decide (l.id < s.nextId) && l.dst.names.contains (2, n)) with
  | some l => modCur s (fun c => { c with pend := ⟨Nat.max (c.ctime + b) l.at_, .sc n 0⟩ :: c.pend })
  | none => wsc s b n (scMerge (rsc pre n) mine)

def putScales (pre s : State) (us : List ScUpd) : State := ((us.map (·.sc)).dedup).foldl (fun s n => putScale pre us n s) s

/-- The effects of the executed slots in ascending slot order, reading the state before the bundle (R96). -/
def effectsGo (pre : State) : List SlotOp → State → List ScUpd → State × List ScUpd
  | [], s, us => (s, us)
  | o :: t, s, us =>
    if o.on (cur pre) then
      let r := o.effu pre (o.eff pre s)
      effectsGo pre t r.1 (us ++ r.2)
    else effectsGo pre t s us

def effects (pre : State) (ops : List SlotOp) (s : State) : State :=
  let r := effectsGo pre ops s []
  putScales pre r.1 r.2

def lates (pre : State) : List SlotOp → State → State
  | [], s => s
  | o :: t, s => lates pre t (if o.on (cur pre) then o.late pre s else s)

/-- What the rest of a bundle's requests must follow: the first set of its `fence`, what its `drain` or `drain.r` awaits, its acquire, the
first poll of its `bwait` (R101, R103, R105, R106). -/
def gate (pre s : State) : List Nat :=
  (if (cur pre).mwait = .none then
    (match (cur s).mwait with
     | .reqs ids => ids
     | .acks ids => ids
     | .drain ids => ids
     | .bw _ _ _ _ sc (some p) => (s.reqs.filter (fun r => r.id = p && decide (reqScope r ≤ sc))).map (·.id)
     | _ => [])
   else []) ++
  (s.reqs.filter (fun r => decide (pre.nextId ≤ r.id) && r.core = s.cur && r.acq && r.stage = .out)).map (·.id)

/-- Programs that the bundle has handed over follow `ids`. -/
def gateProg (pre : State) (ids : List Nat) (p : CopyProg) : CopyProg :=
  if pre.nextId ≤ p.id then { p with deps := p.deps ++ ids } else p

/-- Landing entries of the bundle take over the results of bound 1 that its earlier slots have put into the same registers (R128). -/
def overtake (pre : State) (ops : List SlotOp) (c : Core) : Core :=
  let nms := ((ops.filter (·.on (cur pre))).map (·.now)).flatten
  let ps := (c.land.filter (fun l => decide (pre.nextId ≤ l.id))).map (fun l =>
    (l.dst.names.filter (fun nm => nms.contains nm && nm.2 ≠ 0)).map (fun nm => (⟨l.at_, .x nm.2 0⟩ : Pend)))
  { c with pend := ps.flatten ++ c.pend }

/-- The order among the requests of one bundle. All reads come before any write (R96): its stores wait for its loads and atomics, its
atomics for its loads, but for an acquire, which its later loads wait for (R103). What issues after M waits for the gate. DESIGN CHOICE (log
entry 70): where such a load and the acquire name one byte, the load reads what the acquire has written. -/
def bundleOrder (pre : State) (ops : List SlotOp) (s : State) : State :=
  if s.nextId = pre.nextId then s else
  let mine := fun (r : Req) => decide (pre.nextId ≤ r.id)
  let ls := (s.reqs.filter (fun r => mine r && r.kind = .load)).map (·.id)
  let as := (s.reqs.filter (fun r => mine r && r.kind = .amo)).map (·.id)
  let g := gate pre s
  modCur { s with
    reqs := s.reqs.map (fun r =>
      if mine r then
        { r with deps := r.deps ++ (if 4 ≤ r.slot then g else []) ++ (match r.kind with
          | .load => []
          | .amo => if r.acq then [] else ls
          | .store => ls ++ as) }
      else r)
    comps := s.comps.map (fun r => if pre.nextId ≤ r.id then { r with deps := r.deps ++ g } else r) }
    (fun c => overtake pre ops { c with
      ch := c.ch.map (fun e => (e.1, { e.2 with live := e.2.live.map (gateProg pre g), pend := e.2.pend.map (gateProg pre g) })) })

/-- Occupancies of the bundle's slots, nullified ones included (R131). -/
def occupy (pre : State) (ops : List SlotOp) (c : Core) : Core :=
  ops.foldl (fun c o => { c with occ := tset 0 c.occ o.slot (c.oclk + o.occ pre) }) c

/-- The predicates that executed slots behind the C slot write (R128). -/
def laterPreds (pre : State) (ops : List SlotOp) : List Nat :=
  (((ops.filter (fun o => o.on (cur pre) && decide (o.slot ≠ 0))).map (·.now)).flatten.filter (fun nm => nm.1 = 6)).map (·.2)

/-- The predicates that later slots of a bundle have written stand over the stage predicates that its C slot writes at a loop's start (R128). -/
def laterStand (ds : List Nat) (p : BitVec 8) (c : Core) : Core :=
  { c with p := ds.foldl (fun q d => if d = 0 then q else setFld q d 1 (fld p d 1)) c.p }

/-- The predicate of a bounded wait, or 0. -/
def waitPd : Wait → Nat
  | .ev pd _ _ _ => pd
  | .bw pd _ _ _ _ _ => pd
  | _ => 0

/-- A bounded wait that writes no predicate. -/
def dropPd : Wait → Wait
  | .ev _ w m t => .ev 0 w m t
  | .bw _ ph a t sc p => .bw 0 ph a t sc p
  | w => w

/-- The stage predicates that the steps after the bundle write (R151). -/
def stageOver (seq : Bool) (c : Core) (d : Nat) : Bool :=
  seq && !c.emuAct && decide (1 ≤ d) && decide (d ≤ stepStages c c.pc.toNat [3, 2, 1, 0])

/-- A wait that the bundle itself has begun writes no predicate that a later writer of the bundle has: for `evwait` a later slot (R128), for
both waits the steps of the loops, which overwrite what the bundle writes (R151). -/
def settleWaits (pre : Core) (ds : List Nat) (seq : Bool) (c : Core) : Core :=
  let st := stageOver seq c
  let mw := if pre.mwait = .none then c.mwait else .none
  { c with
    wait := if pre.wait = .none ∧ (st (waitPd c.wait) ∨ waitPd c.wait ∈ ds ∨ waitPd c.wait = waitPd mw) then dropPd c.wait else c.wait
    mwait := if st (waitPd mw) then dropPd c.mwait else c.mwait }

/-- The waits that the bundle has begun (R128, R151). -/
def settle (pre : State) (ops : List SlotOp) (ctl : Ctl) (s : State) : State :=
  modCur s (settleWaits (cur pre) (laterPreds pre ops) (match ctl with | .jump _ | .loop .. | .emret => false | _ => true))

/-- The control effect of the bundle. -/
def control (s : State) (ds : List Nat) : Ctl → State
  | .seq => modCur s seqPc
  | .jump t => modCur s (fun c => jumpTo c t)
  | .loop st len cnt => modCur s (fun c => laterStand ds c.p (loopStart c st len cnt))
  | .exit => modCur (exitCommit s s.cur true) seqPc
  | .cont t => modCur (contCommit s s.cur t) seqPc
  | .emret => modCur s emuLeave
  | .trap _ => modCur s seqPc
  | .sysc n xs => modCur s (fun c => { seqPc c with wait := .sysc n xs })
  | .step => modCur s seqPc

/-- What follows the ccy of the commit: the end of a task, or a trap after the bundle (R137, R154). -/
def afterCommit (s : State) (off : Word) : Ctl → State
  | .exit => taskEnd s s.cur
  | .cont _ => taskEnd s s.cur
  | .trap i =>
    let s := modCur s (fun c => { c with resume := c.pc })
    let t : Trap := { info := i, next := true, off := off }
    if (cur s).mwait = .none then raiseTrap s t else pendTrap s s.cur t
  | _ => s

/-- The control effect of the executed slots. -/
def ctlOf (s : State) (ops : List SlotOp) : Ctl :=
  ((ops.filter (·.on (cur s))).map (fun o => o.ctl s)).foldl (fun a b => if b = .seq then a else b) .seq

/-- What the executed slots add to ISSUED (R36). -/
def issuedOf (s : State) (ops : List SlotOp) : Nat := ((ops.filter (·.on (cur s))).map (fun o => o.issued s)).sum

/-- The matrix charge of the bundle, nullified or not (R131, R245). -/
def costOf (s : State) (ops : List SlotOp) : Option (Nat × Nat) := (ops.filterMap (fun o => o.cost s)).head?

/-- Step 7: the commit (R130, R131). -/
def commit (s : State) (ops : List SlotOp) : State :=
  let ctl := ctlOf s ops
  let c0 := cur s
  let s1 := settle s ops ctl (bundleOrder s ops (lates s ops (effects s ops s)))
  let s3 := modCur s1 (fun c =>
    let c := match costOf s ops with
      | some n => { c with debt := c.debt + n.1, gang := n.2, denied := false }
      | none => c
    let c := occupy s ops c
    let c := { c with joincnt := setFld c.joincnt 0 16 (fld c.joincnt 0 16 + issuedOf s ops) }
    { c with emuMask := if c.emuAct then c.emuMask else 0, skipBk := false, prd := none, probed := 0 })
  let s4 := if ops.any (fun o => o.on (cur s) && o.commits s) then setCommitted s3 s.cur else s3
  let s5 := control s4 (laterPreds s ops) ctl
  let s6 := modCur s5 tick
  bump (afterCommit s6 (repOff s c0) ctl)

/-- What the executed slots ask of the limits of R92. -/
def reqSum (s : State) (ops : List SlotOp) : Nat × Nat :=
  (ops.filter (·.on (cur s))).foldl (fun n o => (n.1 + (o.reqs s).1, n.2 + (o.reqs s).2)) (0, 0)

/-- The limits of R92 hold, and no acquire of an earlier bundle is still to perform (R186). -/
def roomOk (s : State) (ops : List SlotOp) : Bool :=
  let n := reqSum s ops
  n.1 = 0 ||
    (outCount s s.cur + n.1 ≤ 2048 && lehrRoom (cur s) + n.2 ≤ 262144 &&
      !s.reqs.any (fun r => r.core = s.cur && r.acq && r.stage = .out))

/-- The first read by request that the bundle needs (R199). -/
def preadOf (s : State) (ops : List SlotOp) : Option (Word × Nat) :=
  ((ops.filter (·.on (cur s))).filterMap (fun o => o.pread s)).head?

/-- That read leaves the core once, as its other requests do (R94, R98, R199, R203); the core waits for it. -/
def sendPread (s : State) (a : Word) (n : Nat) : State :=
  match (cur s).prd with
  | some _ => setCur s (frzLate (cur s))
  | none =>
    let p := newId s
    let c := cur s
    let loc := match chk s a 1 1 false with
      | .ok (.loc l) => some l
      | _ => none
    let r : Req :=
      { id := p.1, core := s.cur, kind := .load, addr := a, loc := loc, n := n, slack := rslk s, prio := c.trec.prio, gen := (ctx s c.ctx).gen
        ltag := c.ltag, ctx := c.ctx, dst := .poll, slot := if (sviOf s c).isSome then 0 else 3, frame := c.trec.w1, off := repOff s c
        npc := c.pc, deps := orderDeps s s.cur loc }
    modCur (addReq p.2 r) (fun c => frzLate { c with prd := some (p.1, none) })

/-- The issue of one bundle's slot instructions by the current core: R129, then the steps of R130. -/
def issue (ops : List SlotOp) (s : State) : State :=
  let c := cur s
  let bad := ops.filter (fun o => !masked c o.slot && !o.legal s)
  if ops.any (fun o => occupied c o.slot) then setCur s (frzBusy c)
  else if bad ≠ [] then undefAt s (bad.foldl (fun m o => setFld m o.slot 1 1) 0)
  else if ops.any (fun o => (o.res s).any (resBusy c o.mm)) then setCur s (frzBusy c)
  else if !roomOk s ops || ops.any (fun o => o.on c && !o.admits s) then setCur s (frzLate c)
  else match preadOf s ops with
  | some r => sendPread s r.1 r.2
  | none =>
  if ops.any (fun o => o.on c && decide (c.probed < o.probe s)) then setCur s (frzLate { c with probed := c.probed + 1 }) else
  match firstFault s (issuedOf s ops) ops (fld c.joincnt 0 16) with
  | some i => bump (faultAt (modCur s giveUp) i)
  | none =>
    if costOf s ops ≠ none ∧ c.al ≤ c.debt then setCur s (frzDeny c)
    else commit s ops

/-- The issue of a bundle with one instruction. -/
def issue1 (o : SlotOp) (s : State) : Host.Outcome State Fault Refusal := .next (issue [o] s)

end Sys2Proof.Machine
end

