-- ==== Sys2Proof/Machine/Atomic.lean ====
section
/-! DEFINITION. What happens at the homes: the atomic handlers (R110, R187 to R195), loads and stores performing (R94, R95),
replies, acknowledgements and completions (R90, R105, R36). -/
namespace Sys2Proof.Machine

/-! ## Headers (R398) -/

def hClass (h : BitVec 128) : Nat := fld h 0 2
def hExh (h : BitVec 128) : Bool := bit h 3
def hSlack (h : BitVec 128) : Nat := fld h 4 12
def hPrio (h : BitVec 128) : Nat := fld h 16 2
def hLane (h : BitVec 128) : Nat := fld h 18 2
def hDest (h : BitVec 128) : Nat := fld h 20 12
def hSrc (h : BitVec 128) : Nat := fld h 32 12
def hWin (h : BitVec 128) : Bool := bit h 44
def hAsid (h : BitVec 128) : Nat := fld h 48 16
def hKind (h : BitVec 128) : Nat := fld h 64 8
def hCid (h : BitVec 128) : Nat := fld h 72 8
def hTag (h : BitVec 128) : Nat := fld h 96 32

/-- A header from its fields. -/
def mkHdr (cls slack prio lane dest src asid kind score tag : Nat) (exh win : Bool) : BitVec 128 :=
  BitVec.ofNat 128 (cls + b2n exh * 2 ^ 3 + slack % 4096 * 2 ^ 4 + prio * 2 ^ 16 + lane * 2 ^ 18 + dest * 2 ^ 20 + src * 2 ^ 32 +
    b2n win * 2 ^ 44 + 2 ^ 45 + asid * 2 ^ 48 + kind * 2 ^ 64 + score % 512 * 2 ^ 80 + tag % 2 ^ 32 * 2 ^ 96)

/-! ## Routes (R395, R397) -/

/-- A coordinate as DEST and SRC hold it: x, y, z from the low bits up. -/
def meshCoord (x y z : Nat) : Nat := x + 16 * y + 256 * z
def myCoord (p : Plan) : Nat := meshCoord p.mx p.my p.mz

/-- The direction along one dimension, 0 for + and 1 for -, where distance remains. -/
def dimDir (size here dest : Nat) : Option Nat :=
  let d := (dest + size - here) % size
  if d = 0 then none else if 2 * d ≤ size then some 0 else some 1

/-- The minimal directions towards a coordinate, in the order X, Y, Z. -/
def minDirs (p : Plan) (dest : Nat) : List Nat :=
  [(dimDir p.dx p.mx (dest % 16), 0), (dimDir p.dy p.my (dest / 16 % 16), 2), (dimDir p.dz p.mz (dest / 256 % 16), 4)].filterMap
    (fun e => e.1.map (· + e.2))

/-- FPORTSTAT of port p. -/
def fport (s : State) (p : Nat) : Word := tget 0 s.hub.fport p
def setFport (s : State) (p : Nat) (v : Word) : State := { s with hub := { s.hub with fport := tset 0 s.hub.fport p v } }

/-- Flits of a packet: 64 bytes of payload each, a request's first eight its address (R399). -/
def Pkt.flits (p : Pkt) : Nat :=
  let k := hKind p.hdr
  if k = 33 ∨ k = 35 then (p.n + 71) / 64 else if k = 36 then Nat.max 1 ((p.n + 63) / 64) else 1

/-- A packet with its header's LAST, which is that of its first flit (R398). -/
def Pkt.fit (p : Pkt) : Pkt := { p with hdr := setFld p.hdr 45 1 (b2n (decide (p.flits = 1))) }

/-- `p` comes behind the packets that reached their arbiters before it, those of one flit time by input (R403). -/
def insPkt (p : Pkt) : List Pkt → List Pkt
  | [] => [p]
  | a :: t => if a.at_ < p.at_ ∨ (a.at_ = p.at_ ∧ a.inp ≤ p.inp) then a :: insPkt p t else p :: a :: t

/-- A packet begins to wait in a router at the present flit time. -/
def takeIn (s : State) (p : Pkt) : State := { s with pkts := insPkt { p with at_ := s.hub.flit }.fit s.pkts }

/-- A packet that the package itself makes waits for the injection arbiter of its lane (R403, R405): an answer or a WAKE, as its destination says. -/
def outReq (s : State) (r : Req) : State :=
  { s with nextId := s.nextId + 1, reqs := s.reqs ++ [{ r with id := s.nextId, stage := .done, arr := some s.nextId }] }

/-! ## Word handlers (R187) -/

/-- Signed and unsigned readings of the low k bits. -/
def sk (x k : Nat) : Int := sextI x k
def uk (x k : Nat) : Nat := x % 2 ^ k

/-- One lane of a packed saturating add of width m (R187). -/
def satLane (m a b : Nat) : Nat :=
  if a = naiCode m false ∨ b = naiCode m false then naiCode m false
  else ((sat (sextI a m + sextI b m) m) % (2 : Int) ^ m).toNat

/-- Packed saturating add of n lanes of width m. -/
def satLanes (m : Nat) : Nat → Nat → Nat → Nat
  | 0, _, _ => 0
  | n + 1, a, b => satLane m (a % 2 ^ m) (b % 2 ^ m) + 2 ^ m * satLanes m n (a / 2 ^ m) (b / 2 ^ m)

/-- Handler 22 on the old doubleword and the operand (R187). -/
def maxIndex (old op : Nat) : Nat :=
  let ov := nfld old 0 32
  let oi := nfld old 32 32
  let nv := nfld op 0 32
  let ni := nfld op 32 32
  let nan := 0x80000000
  if ov = nan ∨ nv = nan then
    nan + 2 ^ 32 * (if nv = nan ∧ (ov ≠ nan ∨ ni < oi) then ni else oi)
  else if sextI nv 32 > sextI ov 32 ∨ (nv = ov ∧ ni < oi) then op % 2 ^ 64
  else old

/-- Handler 23 on the old doubleword; `nai` marks a NaI contribution and `v` is the exact sum added (R111). -/
def wideAdd (old : Nat) (nai : Bool) (v : Int) : Nat :=
  if nai ∨ old = 2 ^ 63 then 2 ^ 63 else ((sat (sextI old 64 + v) 64) % (2 : Int) ^ 64).toNat

/-- Handler 26 on the old 16-byte entry (R190). -/
def censusMerge (old : BitVec 128) (op : Word) : BitVec 128 :=
  let n := if scCenv op then
      let a := if scCenv old = false ∨ scCen op < scCen old then setFld old 8 6 (scCen op) else old
      setFld a 14 1 1
    else old
  let n := scCount n (scSatc op) (scPois op)
  setFld n 0 8 (fld op 0 8)

/-- Handler 15 on the old 16-byte object: the new object and the status (R194). -/
def barArrive (old : BitVec 128) (cnt : Nat) : BitVec 128 × Nat :=
  if cnt = 0 then (old, 0) else
  let expect := fld old 0 16
  let total := fld old 16 16 + cnt
  if total < expect then (setFld old 16 16 total, 0)
  else
    let n := setFld (setFld old 16 16 0) 32 4 (fld old 32 4 + 1)
    if total > expect then (setFld (setFld n 36 1 1) 40 16 (Nat.min (fld old 40 16 + (total - expect)) 65535), 3)
    else (n, 2)

/-- Handler 16 on the old 16-byte object (R195). -/
def barReset (old : BitVec 128) (expect : Nat) (wake : Word) : BitVec 128 :=
  setFld (setFld (setFld (setFld (setFld old 0 16 expect) 16 16 0) 36 1 0) 40 16 0) 64 64 wake.toNat

/-- Handler 18 on the old line: the new line (R188). -/
def queuePush (old : Line) (op : Word) : Line :=
  let head := fld old 0 32
  let tail := fld old 32 32
  if (tail + 2 ^ 32 - head) % 2 ^ 32 < 8 then
    setFld (setFld old (512 + 64 * (tail % 8)) 64 op.toNat) 32 32 ((tail + 1) % 2 ^ 32)
  else old

/-- Handler 19 on the old line: the new line and the entry (R188). -/
def queuePop (old : Line) : Line × Nat :=
  let head := fld old 0 32
  let tail := fld old 32 32
  if tail = head then (old, 0)
  else (setFld old 0 32 ((head + 1) % 2 ^ 32), fld old (512 + 64 * (head % 8)) 64)

/-- The value that a word handler leaves at the location, for old value `old` of k bits (R187). -/
def wordNew (h k old op op2 : Nat) : Nat :=
  match h with
  | 0 => old
  | 1 => uk op k
  | 2 => uk op k
  | 3 => if old = uk op2 k then uk op k else old
  | 4 => uk (old + op) k
  | 5 => if old = naiCode k false ∨ uk op k = naiCode k false then naiCode k false
         else ((sat (sk old k + sk op k) k) % (2 : Int) ^ k).toNat
  | 6 => old &&& uk op k
  | 7 => old ||| uk op k
  | 8 => old ^^^ uk op k
  | 9 => if sk op k < sk old k then uk op k else old
  | 10 => if sk op k > sk old k then uk op k else old
  | 11 => if uk op k < old then uk op k else old
  | 12 => if uk op k > old then uk op k else old
  | 13 => if old < uk op k then old + 1 else old
  | 14 => if old > uk op k then old - 1 else old
  | 20 => satLanes 16 4 old op
  | 21 => satLanes 8 8 old op
  | 22 => maxIndex old op
  | 25 => old ||| 2 ^ (op % 64)
  | _ => old

/-- The nominal service time of a location's home, in ticks (R116, Table 9). DESIGN CHOICE (log entry 71): that of a cluster sequencer, the home of
an event post, is 1. -/
def nominalSvc (l : Nat) : Nat :=
  if l ≥ 2 ^ 53 ∧ l < 2 ^ 55 then 2
  else if l ≥ 2 ^ 52 then 1
  else match l / 2 ^ 50 % 4 with
    | 0 => 20
    | 1 => 50
    | _ => 120

/-- A completion on its way to a frame: reply bytes, then the join decrement (R36). -/
def addComp (s : State) (loc n : Nat) (v : Line) (frame : Word) (die : Nat) (owner : Option Nat) (cx : Nat) (tag : BitVec 16)
    (slack : Nat) (exh : Bool) : State :=
  let p := newId s
  { p.2 with comps := p.2.comps ++
    [{ id := p.1, what := .done, loc := loc, n := n, v := v, frame := frame, die := die, owner := owner, ltag := tag, ctx := cx, slack := slack
       exh := exh }] }

/-- A report-only fault of a request: of its task, or of the context alone for one that another package has sent, where a context of
its ASID is here (R140, R388). -/
def reportReq (s : State) (r : Req) (i : FaultInfo) : State :=
  match r.dst with
  | .remote _ => if r.ctx < 64 then reportCtx s r.ctx i 0 0 0 [] else s
  | .gen => reportLate s (r.core % 512) r.ctx r.ltag r.frame r.off i []
  | _ => reportLate s r.core r.ctx r.ltag r.frame r.off i []

/-- A WAKE as seen from core k: the join decrement, or its failure (R194). DESIGN CHOICE (log entry 65): the failure is FRAMEBAD, whatever rows
of R88 the WAKE breaks. -/
def wakeAt (s : State) (k cx : Nat) (tag : BitVec 16) (slack : Nat) (exh : Bool) (wake : Word) (fail : State → State) : State :=
  let f := frameCanon k wake
  if frameOk (ctxD s cx) (dieOf k) f then addComp s 0 0 0 f (dieOf k) none cx tag slack exh else fail s

/-- The WAKE of a completed phase: read here for a core of this package, sent back as a handler-17 packet to the package of a core of
another one (R194). -/
def wakeUp (s : State) (r : Req) (wake : Word) : State :=
  if wake = 0 then s else
  match r.dst with
  | .remote h => outReq s { r with kind := .amo, h := 17, addr := wake, acq := false, rel := false, deps := [], dst := .wake h }
  | _ => wakeAt s r.core r.ctx r.ltag r.slack r.exh wake
      (fun s => reportReq s r { code := .framebad, prec := 1, slot := r.slot, engine := 9, addr := wake, acc := 3, space := spc wake })

/-- The context that owns global cluster c and has the ASID of context cx (R191). DESIGN CHOICE (log entry 67): a system-level task posts under
the ASID of its context. -/
def clusterOwned (s : State) (cx c : Nat) : Bool :=
  (List.range 64).any (fun n => bit (ctxD s n 0) 24 && bit (ctxD s n 9) c && fld (ctxD s n 0) 0 16 = fld (ctxD s cx 0) 0 16)

/-- The cluster an event-post address names on this package (R191), as core k sees it. -/
def postClu (k : Nat) (a : Word) : Nat :=
  match spc a with
  | 2 => cluOf k
  | 6 => 16 * dieOf k + fld a 24 4
  | 4 => 16 * fld a 28 2 + fld a 0 4
  | _ => fld a 0 6

/-- What an atomic does at its home, at location l: the state and the result of up to 128 bits (R187 to R195). -/
def amoApply (s : State) (r : Req) (l : Nat) : State × Nat :=
  let op := r.op.toNat
  let op2 := r.op2.toNat
  match r.h with
  | 15 =>
    let old := BitVec.ofNat 128 (rd s l 16)
    let n := barArrive old (op % 65536)
    let s := wr s l 16 n.1.toNat
    let s := if n.2 ≥ 2 then wakeUp s r (BitVec.ofNat 64 (fld old 64 64)) else s
    (s, old.toNat ||| n.2 * 2 ^ 37)
  | 16 =>
    let old := BitVec.ofNat 128 (rd s l 16)
    (wr s l 16 (barReset old (op % 65536) r.op2).toNat, old.toNat)
  | 17 =>
    let f := frameCanon r.core r.addr
    let w2 := (rdRec s (frameHome s r.ctx (dieOf r.core) f)).w2
    (joinDec s r.ctx (dieOf r.core) f, w2.toNat)
  | 18 =>
    let old := BitVec.ofNat 1024 (rd s l 128)
    (wr s l 128 (queuePush old r.op).toNat, fld old 0 64)
  | 19 =>
    let old := BitVec.ofNat 1024 (rd s l 128)
    let n := queuePop old
    (wr s l 128 n.1.toNat, n.2 + 2 ^ 64 * fld old 0 64)
  | 23 =>
    let old := rd s l 8
    let v : Int := if r.op2 = 0 then sextI op 32 else sextI op 48
    let nai := if r.op2 = 0 then decide (op % 2 ^ 32 = 0x80000000) else decide (r.op3 ≠ 0)
    (wr s l 8 (wideAdd old nai v), old)
  | 24 =>
    let old := rd s l 16
    let s := if old = r.op4.toNat * 2 ^ 64 + r.op3.toNat then wr s l 16 (op2 * 2 ^ 64 + op) else s
    (s, old)
  | 26 =>
    let old := BitVec.ofNat 128 (rd s l 16)
    (wr s l 16 (censusMerge old r.op).toNat, fld old 0 64)
  | 27 =>
    let c := postClu r.core r.addr
    if clusterOwned s r.ctx c then (evSet s c (fld r.op 32 3) (BitVec.ofNat 32 op), 0)
    else (reportReq s r { code := .evperm, prec := 1, slot := r.slot, engine := 9, addr := r.addr, acc := 3, space := spc r.addr }, 0)
  | h =>
    let old := rd s l r.n
    (wr s l r.n (wordNew h (8 * r.n) old op op2), if h = 1 then 0 else old)

/-! ## Performing (R94, R95, R116, R140, R388) -/

/-- An exhausted reply is counted, and sets an event bit where the task has enabled that (R119). -/
def exhReply (s : State) (k : Nat) (exh : Bool) : State :=
  if exh ∧ k < 512 then
    let s := modCore s k (fun c => { c with slkstat := satAdd c.slkstat 0 32 })
    let x := (core s k).slkstat
    if bit x 32 then evSet s (cluOf k) (fld x 33 3) (BitVec.ofNat 32 (2 ^ fld x 36 5)) else s
  else s

/-- The answer of an access for core k whose request has waited t ticks in queues with a slack (R114, R119). -/
def exhWaited (s : State) (k slack t : Nat) : State :=
  let x := (core s k).slkstat
  let exh := decide (slack < t)
  let t := modCore s k (fun c => { c with slkstat := if exh then satAdd x 0 32 else x })
  { t with clus := if exh && bit x 32 then (evSet t (cluOf k) (fld x 33 3) (BitVec.ofNat 32 (2 ^ fld x 36 5))).clus else t.clus }

/-- The context of this package that serves a space 0x5 request of context cx's ASID (R381). -/
def asidCtx (s : State) (asid : Nat) : Option Nat :=
  (List.range 64).find? (fun n => bit (ctxD s n 0) 24 && fld (ctxD s n 0) 0 16 = asid)

/-- The location a request performs at: known since its issue, or translated here on its target (R381). -/
def reqLoc (s : State) (r : Req) : Except WFail Nat :=
  match r.loc with
  | some l => .ok l
  | none =>
    match asidCtx s (fld (ctxD s r.ctx 0) 0 16) with
    | none => .error ⟨.pgnp, 3, 0⟩
    | some n => xlate s noTlb n (ctxD s n 5) (fld r.addr 0 48) (match r.kind with
      | .load => false
      | .store => true
      | .amo => r.h ≠ 0)

/-! ## Urgency and home service queues (R117, R403) -/

/-- What an arbiter compares of a waiting request or packet: EXH, slack, PRIO, and the grants it has made to others since it came. -/
structure Urg where
  exh : Bool
  slack : Nat
  prio : Nat
  seen : Nat
  deriving DecidableEq, Repr

/-- Rules 2 to 4 of R117: `a` goes before an older `b`. -/
def Urg.beats (a b : Urg) : Bool :=
  if a.exh ∨ b.exh then a.exh && !b.exh
  else if a.slack ≠ b.slack then decide (a.slack < b.slack)
  else decide (b.prio < a.prio)

/-- What an arbiter grants among those that wait, oldest first (R117). -/
def grantBy {α : Type} (u : α → Urg) : List α → Option α
  | [] => none
  | o :: t => if 15 ≤ (u o).seen then some o else some (t.foldl (fun b p => if (u p).beats (u b) then p else b) o)

/-- The home of a location: scratchpads by core, rings from 512, HBM from 516, the LPDDR of the package 520, host memory 521, cluster
sequencers from 522 (R94, R376). -/
def homeOf (l : Nat) : Nat :=
  if 2 ^ 55 ≤ l then 522 + (l - 2 ^ 55) / 128
  else if 2 ^ 53 ≤ l then 512 + (l - 2 ^ 53) / 2 ^ 28
  else if 2 ^ 52 ≤ l then (l - 2 ^ 52) / 2 ^ 22
  else match l / 2 ^ 50 % 4 with
    | 0 => 516 + nfld l 38 2
    | 1 => 520
    | _ => 521

/-- The home at which a request waits; one that fails its translation on this package waits at none. -/
def Req.home (s : State) (r : Req) : Option Nat :=
  match r.h, reqLoc s r with
  | 27, _ => some (522 + postClu r.core r.addr)
  | _, .ok l => some (homeOf l)
  | _, .error _ => none

/-- `r` comes behind those of a list that came before it: a request of the package waits for its injection from its issue on. -/
def insArr (r : Req) : List Req → List Req
  | [] => [r]
  | a :: t => if a.arr.getD a.id ≤ r.arr.getD r.id then a :: insArr r t else r :: a :: t

/-- The requests that wait at home h, oldest first. -/
def homeQueue (s : State) (h : Nat) : List Req :=
  (s.reqs.filter (fun r => r.stage = .out && r.arr.isSome && !r.go && r.home s = some h)).foldl (fun l r => insArr r l) []

/-- The urgency of a waiting request (R117). -/
def Req.urg (r : Req) : Urg := ⟨r.exh, r.slack, r.prio, r.seen⟩

/-- The runs of bytes that a request reads or writes, as location and length (R228). -/
def Req.runs (r : Req) (l : Nat) : List (Nat × Nat) :=
  if r.kind ≠ .load ∨ r.act = [] then [(l, r.n)] else r.act.map (fun e => (l + e.1, e.2))

/-- A request may go to its home here: it is under way, its home is in this package, and every request it must follow has performed
(R97 to R103). -/
def canGo (s : State) (r : Req) : Bool :=
  r.stage = .out && performed s r.deps && (!r.rel || r.deps.isEmpty) && (r.loc.isSome || !offPackage s r.ctx r.addr)

/-- PACKET_ARRIVAL at a home: the request begins to wait among at most 64 (R403). -/
def homeArrive (s : State) (id : Nat) : State :=
  match findReq s id with
  | some r =>
    if canGo s r = false ∨ r.arr.isSome then s
    else match r.home s with
    | none => setReq s id (fun r => { r with arr := some s.nextId, go := true })
    | some h =>
      if 64 ≤ (homeQueue s h).length then s
      else setReq { s with nextId := s.nextId + 1 } id (fun r => { r with arr := some s.nextId })
  | none => s

/-- ARBITER_GRANT at home h: one waiting request begins service (R117). -/
def homeGrant (s : State) (h : Nat) : State :=
  let q := homeQueue s h
  match grantBy Req.urg q with
  | none => s
  | some g =>
    let ids := q.map (·.id)
    { s with reqs := s.reqs.map (fun r =>
        if r.id = g.id then { r with go := true } else if ids.contains r.id then { r with seen := r.seen + 1 } else r) }

/-- A request that has performed: its reply leaves with the slack of R116. -/
def served (s : State) (r : Req) (l t : Nat) (res : Line) : State :=
  let sl := r.slack - (t - nominalSvc l)
  match r.dst with
  | .slot loc n f => delReq (addComp s loc n res f (dieOf r.core) (some r.core) r.ctx r.ltag sl r.exh) r.id
  | _ => setReq s r.id (fun r => { r with stage := .done, res := res, slack := sl, seen := 0, arr := some s.nextId })

/-- Every code. -/
def allCodes : List Code :=
  [.undef, .priv, .codebnd, .pcalign, .addrspace, .bound, .align, .pgnp, .ptebad, .permr, .permw, .pgcow, .uecc, .frzto,
    .trap, .bkpt, .emustate, .emulnest, .sviill, .loopnest, .loopbody, .joinovf, .joinpend, .joinuf, .accheld, .accbank,
    .accfull, .accfree, .recbad, .framebad, .qovf, .qspflt, .amobad, .evperm, .tilearg, .mmaarg, .mmafmt, .ragged, .scfmt,
    .scidx, .scarg, .vconfig, .vreg, .ecfg, .qbind, .qfmt, .groupmem, .publen, .tiwop, .tiwlevel, .tiwflag, .tiwbad, .tiwgrp,
    .tiwexp, .descbad, .descdim, .descfmt, .stage, .groupbad, .groupov, .lrecbad, .saveflt] ++
  [.cmdpriv, .cmdbad, .ctxbusy, .ctxbad, .clbusy, .qroom, .timeout, .savefull, .stopfail, .nofault, .commit, .lqovf, .fltovf,
    .pubenc, .pubsys, .pubtgt, .pubread, .pubfull]

/-- A failure as a reply from another package carries it: code and walk level. -/
def failWord (f : WFail) : Word := BitVec.ofNat 64 (f.code.num + f.lvl * 2 ^ 16)
def failOf (w : Word) : WFail := ⟨((allCodes.find? (fun c => c.num = fld w 0 16)).getD .pgnp), fld w 16 2, 0⟩

/-- A fault found after commit that stops the task: it is recorded at once, and its trap waits for R136 unless the task already stops (R140,
R388, R394). -/
def lateTrap (s : State) (k : Nat) (t : Trap) : State :=
  let c := core s k
  if c.trap = none ∧ (c.run = .running ∨ c.run = .ending) then pendTrap s k t
  else modCore (report s k t.info true t.off t.links) k (fun c => { c with lost := c.lost || t.info.code.fatal })

/-- The registers of landing entry l keep their values: the SVI instruction that it belongs to has failed, and is run again (R318). -/
def voidLand (c : Core) (l : Nat) : Core :=
  { c with land := c.land.map (fun e => if e.id = l then { e with dead := e.dst.names.map (·.2) ++ e.dead } else e) }

/-- The failure of the read that a waiting `qpush`, `tpost` or `tix` has sent, or of one that its bundle has given up (R132, R199): nothing is
reported here, since the instruction faults itself. -/
def isPread (r : Req) : Bool := decide (r.dst = .poll) && !decide (r.n = 8)

/-- The copy that a generator's request is part of: its number and the status word of its channel (R251). -/
def copyOf (s : State) (r : Req) : Nat × Word :=
  ((core s (r.core % 512)).ch.findSome? (fun e => e.2.live.bind (fun p =>
    (p.far.find? (fun f => f.ids.contains r.id)).map (fun f => (f.i, estatWord e.2))))).getD (0, 0)

/-- What a record says of a failed request (Table 6 of chapter 17). -/
def reqInfo (s : State) (r : Req) (f : WFail) : FaultInfo :=
  { code := f.code, prec := 1, slot := r.slot, addr := r.addr, space := spc r.addr, wlvl := f.lvl, pa := f.pa
    engine := if r.kind = .amo ∧ r.dst ≠ .gen then 9 else r.eng
    ecmd := if r.eng = 6 then (copyOf s r).1 else 0
    estat := if r.eng = 6 then (copyOf s r).2 else 0
    acc := match r.kind with
      | .load => 0
      | .store => 1
      | .amo => 3 }

/-- A fault found after commit (R140, R388): report-only for posted requests and split-phase data, stopping for
landing-class ones, whose destination is undefined; one whose task already stops is recorded at once. The reply carries the slack of
R116. DESIGN CHOICE (log entry 11): the failure of a request of another package goes back with its reply, and is recorded there. -/
def failReq (s : State) (r : Req) (t : Nat) (f : WFail) : State :=
  let sl := r.slack - (t - (r.loc.map nominalSvc).getD 0)
  let s := if isPread r then s else countErr s f.code
  let i := reqInfo s r f
  let back := fun (s : State) => setReq s r.id (fun r =>
    { r with stage := .done, bad := true, slack := sl, op := failWord f, op2 := BitVec.ofNat 64 f.pa, seen := 0, arr := some s.nextId })
  match r.dst with
  | .land l _ =>
    let s := back s
    let c := core s r.core
    if r.slot = 0 then
      let s := setCore s r.core (voidLand (if c.trap = none then { c with resume := r.npc } else c) l)
      lateTrap s r.core { info := { i with prec := 0 }, off := r.off, next := true }
    else lateTrap s r.core { info := i, off := r.off }
  | .remote _ => back s
  | .gen =>
    let s := if s.tiles.any (fun w => w.far.contains r.id) then s else reportReq s r i
    back s
  | .slot loc n fr =>
    let s := reportReq s r i
    delReq (addComp s loc n (BitVec.ofNat 1024 (freeN s r.id)) fr (dieOf r.core) (some r.core) r.ctx r.ltag sl r.exh) r.id
  | _ => back (if isPread r then s else reportReq s r i)

/-- A range cut at 128-byte lines. -/
def cutLines : Nat → Word → Nat → List (Word × Nat)
  | 0, _, _ => []
  | k + 1, a, n =>
    let r := 128 - a.toNat % 128
    if n = 0 then [] else if n ≤ r then [(a, n)] else (a, r) :: cutLines k (a + BitVec.ofNat 64 r) (n - r)

/-- The pieces of a range with their bytes of a number. -/
def cutVal : List (Word × Nat) → Nat → List (Word × Nat × Nat)
  | [], _ => []
  | (a, n) :: t, v => (a, n, v % 2 ^ (8 * n)) :: cutVal t (v / 2 ^ (8 * n))

/-- Requests like `b` of a generator or a sequencer to another package, one for each piece of a range (R396, R399). -/
def farReqs (b : Req) : List (Word × Nat × Nat) → State → State × List Nat
  | [], s => (s, [])
  | (a, n, v) :: t, s =>
    let r : Req := { b with id := s.nextId, addr := a, n := n, wr := if b.kind = .store then bytesOf 0 n v else [] }
    let x := farReqs b t (addReq { s with nextId := s.nextId + 1 } r)
    (x.1, s.nextId :: x.2)

/-- The reply among `own` that holds the byte at address a. -/
def farReply (own : List Req) (a : Word) : Option Req :=
  own.find? (fun r => decide (r.addr.toNat ≤ a.toNat) && decide (a.toNat < r.addr.toNat + r.n))

/-- The byte at address a that the replies `own` of other packages hold; a reply that reports a failure has no data. -/
def farByte (own : List Req) (a : Word) : Option Nat :=
  match farReply own a with
  | some r => if r.bad then none else some (fld r.res (8 * (a.toNat - r.addr.toNat)) 8)
  | none => none

/-- Requests leave the list of those in flight. -/
def dropReqs (s : State) (ids : List Nat) : State := { s with reqs := s.reqs.filter (fun r => !ids.contains r.id) }

/-- A request may perform here: its home has granted it (R117), and every request it must follow has performed (R97 to R103). -/
def canPerform (s : State) (r : Req) : Bool := r.go && canGo s r

/-- What follows an atomic at location l besides its own effect (R30, R302, R347, R410). -/
def amoDone (s : State) (r : Req) (l : Nat) : State := if r.h = 0 ∨ r.h = 17 then softTouch s l r.n else softDone s l r.n

/-- The performing of request r. -/
def performReq (s : State) (r : Req) (t : Nat) : State :=
  match r.kind, r.h, reqLoc s r with
  | .amo, 27, _ =>
    let x := amoApply s r 0
    served x.1 r (evLoc 0) t (BitVec.ofNat 1024 x.2)
  | _, _, .error f => bump (failReq s r t f)
  | .store, _, .ok l => served (softWrite s l r.n r.wr) r l t 0
  | k, _, .ok l =>
    match (r.runs l).findSome? (fun e => errIn s e.1 e.2) with
    | some w => bump (failReq s r t (ueccFail 0 w))
    | none =>
      if k = .load then served ((r.runs l).foldl (fun s e => softTouch s e.1 e.2) s) r l t (BitVec.ofNat 1024 (rd s l r.n))
      else
        let x := amoApply s r l
        served (amoDone x.1 r l) r l t (BitVec.ofNat 1024 x.2)

/-- A request of a kind and handler performs when it may; otherwise nothing happens. -/
def performAs (kd : ReqKind) (h id t : Nat) (s : State) : State :=
  match findReq s id with
  | some r => if r.kind = kd ∧ (kd ≠ .amo ∨ r.h = h) ∧ canPerform s r then performReq s r t else s
  | none => s

/-! ## Replies and acknowledgements (R90, R105, R119) -/

/-- Data enters the lehr (R90); data of a failed request is undefined (R388). -/
def fillPart (s : State) (k l i : Nat) (d : Line) : State :=
  modCore s k (fun c => { c with land := c.land.map (fun e =>
    if e.id = l then { e with parts := e.parts.modify i (fun p => { p with data := some d }) } else e) })

/-- REPLY_ARRIVAL (R90). -/
def replyStep (s : State) (id : Nat) : State :=
  match findReq s id with
  | some r =>
    match r.stage, r.dst with
    | .done, .land l i =>
      let d := if r.bad then BitVec.ofNat 1024 (freeN s id) else r.res
      bump (exhReply (delReq (fillPart s r.core l i d) id) r.core r.exh)
    | .done, .poll =>
      let d := if r.bad then PRead.fail (failOf r.op).code (failOf r.op).lvl r.op2.toNat else .data r.res
      if ((core s r.core).prd.map (·.1)) = some id then
        bump (exhReply (delReq (modCore s r.core (fun c => { c with prd := some (id, some d) })) id) r.core r.exh)
      else s
    | _, _ => s
  | none => s

/-- ACKNOWLEDGEMENT_ARRIVAL (R105). -/
def ackStep (s : State) (id : Nat) : State :=
  match findReq s id with
  | some r =>
    match r.stage, r.dst with
    | .done, .none => exhReply (delReq s id) r.core r.exh
    | _, _ => s
  | none => s

/-- RELEASE_ISSUE (R186): the held release atomic leaves the egress. -/
def releaseStep (s : State) (id : Nat) : State :=
  match findReq s id with
  | some r => if r.rel ∧ r.stage = .out ∧ performed s r.deps then setReq s id (fun r => { r with deps := [] }) else s
  | none => s

/-- ACQUIRE_PERFORMED (R186): an acquire that has performed no longer holds later requests. -/
def acquireStep (s : State) (id : Nat) : State :=
  match findReq s id with
  | some r => if r.acq ∧ r.stage = .done then setReq s id (fun r => { r with acq := false }) else s
  | none => s

/-- JOIN_DEC of a completion: the reply is written, then the frame is decremented (R36). -/
def joinStep (s : State) (id : Nat) : State :=
  match s.comps.find? (fun c => c.id = id) with
  | some c =>
    if c.what = .done ∧ performed s c.deps then
      let s := if c.n = 0 then s else wr s c.loc c.n c.v.toNat
      let s := { s with comps := s.comps.filter (fun x => x.id ≠ id) }
      let s := match c.owner with
        | some k => exhReply s k c.exh
        | none => s
      joinDec s c.ctx c.die c.frame
    else s
  | none => s

/-! ## Meanings -/

def execMemoryLoadPerform (id t : Nat) (s : State) : Host.Outcome State Fault Refusal := .next (performAs .load 0 id t s)
def execMemoryStorePerform (id t : Nat) (s : State) : Host.Outcome State Fault Refusal := .next (performAs .store 0 id t s)
def execReplyArrival (id : Nat) (s : State) : Host.Outcome State Fault Refusal := .next (replyStep s id)
def execAcknowledgementArrival (id : Nat) (s : State) : Host.Outcome State Fault Refusal := .next (ackStep s id)
def execReleaseIssue (id : Nat) (s : State) : Host.Outcome State Fault Refusal := .next (releaseStep s id)
def execAcquirePerformed (id : Nat) (s : State) : Host.Outcome State Fault Refusal := .next (acquireStep s id)
def execAmoLoad (id t : Nat) (s : State) : Host.Outcome State Fault Refusal := .next (performAs .amo 0 id t s)
def execAmoStore (id t : Nat) (s : State) : Host.Outcome State Fault Refusal := .next (performAs .amo 1 id t s)
def execAmoSwap (id t : Nat) (s : State) : Host.Outcome State Fault Refusal := .next (performAs .amo 2 id t s)
def execAmoCas (id t : Nat) (s : State) : Host.Outcome State Fault Refusal := .next (performAs .amo 3 id t s)
def execAmoAdd (id t : Nat) (s : State) : Host.Outcome State Fault Refusal := .next (performAs .amo 4 id t s)
def execAmoSaturatingAdd (id t : Nat) (s : State) : Host.Outcome State Fault Refusal := .next (performAs .amo 5 id t s)
def execAmoAnd (id t : Nat) (s : State) : Host.Outcome State Fault Refusal := .next (performAs .amo 6 id t s)
def execAmoOr (id t : Nat) (s : State) : Host.Outcome State Fault Refusal := .next (performAs .amo 7 id t s)
def execAmoXor (id t : Nat) (s : State) : Host.Outcome State Fault Refusal := .next (performAs .amo 8 id t s)
def execAmoSignedMin (id t : Nat) (s : State) : Host.Outcome State Fault Refusal := .next (performAs .amo 9 id t s)
def execAmoSignedMax (id t : Nat) (s : State) : Host.Outcome State Fault Refusal := .next (performAs .amo 10 id t s)
def execAmoUnsignedMin (id t : Nat) (s : State) : Host.Outcome State Fault Refusal := .next (performAs .amo 11 id t s)
def execAmoUnsignedMax (id t : Nat) (s : State) : Host.Outcome State Fault Refusal := .next (performAs .amo 12 id t s)
def execFetchIncrementWithBound (id t : Nat) (s : State) : Host.Outcome State Fault Refusal := .next (performAs .amo 13 id t s)
def execFetchDecrementWithFloor (id t : Nat) (s : State) : Host.Outcome State Fault Refusal := .next (performAs .amo 14 id t s)
def execBarrierArrive (id t : Nat) (s : State) : Host.Outcome State Fault Refusal := .next (performAs .amo 15 id t s)
def execBarrierReset (id t : Nat) (s : State) : Host.Outcome State Fault Refusal := .next (performAs .amo 16 id t s)
def execJoinDec (id t : Nat) (s : State) : Host.Outcome State Fault Refusal :=
  .next (if s.comps.any (fun c => c.id = id) then joinStep s id else performAs .amo 17 id t s)
def execQueuePush (id t : Nat) (s : State) : Host.Outcome State Fault Refusal := .next (performAs .amo 18 id t s)
def execQueuePop (id t : Nat) (s : State) : Host.Outcome State Fault Refusal := .next (performAs .amo 19 id t s)
def execPackedSatAddInt16 (id t : Nat) (s : State) : Host.Outcome State Fault Refusal := .next (performAs .amo 20 id t s)
def execPackedSatAddInt8 (id t : Nat) (s : State) : Host.Outcome State Fault Refusal := .next (performAs .amo 21 id t s)
def execMaxWithIndex (id t : Nat) (s : State) : Host.Outcome State Fault Refusal := .next (performAs .amo 22 id t s)
def execWideAdd (id t : Nat) (s : State) : Host.Outcome State Fault Refusal := .next (performAs .amo 23 id t s)
def execCas128 (id t : Nat) (s : State) : Host.Outcome State Fault Refusal := .next (performAs .amo 24 id t s)
def execBitTestAndSet (id t : Nat) (s : State) : Host.Outcome State Fault Refusal := .next (performAs .amo 25 id t s)
def execCensusMinMerge (id t : Nat) (s : State) : Host.Outcome State Fault Refusal := .next (performAs .amo 26 id t s)
def execEventPost (id t : Nat) (s : State) : Host.Outcome State Fault Refusal := .next (performAs .amo 27 id t s)

end Sys2Proof.Machine
end

