-- ==== Sys2Proof/Machine/Crypto.lean ====
section
/-! DEFINITION. The digests and signatures of the hub's mask ROM (R351, R419 to R422): SHA-512 (FIPS 180-4), RSASSA-PSS and MGF1 (RFC 8017),
HKDF (RFC 5869) and ECDSA on the curve P-384 (FIPS 186-5). The spec names these standards, and each definition follows its standard. -/
namespace Sys2Proof.Machine

/-! ## Octet strings -/

/-- A number as n octets, the most significant first. -/
def octets : Nat → Nat → List Byte
  | 0, _ => []
  | n + 1, v => octets n (v / 256) ++ [BitVec.ofNat 8 v]
/-- The number of octets, the most significant first. -/
def octNum (l : List Byte) : Nat := l.foldl (fun v b => v * 256 + b.toNat) 0
def octXor (a b : List Byte) : List Byte := List.zipWith (· ^^^ ·) a b
/-- The little-endian number of octets (R89). -/
def leNum (l : List Byte) : Nat := octNum l.reverse

/-! ## SHA-512 -/

/-- The largest r + x, x below 2^b, whose k-th power is at most n. -/
def rootFrom (k n : Nat) : Nat → Nat → Nat
  | 0, r => r
  | b + 1, r => rootFrom k n b (if (r + 2 ^ b) ^ k ≤ n then r + 2 ^ b else r)

/-- The first 80 primes. -/
def primes80 : List Nat := (List.range 410).filter (fun n => decide (2 ≤ n) && (List.range n).all (fun d => decide (d < 2) || decide (n % d ≠ 0)))
/-- The first 64 bits of the fraction of the k-th root of p. -/
def rootFrac (k p : Nat) : Word := BitVec.ofNat 64 (rootFrom k (p * 2 ^ (64 * k)) 70 0)
/-- The constants of the rounds and the initial value. -/
def shaK : List Word := primes80.map (rootFrac 3)
def shaInit : List Word := (primes80.take 8).map (rootFrac 2)

/-- The message schedule, newest word first, by n more words. -/
def shaSchedule : Nat → List Word → List Word
  | 0, l => l
  | n + 1, l =>
    let w := fun i => l.getD i 0
    let s0 := (w 14).rotateRight 1 ^^^ (w 14).rotateRight 8 ^^^ w 14 >>> 7
    let s1 := (w 1).rotateRight 19 ^^^ (w 1).rotateRight 61 ^^^ w 1 >>> 6
    shaSchedule n ((s1 + w 6 + s0 + w 15) :: l)

/-- One round on the eight working variables; kw is the sum of the constant and the schedule's word. -/
def shaRound (h : List Word) (kw : Word) : List Word :=
  match h with
  | [a, b, c, d, e, f, g, x] =>
    let t1 := x + (e.rotateRight 14 ^^^ e.rotateRight 18 ^^^ e.rotateRight 41) + ((e &&& f) ^^^ (~~~e &&& g)) + kw
    let t2 := (a.rotateRight 28 ^^^ a.rotateRight 34 ^^^ a.rotateRight 39) + ((a &&& b) ^^^ (a &&& c) ^^^ (b &&& c))
    [t1 + t2, a, b, c, d + t1, e, f, g]
  | _ => h

/-- One block of 128 octets. -/
def shaBlock (h : List Word) (m : List Byte) : List Word :=
  let w := (List.range 16).map (fun i => BitVec.ofNat 64 (octNum ((m.drop (8 * i)).take 8)))
  let kw := List.zipWith (· + ·) shaK (shaSchedule 64 w.reverse).reverse
  List.zipWith (· + ·) h (kw.foldl shaRound h)

/-- n blocks. -/
def shaBlocks : Nat → List Word → List Byte → List Word
  | 0, h, _ => h
  | n + 1, h, m => shaBlocks n (shaBlock h (m.take 128)) (m.drop 128)

/-- SHA-512 as 64 octets. -/
def sha512L (m : List Byte) : List Byte :=
  let pad := m ++ [0x80] ++ List.replicate ((239 - m.length % 128) % 128) 0 ++ octets 16 (8 * m.length)
  (shaBlocks (pad.length / 128) shaInit pad).flatMap (fun w => octets 8 w.toNat)

/-- SHA-512 as the spec's registers and reports hold it: octet 0 in bits [7:0] (R89). -/
def sha512 (m : List Byte) : BitVec 512 := BitVec.ofNat 512 (leNum (sha512L m))

/-! ## RSASSA-PSS with SHA-512, MGF1 with SHA-512 and a 64-byte salt (R419) -/

/-- b to the power e modulo m, e below 2^f. -/
def powMod (m b : Nat) : Nat → Nat → Nat
  | 0, _ => 1 % m
  | f + 1, e =>
    let h := powMod m b f (e / 2)
    if e % 2 = 1 then h * h % m * b % m else h * h % m

/-- MGF1. -/
def mgf1 (seed : List Byte) (n : Nat) : List Byte := ((List.range (n / 64 + 1)).flatMap (fun i => sha512L (seed ++ octets 4 i))).take n

/-- EMSA-PSS-VERIFY of an encoded message of `bits` bits. -/
def pssEncoded (msg em : List Byte) (bits : Nat) : Bool :=
  let n := em.length
  let top := 8 * n - bits
  let db := octXor (em.take (n - 65)) (mgf1 ((em.drop (n - 65)).take 64) (n - 65))
  let db := octets (n - 65) (octNum db % 2 ^ (8 * (n - 65) - top))
  let salt := db.drop (n - 65 - 64)
  decide (130 ≤ n) && decide (em.getLast? = some 0xBC) && decide (octNum (em.take 1) / 2 ^ (8 - top) = 0) &&
    decide (db.take (n - 65 - 64) = octets (n - 65 - 64) 1) &&
    decide ((em.drop (n - 65)).take 64 = sha512L (List.replicate 8 0 ++ sha512L msg ++ salt))

/-- RSASSA-PSS-VERIFY with public exponent 65,537. -/
def pssVerifies (modulus msg sig : List Byte) : Bool :=
  let n := octNum modulus
  let bits := n.log2
  let m := powMod n (octNum sig) 17 65537
  decide (octNum sig < n) && decide (m < 256 ^ ((bits + 7) / 8)) && pssEncoded msg (octets ((bits + 7) / 8) m) bits

/-! ## HKDF with SHA-512 (R420) -/

def hmac512 (key msg : List Byte) : List Byte :=
  let k := (if 128 < key.length then sha512L key else key)
  let k := k ++ List.replicate (128 - k.length) 0
  sha512L (k.map (· ^^^ 0x5C) ++ sha512L (k.map (· ^^^ 0x36) ++ msg))

/-- The first 64 octets of the output. -/
def hkdf64 (salt ikm info : List Byte) : List Byte := hmac512 (hmac512 salt ikm) (info ++ [1])

/-! ## ECDSA on P-384 (R420, R422) -/

def p384P : Nat := 2 ^ 384 - 2 ^ 128 - 2 ^ 96 + 2 ^ 32 - 1
def p384N : Nat := 0xFFFFFFFFFFFFFFFFFFFFFFFFFFFFFFFFFFFFFFFFFFFFFFFFC7634D81F4372DDF581A0DB248B0A77AECEC196ACCC52973
def p384G : Nat × Nat :=
  (0xAA87CA22BE8B05378EB1C71EF320AD746E1D3B628BA79B9859F741E082542A385502F25DBF55296C3A545E3872760AB7,
   0x3617DE4A96262C6F5D9E98BF9292DC29F8F41DBD289A147CE9DA3113B5F0B8C00A60B1CE1D7E819D7A431D7C90EA0E5F)

/-- The inverse modulo a prime of 384 bits. -/
def inv384 (m a : Nat) : Nat := powMod m a 384 (m - 2)

/-- Point addition; none is the point at infinity. -/
def ecAdd (a b : Option (Nat × Nat)) : Option (Nat × Nat) :=
  match a, b with
  | none, b => b
  | a, none => a
  | some (x1, y1), some (x2, y2) =>
    let p := p384P
    if x1 = x2 ∧ (y1 + y2) % p = 0 then none
    else
      let l := if x1 = x2 then (3 * x1 * x1 + (p - 3)) * inv384 p (2 * y1 % p) % p
        else (y2 + p - y1) * inv384 p ((x2 + p - x1) % p) % p
      let x3 := (l * l + 2 * p - x1 - x2) % p
      some (x3, (l * (x1 + p - x3) + p - y1) % p)

/-- e times a point, e below 2^f. -/
def ecMul (a : Option (Nat × Nat)) : Nat → Nat → Option (Nat × Nat)
  | 0, _ => none
  | f + 1, e =>
    let h := ecMul a f (e / 2)
    if e % 2 = 1 then ecAdd (ecAdd h h) a else ecAdd h h

/-- The number signed for a message: the first 384 bits of its digest. -/
def ecHash (msg : List Byte) : Nat := octNum ((sha512L msg).take 48)

/-- A signature with key d and per-message number k, none where the standard asks for another k: r and s in 48 octets each. -/
def ecSign (d k : Nat) (msg : List Byte) : Option (List Byte) :=
  match ecMul (some p384G) 384 k with
  | none => none
  | some (x, _) =>
    let r := x % p384N
    let s := inv384 p384N (k % p384N) * (ecHash msg + r * d) % p384N
    if r = 0 ∨ s = 0 then none else some (octets 48 r ++ octets 48 s)

/-- A signature verifies under a public point. -/
def ecVerifies (q : Option (Nat × Nat)) (msg sig : List Byte) : Bool :=
  let r := octNum (sig.take 48)
  let s := octNum (sig.drop 48)
  let w := inv384 p384N s
  let v := ecAdd (ecMul (some p384G) 384 (ecHash msg * w % p384N)) (ecMul q 384 (r * w % p384N))
  decide (sig.length = 96) && decide (0 < r) && decide (r < p384N) && decide (0 < s) && decide (s < p384N) &&
    decide (v.elim 0 (·.1) % p384N = r) && v.isSome

/-! ## The identity of the package (R420, R421) -/

/-- The identity key pair, derived from the device secret: the private number and the public point. -/
def identityKey : Nat := 1 + octNum (hkdf64 Config.hkdfSalt (octets 64 Config.deviceSecret.toNat) Config.hkdfInfo) % (p384N - 1)
def identityPoint : Option (Nat × Nat) := ecMul (some p384G) 384 identityKey

/-- A public key as octets: 4, x, y. -/
def pointOctets (q : Option (Nat × Nat)) : List Byte := q.elim [0] (fun e => 4 :: octets 48 e.1 ++ octets 48 e.2)
def identityPub : List Byte := pointOctets identityPoint
/-- DEVID: bits [127:0] of the digest of the identity public key (R421). -/
def devId : BitVec 128 := (sha512 identityPub).extractLsb' 0 128

/-- The signature made with the identity key, with the per-message numbers that a free value begins (R422). -/
def identitySign (free : Nat) (msg : List Byte) : List Byte :=
  ((List.range 8).findSome? (fun i => ecSign identityKey (1 + (free + i) % (p384N - 1)) msg)).getD []

end Sys2Proof.Machine
end

