-- ==== Sys2Proof/Decode.lean ====
section
/-! DEFINITION. Decoding and encoding: one table per slot class (R121 to R125 and the encoding tables of chapters 06 to 09), the words
of SVI (R307 to R317), the bundle's slots (R120), and the reading of a table word. Total; a word with no reading is `none`, by name
UNDEF in a slot and `sviill` in SVI text. -/
namespace Sys2Proof

/-- The slot classes of R120, and SVI text. -/
inductive Cls where
  | c | s | m | v | x | e | svi
  deriving DecidableEq, Repr

/-- The class of slot k of a bundle: C, S0, S1, M, V0, V1, X, E (R120). -/
def slotCls (k : Nat) : Cls :=
  match k with
  | 0 => .c
  | 1 => .s
  | 2 => .s
  | 3 => .m
  | 4 => .v
  | 5 => .v
  | 6 => .x
  | _ => .e

/-- The C slot (Table 4 of chapter 05). -/
def rawDecC (w : Word32) : Option Instr :=
  match w.toNat / 33554432 with
  | 0 => if w = 0 then some .nop else none
  | 1 => some (.br (w.extractLsb' 4 21) (w.extractLsb' 0 4))
  | 2 => some (.brp (w.extractLsb' 19 6) (w.extractLsb' 17 2) (w.extractLsb' 4 13) (w.extractLsb' 0 4))
  | 3 => some (.call (w.extractLsb' 4 21) (w.extractLsb' 0 4))
  | 4 => if w.extractLsb' 4 21 = 0 then some (.ret (w.extractLsb' 0 4)) else none
  | 5 => if w.extractLsb' 4 9 = 0 ∧ w.extractLsb' 19 6 = 0 then some (.jr (w.extractLsb' 13 6) (w.extractLsb' 0 4)) else none
  | 6 => if w.extractLsb' 19 6 = 0 then some (.loop (w.extractLsb' 13 6) (w.extractLsb' 4 9) (w.extractLsb' 0 4)) else none
  | 7 => if w.extractLsb' 22 3 = 0 then
      some (.loope (w.extractLsb' 19 3) (w.extractLsb' 13 6) (w.extractLsb' 4 9) (w.extractLsb' 0 4)) else
      none
  | 8 => if w.extractLsb' 4 21 = 0 then some (.lpstage (w.extractLsb' 0 4)) else none
  | 9 => if w.extractLsb' 19 6 = 0 then some (.step (w.extractLsb' 4 15) (w.extractLsb' 0 4)) else none
  | 10 => if w.extractLsb' 4 21 = 0 then some (.exit (w.extractLsb' 0 4)) else none
  | 11 => some (.cont (w.extractLsb' 4 21) (w.extractLsb' 0 4))
  | 12 => if w.extractLsb' 16 4 = 0 ∧ w.extractLsb' 24 1 = 0 then
      some (.setlt (w.extractLsb' 20 4) (w.extractLsb' 4 12) (w.extractLsb' 0 4)) else
      none
  | 13 => if w.extractLsb' 19 1 = 0 ∧ w.extractLsb' 23 2 = 0 then
      some (.evwait (w.extractLsb' 20 3) (w.extractLsb' 13 6) (w.extractLsb' 7 6) (w.extractLsb' 4 3) (w.extractLsb' 0 4)) else
      none
  | 14 => if w.extractLsb' 19 6 = 0 then some (.trap (w.extractLsb' 4 15) (w.extractLsb' 0 4)) else none
  | 15 => if w.extractLsb' 19 6 = 0 then some (.sysc (w.extractLsb' 4 15) (w.extractLsb' 0 4)) else none
  | 16 => if w.extractLsb' 4 21 = 0 then some (.emret (w.extractLsb' 0 4)) else none
  | 17 => if w.extractLsb' 7 18 = 0 then some (.icinv (w.extractLsb' 4 3) (w.extractLsb' 0 4)) else none
  | 18 => if w.extractLsb' 4 3 = 0 then
      some (.publish (w.extractLsb' 19 6) (w.extractLsb' 13 6) (w.extractLsb' 7 6) (w.extractLsb' 0 4)) else
      none
  | 19 => if w.extractLsb' 19 6 = 0 then some (.bkpt (w.extractLsb' 4 15) (w.extractLsb' 0 4)) else none
  | 20 => if w.extractLsb' 4 3 = 0 then some (.csrr (w.extractLsb' 19 6) (w.extractLsb' 7 12) (w.extractLsb' 0 4)) else none
  | 21 => if w.extractLsb' 4 3 = 0 then some (.csrw (w.extractLsb' 19 6) (w.extractLsb' 7 12) (w.extractLsb' 0 4)) else none
  | 22 => if w.extractLsb' 4 3 = 0 then some (.csrs (w.extractLsb' 19 6) (w.extractLsb' 7 12) (w.extractLsb' 0 4)) else none
  | 23 => if w.extractLsb' 4 3 = 0 then some (.csrc (w.extractLsb' 19 6) (w.extractLsb' 7 12) (w.extractLsb' 0 4)) else none
  | 24 => if w.extractLsb' 4 9 = 0 ∧ w.extractLsb' 19 1 = 0 ∧ w.extractLsb' 24 1 = 0 then
      some (.setltX (w.extractLsb' 20 4) (w.extractLsb' 13 6) (w.extractLsb' 0 4)) else
      none
  | 25 => if w.extractLsb' 4 9 = 0 ∧ w.extractLsb' 19 6 = 0 then
      some (.callX (w.extractLsb' 13 6) (w.extractLsb' 0 4)) else
      none
  | 26 => if w.extractLsb' 4 3 = 0 then some (.csrwI (w.extractLsb' 19 6) (w.extractLsb' 7 12) (w.extractLsb' 0 4)) else none
  | 27 => if w.extractLsb' 4 3 = 0 then some (.csrsI (w.extractLsb' 19 6) (w.extractLsb' 7 12) (w.extractLsb' 0 4)) else none
  | 28 => if w.extractLsb' 4 3 = 0 then some (.csrcI (w.extractLsb' 19 6) (w.extractLsb' 7 12) (w.extractLsb' 0 4)) else none
  | _ => none

/-- The S0 and S1 slots (Table 5 of chapter 05). -/
def rawDecS (w : Word32) : Option Instr :=
  match w.toNat / 33554432 with
  | 0 => if w = 0 then some .nop else none
  | 1 => if w.extractLsb' 4 3 = 0 then
      some (.add (w.extractLsb' 19 6) (w.extractLsb' 13 6) (w.extractLsb' 7 6) (w.extractLsb' 0 4)) else
      none
  | 2 => if w.extractLsb' 4 3 = 0 then
      some (.sub (w.extractLsb' 19 6) (w.extractLsb' 13 6) (w.extractLsb' 7 6) (w.extractLsb' 0 4)) else
      none
  | 3 => some (.addi (w.extractLsb' 19 6) (w.extractLsb' 13 6) (w.extractLsb' 4 9) (w.extractLsb' 0 4))
  | 4 => if w.extractLsb' 4 3 = 0 then
      some (.and (w.extractLsb' 19 6) (w.extractLsb' 13 6) (w.extractLsb' 7 6) (w.extractLsb' 0 4)) else
      none
  | 5 => if w.extractLsb' 4 3 = 0 then
      some (.or (w.extractLsb' 19 6) (w.extractLsb' 13 6) (w.extractLsb' 7 6) (w.extractLsb' 0 4)) else
      none
  | 6 => if w.extractLsb' 4 3 = 0 then
      some (.xor (w.extractLsb' 19 6) (w.extractLsb' 13 6) (w.extractLsb' 7 6) (w.extractLsb' 0 4)) else
      none
  | 7 => some (.andi (w.extractLsb' 19 6) (w.extractLsb' 13 6) (w.extractLsb' 4 9) (w.extractLsb' 0 4))
  | 8 => some (.ori (w.extractLsb' 19 6) (w.extractLsb' 13 6) (w.extractLsb' 4 9) (w.extractLsb' 0 4))
  | 9 => some (.xori (w.extractLsb' 19 6) (w.extractLsb' 13 6) (w.extractLsb' 4 9) (w.extractLsb' 0 4))
  | 10 => if w.extractLsb' 4 3 = 0 then
      some (.sll (w.extractLsb' 19 6) (w.extractLsb' 13 6) (w.extractLsb' 7 6) (w.extractLsb' 0 4)) else
      none
  | 11 => if w.extractLsb' 4 3 = 0 then
      some (.srl (w.extractLsb' 19 6) (w.extractLsb' 13 6) (w.extractLsb' 7 6) (w.extractLsb' 0 4)) else
      none
  | 12 => if w.extractLsb' 4 3 = 0 then
      some (.sra (w.extractLsb' 19 6) (w.extractLsb' 13 6) (w.extractLsb' 7 6) (w.extractLsb' 0 4)) else
      none
  | 13 => if w.extractLsb' 10 3 = 0 then
      some (.slli (w.extractLsb' 19 6) (w.extractLsb' 13 6) (w.extractLsb' 4 6) (w.extractLsb' 0 4)) else
      none
  | 14 => if w.extractLsb' 10 3 = 0 then
      some (.srli (w.extractLsb' 19 6) (w.extractLsb' 13 6) (w.extractLsb' 4 6) (w.extractLsb' 0 4)) else
      none
  | 15 => if w.extractLsb' 10 3 = 0 then
      some (.srai (w.extractLsb' 19 6) (w.extractLsb' 13 6) (w.extractLsb' 4 6) (w.extractLsb' 0 4)) else
      none
  | 16 => some (.li (w.extractLsb' 19 6) (w.extractLsb' 4 15) (w.extractLsb' 0 4))
  | 17 => some (.lih (w.extractLsb' 19 6) (w.extractLsb' 4 15) (w.extractLsb' 0 4))
  | 18 => if w.extractLsb' 4 3 = 0 then
      some (.mul (w.extractLsb' 19 6) (w.extractLsb' 13 6) (w.extractLsb' 7 6) (w.extractLsb' 0 4)) else
      none
  | 19 => if w.extractLsb' 4 3 = 0 then
      some (.mulh (w.extractLsb' 19 6) (w.extractLsb' 13 6) (w.extractLsb' 7 6) (w.extractLsb' 0 4)) else
      none
  | 20 => if w.extractLsb' 4 3 = 0 then
      some (.mulhu (w.extractLsb' 19 6) (w.extractLsb' 13 6) (w.extractLsb' 7 6) (w.extractLsb' 0 4)) else
      none
  | 21 => if w.extractLsb' 4 3 = 0 then
      some (.mulhsu (w.extractLsb' 19 6) (w.extractLsb' 13 6) (w.extractLsb' 7 6) (w.extractLsb' 0 4)) else
      none
  | 22 => if w.extractLsb' 4 3 = 0 then
      some (.div (w.extractLsb' 19 6) (w.extractLsb' 13 6) (w.extractLsb' 7 6) (w.extractLsb' 0 4)) else
      none
  | 23 => if w.extractLsb' 4 3 = 0 then
      some (.divu (w.extractLsb' 19 6) (w.extractLsb' 13 6) (w.extractLsb' 7 6) (w.extractLsb' 0 4)) else
      none
  | 24 => if w.extractLsb' 4 3 = 0 then
      some (.rem (w.extractLsb' 19 6) (w.extractLsb' 13 6) (w.extractLsb' 7 6) (w.extractLsb' 0 4)) else
      none
  | 25 => if w.extractLsb' 4 3 = 0 then
      some (.remu (w.extractLsb' 19 6) (w.extractLsb' 13 6) (w.extractLsb' 7 6) (w.extractLsb' 0 4)) else
      none
  | 26 => if w.extractLsb' 4 3 = 0 then
      some (.min (w.extractLsb' 19 6) (w.extractLsb' 13 6) (w.extractLsb' 7 6) (w.extractLsb' 0 4)) else
      none
  | 27 => if w.extractLsb' 4 3 = 0 then
      some (.max (w.extractLsb' 19 6) (w.extractLsb' 13 6) (w.extractLsb' 7 6) (w.extractLsb' 0 4)) else
      none
  | 28 => if w.extractLsb' 4 3 = 0 then
      some (.minu (w.extractLsb' 19 6) (w.extractLsb' 13 6) (w.extractLsb' 7 6) (w.extractLsb' 0 4)) else
      none
  | 29 => if w.extractLsb' 4 3 = 0 then
      some (.maxu (w.extractLsb' 19 6) (w.extractLsb' 13 6) (w.extractLsb' 7 6) (w.extractLsb' 0 4)) else
      none
  | 30 => if w.extractLsb' 4 9 = 0 then some (.clz (w.extractLsb' 19 6) (w.extractLsb' 13 6) (w.extractLsb' 0 4)) else none
  | 31 => if w.extractLsb' 4 9 = 0 then some (.ctz (w.extractLsb' 19 6) (w.extractLsb' 13 6) (w.extractLsb' 0 4)) else none
  | 32 => if w.extractLsb' 4 9 = 0 then some (.popc (w.extractLsb' 19 6) (w.extractLsb' 13 6) (w.extractLsb' 0 4)) else none
  | 33 => if w.extractLsb' 10 3 = 0 then
      some (.sext (w.extractLsb' 19 6) (w.extractLsb' 13 6) (w.extractLsb' 4 6) (w.extractLsb' 0 4)) else
      none
  | 34 => if w.extractLsb' 10 3 = 0 then
      some (.zext (w.extractLsb' 19 6) (w.extractLsb' 13 6) (w.extractLsb' 4 6) (w.extractLsb' 0 4)) else
      none
  | 35 => if w.extractLsb' 19 1 = 0 ∧ w.extractLsb' 23 2 = 0 then
      some (.cmp (w.extractLsb' 20 3) (w.extractLsb' 13 6) (w.extractLsb' 7 6) (w.extractLsb' 4 3) (w.extractLsb' 0 4)) else
      none
  | 36 => if w.extractLsb' 19 1 = 0 ∧ w.extractLsb' 23 2 = 0 then
      some (.cmpi (w.extractLsb' 20 3) (w.extractLsb' 13 6) (w.extractLsb' 7 6) (w.extractLsb' 4 3) (w.extractLsb' 0 4)) else
      none
  | 37 => if w.extractLsb' 4 3 = 0 ∧ w.extractLsb' 10 3 = 0 ∧ w.extractLsb' 16 4 = 0 ∧ w.extractLsb' 23 2 = 0 then
      some (.pand (w.extractLsb' 20 3) (w.extractLsb' 13 3) (w.extractLsb' 7 3) (w.extractLsb' 0 4)) else
      none
  | 38 => if w.extractLsb' 4 3 = 0 ∧ w.extractLsb' 10 3 = 0 ∧ w.extractLsb' 16 4 = 0 ∧ w.extractLsb' 23 2 = 0 then
      some (.por (w.extractLsb' 20 3) (w.extractLsb' 13 3) (w.extractLsb' 7 3) (w.extractLsb' 0 4)) else
      none
  | 39 => if w.extractLsb' 4 3 = 0 ∧ w.extractLsb' 10 3 = 0 ∧ w.extractLsb' 16 4 = 0 ∧ w.extractLsb' 23 2 = 0 then
      some (.pxor (w.extractLsb' 20 3) (w.extractLsb' 13 3) (w.extractLsb' 7 3) (w.extractLsb' 0 4)) else
      none
  | 40 => if w.extractLsb' 4 3 = 0 ∧ w.extractLsb' 10 3 = 0 ∧ w.extractLsb' 16 4 = 0 ∧ w.extractLsb' 23 2 = 0 then
      some (.pandn (w.extractLsb' 20 3) (w.extractLsb' 13 3) (w.extractLsb' 7 3) (w.extractLsb' 0 4)) else
      none
  | 41 => some (.sel (w.extractLsb' 19 6) (w.extractLsb' 13 6) (w.extractLsb' 7 6) (w.extractLsb' 4 3) (w.extractLsb' 0 4))
  | 42 => if w.extractLsb' 4 9 = 0 then
      some (.mov (w.extractLsb' 19 6) (w.extractLsb' 13 6) (w.extractLsb' 0 4)) else
      if w.extractLsb' 4 15 = 1 then
      some (.movFromPall (w.extractLsb' 19 6) (w.extractLsb' 0 4)) else
      if w.extractLsb' 4 9 = 2 ∧ w.extractLsb' 19 6 = 0 then
      some (.movToPall (w.extractLsb' 13 6) (w.extractLsb' 0 4)) else
      none
  | 43 => some (.adds (w.extractLsb' 19 6) (w.extractLsb' 13 6) (w.extractLsb' 7 6) (w.extractLsb' 4 3) (w.extractLsb' 0 4))
  | 44 => some (.subs (w.extractLsb' 19 6) (w.extractLsb' 13 6) (w.extractLsb' 7 6) (w.extractLsb' 4 3) (w.extractLsb' 0 4))
  | 45 => if w.extractLsb' 4 3 = 0 then
      some (.bfx (w.extractLsb' 19 6) (w.extractLsb' 13 6) (w.extractLsb' 7 6) (w.extractLsb' 0 4)) else
      none
  | 46 => if w.extractLsb' 4 3 = 0 then
      some (.bfxu (w.extractLsb' 19 6) (w.extractLsb' 13 6) (w.extractLsb' 7 6) (w.extractLsb' 0 4)) else
      none
  | 47 => if w.extractLsb' 4 3 = 0 then
      some (.bfi (w.extractLsb' 19 6) (w.extractLsb' 13 6) (w.extractLsb' 7 6) (w.extractLsb' 0 4)) else
      none
  | _ => none

/-- The M slot (Table 6 of chapter 05). -/
def rawDecM (w : Word32) : Option Instr :=
  match w.toNat / 33554432 with
  | 0 => if w = 0 then some .nop else none
  | 1 => some (.ldb (w.extractLsb' 19 6) (w.extractLsb' 13 6) (w.extractLsb' 9 4) (w.extractLsb' 4 5) (w.extractLsb' 0 4))
  | 2 => some (.ldbu (w.extractLsb' 19 6) (w.extractLsb' 13 6) (w.extractLsb' 9 4) (w.extractLsb' 4 5) (w.extractLsb' 0 4))
  | 3 => some (.ldh (w.extractLsb' 19 6) (w.extractLsb' 13 6) (w.extractLsb' 9 4) (w.extractLsb' 4 5) (w.extractLsb' 0 4))
  | 4 => some (.ldhu (w.extractLsb' 19 6) (w.extractLsb' 13 6) (w.extractLsb' 9 4) (w.extractLsb' 4 5) (w.extractLsb' 0 4))
  | 5 => some (.ldw (w.extractLsb' 19 6) (w.extractLsb' 13 6) (w.extractLsb' 9 4) (w.extractLsb' 4 5) (w.extractLsb' 0 4))
  | 6 => some (.ldwu (w.extractLsb' 19 6) (w.extractLsb' 13 6) (w.extractLsb' 9 4) (w.extractLsb' 4 5) (w.extractLsb' 0 4))
  | 7 => some (.ldd (w.extractLsb' 19 6) (w.extractLsb' 13 6) (w.extractLsb' 9 4) (w.extractLsb' 4 5) (w.extractLsb' 0 4))
  | 8 => some (.stb (w.extractLsb' 19 6) (w.extractLsb' 13 6) (w.extractLsb' 4 9) (w.extractLsb' 0 4))
  | 9 => some (.sth (w.extractLsb' 19 6) (w.extractLsb' 13 6) (w.extractLsb' 4 9) (w.extractLsb' 0 4))
  | 10 => some (.stw (w.extractLsb' 19 6) (w.extractLsb' 13 6) (w.extractLsb' 4 9) (w.extractLsb' 0 4))
  | 11 => some (.std (w.extractLsb' 19 6) (w.extractLsb' 13 6) (w.extractLsb' 4 9) (w.extractLsb' 0 4))
  | 12 => some (.ldx (w.extractLsb' 19 6) (w.extractLsb' 13 6) (w.extractLsb' 7 6) (w.extractLsb' 4 3) (w.extractLsb' 0 4))
  | 13 => if w.extractLsb' 4 1 = 0 then
      some (.stx (w.extractLsb' 19 6) (w.extractLsb' 13 6) (w.extractLsb' 7 6) (w.extractLsb' 5 2) (w.extractLsb' 0 4)) else
      none
  | 14 => if w.extractLsb' 4 1 = 0 then
      some (.tld (w.extractLsb' 21 4) (w.extractLsb' 17 4) (w.extractLsb' 11 6) (w.extractLsb' 5 6) (w.extractLsb' 0 4)) else
      none
  | 15 => if w.extractLsb' 4 1 = 0 then
      some (.tldt (w.extractLsb' 21 4) (w.extractLsb' 17 4) (w.extractLsb' 11 6) (w.extractLsb' 5 6) (w.extractLsb' 0 4)) else
      none
  | 16 => if w.extractLsb' 4 1 = 0 ∧ w.extractLsb' 17 4 = 0 then
      some (.tst (w.extractLsb' 21 4) (w.extractLsb' 11 6) (w.extractLsb' 5 6) (w.extractLsb' 0 4)) else
      none
  | 17 => if w.extractLsb' 4 4 = 0 then
      some (.bld (w.extractLsb' 21 4) (w.extractLsb' 15 6) (w.extractLsb' 9 6) (w.extractLsb' 8 1) (w.extractLsb' 0 4)) else
      none
  | 18 => some (.rld (w.extractLsb' 19 6) (w.extractLsb' 13 6) (w.extractLsb' 10 3) (w.extractLsb' 9 1)
        (w.extractLsb' 4 5) (w.extractLsb' 0 4))
  | 19 => if w.extractLsb' 10 1 = 0 then
      some (.rst (w.extractLsb' 19 6) (w.extractLsb' 13 6) (w.extractLsb' 11 2) (w.extractLsb' 9 1) (w.extractLsb' 4 5)
        (w.extractLsb' 0 4)) else
      none
  | 20 => some (.amo (w.extractLsb' 19 6) (w.extractLsb' 13 6) (w.extractLsb' 8 5) (w.extractLsb' 4 4) (w.extractLsb' 0 4))
  | 21 => if w.extractLsb' 4 4 = 0 then
      some (.amoF (w.extractLsb' 19 6) (w.extractLsb' 13 6) (w.extractLsb' 8 5) (w.extractLsb' 0 4)) else
      none
  | 22 => if w.extractLsb' 4 4 = 0 then
      some (.amoN (w.extractLsb' 19 6) (w.extractLsb' 13 6) (w.extractLsb' 8 5) (w.extractLsb' 0 4)) else
      none
  | 23 => if w.extractLsb' 7 18 = 0 then some (.fence (w.extractLsb' 4 3) (w.extractLsb' 0 4)) else none
  | 24 => if w.extractLsb' 6 19 = 0 then some (.drain (w.extractLsb' 4 2) (w.extractLsb' 0 4)) else none
  | 25 => if w.extractLsb' 4 21 = 0 then some (.drainR (w.extractLsb' 0 4)) else none
  | 26 => if w.extractLsb' 19 1 = 0 ∧ w.extractLsb' 23 2 = 0 then
      some (.bwait (w.extractLsb' 20 3) (w.extractLsb' 13 6) (w.extractLsb' 7 6) (w.extractLsb' 4 3) (w.extractLsb' 0 4)) else
      none
  | 27 => if w.extractLsb' 4 9 = 0 ∧ w.extractLsb' 19 6 = 0 then
      some (.qpush (w.extractLsb' 13 6) (w.extractLsb' 0 4)) else
      none
  | 28 => if w.extractLsb' 4 9 = 0 then some (.tpost (w.extractLsb' 19 6) (w.extractLsb' 13 6) (w.extractLsb' 0 4)) else none
  | 29 => if w.extractLsb' 4 9 = 0 ∧ w.extractLsb' 19 6 = 0 then some (.tix (w.extractLsb' 13 6) (w.extractLsb' 0 4)) else none
  | _ => none

/-- The V0 and V1 slots (Table 7 of chapter 05). -/
def rawDecV (w : Word32) : Option Instr :=
  match w.toNat / 33554432 with
  | 0 => if w = 0 then some .nop else none
  | 1 => if w.extractLsb' 4 3 = 0 then
      some (.vsetvl (w.extractLsb' 19 6) (w.extractLsb' 13 6) (w.extractLsb' 7 6) (w.extractLsb' 0 4)) else
      if w.extractLsb' 4 15 = 1 then
      some (.vsetvlRead (w.extractLsb' 19 6) (w.extractLsb' 0 4)) else
      none
  | 2 => if w.extractLsb' 11 2 = 0 then
      some (.vsetvli (w.extractLsb' 19 6) (w.extractLsb' 13 6) (w.extractLsb' 4 7) (w.extractLsb' 0 4)) else
      none
  | 3 => some (.vsetivli (w.extractLsb' 19 6) (w.extractLsb' 11 8) (w.extractLsb' 4 7) (w.extractLsb' 0 4))
  | 4 => if w.extractLsb' 4 1 = 0 ∧ w.extractLsb' 19 1 = 0 then
      some (.vadd (w.extractLsb' 20 5) (w.extractLsb' 14 5) (w.extractLsb' 8 6) (w.extractLsb' 6 2) (w.extractLsb' 5 1)
        (w.extractLsb' 0 4)) else
      none
  | 5 => if w.extractLsb' 4 1 = 0 ∧ w.extractLsb' 19 1 = 0 then
      some (.vsub (w.extractLsb' 20 5) (w.extractLsb' 14 5) (w.extractLsb' 8 6) (w.extractLsb' 6 2) (w.extractLsb' 5 1)
        (w.extractLsb' 0 4)) else
      none
  | 6 => if w.extractLsb' 4 1 = 0 ∧ w.extractLsb' 19 1 = 0 then
      some (.vand (w.extractLsb' 20 5) (w.extractLsb' 14 5) (w.extractLsb' 8 6) (w.extractLsb' 6 2) (w.extractLsb' 5 1)
        (w.extractLsb' 0 4)) else
      none
  | 7 => if w.extractLsb' 4 1 = 0 ∧ w.extractLsb' 19 1 = 0 then
      some (.vor (w.extractLsb' 20 5) (w.extractLsb' 14 5) (w.extractLsb' 8 6) (w.extractLsb' 6 2) (w.extractLsb' 5 1)
        (w.extractLsb' 0 4)) else
      none
  | 8 => if w.extractLsb' 4 1 = 0 ∧ w.extractLsb' 19 1 = 0 then
      some (.vxor (w.extractLsb' 20 5) (w.extractLsb' 14 5) (w.extractLsb' 8 6) (w.extractLsb' 6 2) (w.extractLsb' 5 1)
        (w.extractLsb' 0 4)) else
      none
  | 9 => if w.extractLsb' 4 1 = 0 ∧ w.extractLsb' 19 1 = 0 then
      some (.vsll (w.extractLsb' 20 5) (w.extractLsb' 14 5) (w.extractLsb' 8 6) (w.extractLsb' 6 2) (w.extractLsb' 5 1)
        (w.extractLsb' 0 4)) else
      none
  | 10 => if w.extractLsb' 4 1 = 0 ∧ w.extractLsb' 19 1 = 0 then
      some (.vsrl (w.extractLsb' 20 5) (w.extractLsb' 14 5) (w.extractLsb' 8 6) (w.extractLsb' 6 2) (w.extractLsb' 5 1)
        (w.extractLsb' 0 4)) else
      none
  | 11 => if w.extractLsb' 4 1 = 0 ∧ w.extractLsb' 19 1 = 0 then
      some (.vsra (w.extractLsb' 20 5) (w.extractLsb' 14 5) (w.extractLsb' 8 6) (w.extractLsb' 6 2) (w.extractLsb' 5 1)
        (w.extractLsb' 0 4)) else
      none
  | 12 => if w.extractLsb' 4 1 = 0 ∧ w.extractLsb' 19 1 = 0 then
      some (.vmul (w.extractLsb' 20 5) (w.extractLsb' 14 5) (w.extractLsb' 8 6) (w.extractLsb' 6 2) (w.extractLsb' 5 1)
        (w.extractLsb' 0 4)) else
      none
  | 13 => if w.extractLsb' 19 1 = 0 then
      some (.vmulh (w.extractLsb' 20 5) (w.extractLsb' 14 5) (w.extractLsb' 8 6) (w.extractLsb' 6 2) (w.extractLsb' 5 1)
        (w.extractLsb' 4 1) (w.extractLsb' 0 4)) else
      none
  | 14 => if w.extractLsb' 4 1 = 0 ∧ w.extractLsb' 19 1 = 0 then
      some (.vmin (w.extractLsb' 20 5) (w.extractLsb' 14 5) (w.extractLsb' 8 6) (w.extractLsb' 6 2) (w.extractLsb' 5 1)
        (w.extractLsb' 0 4)) else
      none
  | 15 => if w.extractLsb' 4 1 = 0 ∧ w.extractLsb' 19 1 = 0 then
      some (.vmax (w.extractLsb' 20 5) (w.extractLsb' 14 5) (w.extractLsb' 8 6) (w.extractLsb' 6 2) (w.extractLsb' 5 1)
        (w.extractLsb' 0 4)) else
      none
  | 16 => if w.extractLsb' 4 1 = 0 ∧ w.extractLsb' 19 1 = 0 then
      some (.vminu (w.extractLsb' 20 5) (w.extractLsb' 14 5) (w.extractLsb' 8 6) (w.extractLsb' 6 2) (w.extractLsb' 5 1)
        (w.extractLsb' 0 4)) else
      none
  | 17 => if w.extractLsb' 4 1 = 0 ∧ w.extractLsb' 19 1 = 0 then
      some (.vmaxu (w.extractLsb' 20 5) (w.extractLsb' 14 5) (w.extractLsb' 8 6) (w.extractLsb' 6 2) (w.extractLsb' 5 1)
        (w.extractLsb' 0 4)) else
      none
  | 18 => if w.extractLsb' 19 1 = 0 then
      some (.vsadd (w.extractLsb' 20 5) (w.extractLsb' 14 5) (w.extractLsb' 8 6) (w.extractLsb' 6 2) (w.extractLsb' 5 1)
        (w.extractLsb' 4 1) (w.extractLsb' 0 4)) else
      none
  | 19 => if w.extractLsb' 19 1 = 0 then
      some (.vssub (w.extractLsb' 20 5) (w.extractLsb' 14 5) (w.extractLsb' 8 6) (w.extractLsb' 6 2) (w.extractLsb' 5 1)
        (w.extractLsb' 4 1) (w.extractLsb' 0 4)) else
      none
  | 20 => if w.extractLsb' 4 2 = 0 ∧ w.extractLsb' 19 1 = 0 then
      some (.vsmul (w.extractLsb' 20 5) (w.extractLsb' 14 5) (w.extractLsb' 9 5) (w.extractLsb' 7 2) (w.extractLsb' 6 1)
        (w.extractLsb' 0 4)) else
      none
  | 21 => if w.extractLsb' 19 1 = 0 then
      some (.vwadd (w.extractLsb' 20 5) (w.extractLsb' 14 5) (w.extractLsb' 8 6) (w.extractLsb' 6 2) (w.extractLsb' 5 1)
        (w.extractLsb' 4 1) (w.extractLsb' 0 4)) else
      none
  | 22 => if w.extractLsb' 19 1 = 0 then
      some (.vwmul (w.extractLsb' 20 5) (w.extractLsb' 14 5) (w.extractLsb' 8 6) (w.extractLsb' 6 2) (w.extractLsb' 5 1)
        (w.extractLsb' 4 1) (w.extractLsb' 0 4)) else
      none
  | 23 => if w.extractLsb' 19 1 = 0 then
      some (.vwmacc (w.extractLsb' 20 5) (w.extractLsb' 14 5) (w.extractLsb' 8 6) (w.extractLsb' 6 2) (w.extractLsb' 5 1)
        (w.extractLsb' 4 1) (w.extractLsb' 0 4)) else
      none
  | 24 => if w.extractLsb' 19 1 = 0 then
      some (.vnsra (w.extractLsb' 20 5) (w.extractLsb' 14 5) (w.extractLsb' 8 6) (w.extractLsb' 7 1) (w.extractLsb' 5 2)
        (w.extractLsb' 4 1) (w.extractLsb' 0 4)) else
      none
  | 25 => if w.extractLsb' 19 1 = 0 then
      some (.vnclip (w.extractLsb' 20 5) (w.extractLsb' 14 5) (w.extractLsb' 9 5) (w.extractLsb' 7 2) (w.extractLsb' 6 1)
        (w.extractLsb' 5 1) (w.extractLsb' 4 1) (w.extractLsb' 0 4)) else
      none
  | 26 => if w.extractLsb' 19 1 = 0 then
      some (.vshr (w.extractLsb' 20 5) (w.extractLsb' 14 5) (w.extractLsb' 8 6) (w.extractLsb' 7 1) (w.extractLsb' 5 2)
        (w.extractLsb' 4 1) (w.extractLsb' 0 4)) else
      none
  | 27 => if w.extractLsb' 19 1 = 0 then
      some (.vcmp (w.extractLsb' 20 5) (w.extractLsb' 14 5) (w.extractLsb' 8 6) (w.extractLsb' 7 1) (w.extractLsb' 4 3)
        (w.extractLsb' 0 4)) else
      none
  | 28 => if w.extractLsb' 4 2 = 0 ∧ w.extractLsb' 19 1 = 0 then
      some (.vmerge (w.extractLsb' 20 5) (w.extractLsb' 14 5) (w.extractLsb' 8 6) (w.extractLsb' 6 2) (w.extractLsb' 0 4)) else
      none
  | 29 => if w.extractLsb' 4 2 = 0 ∧ w.extractLsb' 19 1 = 0 then
      some (.vmlog (w.extractLsb' 20 5) (w.extractLsb' 14 5) (w.extractLsb' 9 5) (w.extractLsb' 6 3) (w.extractLsb' 0 4)) else
      none
  | 30 => if w.extractLsb' 4 2 = 0 ∧ w.extractLsb' 19 1 = 0 then
      some (.vredsum (w.extractLsb' 20 5) (w.extractLsb' 14 5) (w.extractLsb' 9 5) (w.extractLsb' 8 1) (w.extractLsb' 7 1)
        (w.extractLsb' 6 1) (w.extractLsb' 0 4)) else
      none
  | 31 => if w.extractLsb' 4 2 = 0 ∧ w.extractLsb' 8 1 = 0 ∧ w.extractLsb' 19 1 = 0 then
      some (.vredmax (w.extractLsb' 20 5) (w.extractLsb' 14 5) (w.extractLsb' 9 5) (w.extractLsb' 7 1) (w.extractLsb' 6 1)
        (w.extractLsb' 0 4)) else
      none
  | 32 => if w.extractLsb' 4 2 = 0 ∧ w.extractLsb' 8 1 = 0 ∧ w.extractLsb' 19 1 = 0 then
      some (.vredmin (w.extractLsb' 20 5) (w.extractLsb' 14 5) (w.extractLsb' 9 5) (w.extractLsb' 7 1) (w.extractLsb' 6 1)
        (w.extractLsb' 0 4)) else
      none
  | 33 => if w.extractLsb' 4 2 = 0 ∧ w.extractLsb' 19 1 = 0 then
      some (.vscan (w.extractLsb' 20 5) (w.extractLsb' 14 5) (w.extractLsb' 9 5) (w.extractLsb' 8 1) (w.extractLsb' 7 1)
        (w.extractLsb' 6 1) (w.extractLsb' 0 4)) else
      none
  | 34 => if w.extractLsb' 4 2 = 0 ∧ w.extractLsb' 19 1 = 0 then
      some (.vslideup (w.extractLsb' 20 5) (w.extractLsb' 14 5) (w.extractLsb' 8 6) (w.extractLsb' 7 1)
        (w.extractLsb' 6 1) (w.extractLsb' 0 4)) else
      none
  | 35 => if w.extractLsb' 4 2 = 0 ∧ w.extractLsb' 19 1 = 0 then
      some (.vslidedn (w.extractLsb' 20 5) (w.extractLsb' 14 5) (w.extractLsb' 8 6) (w.extractLsb' 7 1)
        (w.extractLsb' 6 1) (w.extractLsb' 0 4)) else
      none
  | 36 => if w.extractLsb' 4 2 = 0 ∧ w.extractLsb' 7 2 = 0 ∧ w.extractLsb' 19 1 = 0 then
      some (.vgath (w.extractLsb' 20 5) (w.extractLsb' 14 5) (w.extractLsb' 9 5) (w.extractLsb' 6 1) (w.extractLsb' 0 4)) else
      none
  | 37 => if w.extractLsb' 4 5 = 0 ∧ w.extractLsb' 19 1 = 0 then
      some (.vcompress (w.extractLsb' 20 5) (w.extractLsb' 14 5) (w.extractLsb' 9 5) (w.extractLsb' 0 4)) else
      none
  | 38 => if w.extractLsb' 4 4 = 0 ∧ w.extractLsb' 19 1 = 0 then
      some (.vld (w.extractLsb' 20 5) (w.extractLsb' 13 6) (w.extractLsb' 9 4) (w.extractLsb' 8 1) (w.extractLsb' 0 4)) else
      none
  | 39 => if w.extractLsb' 4 4 = 0 ∧ w.extractLsb' 19 1 = 0 then
      some (.vlds (w.extractLsb' 20 5) (w.extractLsb' 13 6) (w.extractLsb' 9 4) (w.extractLsb' 8 1) (w.extractLsb' 0 4)) else
      none
  | 40 => if w.extractLsb' 19 1 = 0 then
      some (.vldx (w.extractLsb' 20 5) (w.extractLsb' 13 6) (w.extractLsb' 8 5) (w.extractLsb' 7 1) (w.extractLsb' 4 3)
        (w.extractLsb' 0 4)) else
      none
  | 41 => if w.extractLsb' 4 4 = 0 ∧ w.extractLsb' 19 1 = 0 then
      some (.vldff (w.extractLsb' 20 5) (w.extractLsb' 13 6) (w.extractLsb' 9 4) (w.extractLsb' 8 1) (w.extractLsb' 0 4)) else
      none
  | 42 => if w.extractLsb' 5 9 = 0 then
      some (.vst (w.extractLsb' 20 5) (w.extractLsb' 14 6) (w.extractLsb' 4 1) (w.extractLsb' 0 4)) else
      none
  | 43 => if w.extractLsb' 5 9 = 0 then
      some (.vsts (w.extractLsb' 20 5) (w.extractLsb' 14 6) (w.extractLsb' 4 1) (w.extractLsb' 0 4)) else
      none
  | 44 => if w.extractLsb' 5 4 = 0 then
      some (.vstx (w.extractLsb' 20 5) (w.extractLsb' 14 6) (w.extractLsb' 9 5) (w.extractLsb' 4 1) (w.extractLsb' 0 4)) else
      none
  | 45 => if w.extractLsb' 4 1 = 0 ∧ w.extractLsb' 19 1 = 0 then
      some (.vexp (w.extractLsb' 20 5) (w.extractLsb' 14 5) (w.extractLsb' 6 8) (w.extractLsb' 5 1) (w.extractLsb' 0 4)) else
      none
  | 46 => if w.extractLsb' 4 1 = 0 ∧ w.extractLsb' 19 1 = 0 then
      some (.vrsqrt (w.extractLsb' 20 5) (w.extractLsb' 14 5) (w.extractLsb' 6 8) (w.extractLsb' 5 1) (w.extractLsb' 0 4)) else
      none
  | 47 => if w.extractLsb' 4 1 = 0 ∧ w.extractLsb' 19 1 = 0 then
      some (.vrecip (w.extractLsb' 20 5) (w.extractLsb' 14 5) (w.extractLsb' 6 8) (w.extractLsb' 5 1) (w.extractLsb' 0 4)) else
      none
  | 48 => if w.extractLsb' 4 2 = 0 ∧ w.extractLsb' 7 2 = 0 ∧ w.extractLsb' 19 1 = 0 then
      some (.vdiv (w.extractLsb' 20 5) (w.extractLsb' 14 5) (w.extractLsb' 9 5) (w.extractLsb' 6 1) (w.extractLsb' 0 4)) else
      none
  | 49 => if w.extractLsb' 4 4 = 0 then
      some (.vmvxs (w.extractLsb' 19 6) (w.extractLsb' 14 5) (w.extractLsb' 8 6) (w.extractLsb' 0 4)) else
      none
  | 50 => if w.extractLsb' 4 3 = 0 ∧ w.extractLsb' 19 1 = 0 then
      some (.vmvsx (w.extractLsb' 20 5) (w.extractLsb' 13 6) (w.extractLsb' 7 6) (w.extractLsb' 0 4)) else
      none
  | 51 => if w.extractLsb' 4 8 = 0 ∧ w.extractLsb' 19 1 = 0 then
      some (.vsplat (w.extractLsb' 20 5) (w.extractLsb' 13 6) (w.extractLsb' 12 1) (w.extractLsb' 0 4)) else
      none
  | 52 => if w.extractLsb' 6 8 = 0 ∧ w.extractLsb' 19 1 = 0 then
      some (.vmov (w.extractLsb' 20 5) (w.extractLsb' 14 5) (w.extractLsb' 4 2) (w.extractLsb' 0 4)) else
      none
  | _ => none

/-- The X slot (Table 8 of chapter 05). -/
def rawDecX (w : Word32) : Option Instr :=
  match w.toNat / 33554432 with
  | 0 => if w = 0 then some .nop else none
  | 1 => if w.extractLsb' 4 8 = 0 then some (.aalloc (w.extractLsb' 19 6) (w.extractLsb' 12 7) (w.extractLsb' 0 4)) else none
  | 2 => if w.extractLsb' 4 7 = 0 then some (.afree (w.extractLsb' 18 7) (w.extractLsb' 11 7) (w.extractLsb' 0 4)) else none
  | 3 => if w.extractLsb' 4 4 = 0 then
      some (.mma (w.extractLsb' 21 4) (w.extractLsb' 15 6) (w.extractLsb' 9 6) (w.extractLsb' 8 1) (w.extractLsb' 0 4)) else
      none
  | 4 => if w.extractLsb' 4 4 = 0 then
      some (.mmaz (w.extractLsb' 21 4) (w.extractLsb' 15 6) (w.extractLsb' 9 6) (w.extractLsb' 8 1) (w.extractLsb' 0 4)) else
      none
  | 5 => if w.extractLsb' 4 4 = 0 then
      some (.mmag (w.extractLsb' 21 4) (w.extractLsb' 15 6) (w.extractLsb' 9 6) (w.extractLsb' 8 1) (w.extractLsb' 0 4)) else
      none
  | 6 => if w.extractLsb' 4 2 = 0 then
      some (.aout (w.extractLsb' 21 4) (w.extractLsb' 14 7) (w.extractLsb' 9 5) (w.extractLsb' 7 2) (w.extractLsb' 6 1)
        (w.extractLsb' 0 4)) else
      none
  | 7 => if w.extractLsb' 4 2 = 0 then
      some (.aoutq (w.extractLsb' 21 4) (w.extractLsb' 14 7) (w.extractLsb' 7 7) (w.extractLsb' 6 1) (w.extractLsb' 0 4)) else
      none
  | 8 => if w.extractLsb' 4 7 = 0 then some (.azero (w.extractLsb' 18 7) (w.extractLsb' 11 7) (w.extractLsb' 0 4)) else none
  | 9 => if w.extractLsb' 4 17 = 0 then some (.tzero (w.extractLsb' 21 4) (w.extractLsb' 0 4)) else none
  | 10 => if w.extractLsb' 4 13 = 0 then some (.tmov (w.extractLsb' 21 4) (w.extractLsb' 17 4) (w.extractLsb' 0 4)) else none
  | 11 => if w.extractLsb' 4 4 = 0 ∧ w.extractLsb' 19 6 = 0 then
      some (.smset (w.extractLsb' 13 6) (w.extractLsb' 8 5) (w.extractLsb' 0 4)) else
      none
  | 12 => if w.extractLsb' 4 21 = 0 then some (.smclr (w.extractLsb' 0 4)) else none
  | _ => none

/-- The E slot (Table 9 of chapter 05). -/
def rawDecE (w : Word32) : Option Instr :=
  match w.toNat / 33554432 with
  | 0 => if w = 0 then some .nop else none
  | 1 => if w.extractLsb' 4 7 = 0 then
      some (.ecfg (w.extractLsb' 23 2) (w.extractLsb' 17 6) (w.extractLsb' 11 6) (w.extractLsb' 0 4)) else
      none
  | 2 => if w.extractLsb' 4 19 = 0 then some (.ego (w.extractLsb' 23 2) (w.extractLsb' 0 4)) else none
  | 3 => if w.extractLsb' 6 13 = 0 then some (.estat (w.extractLsb' 19 6) (w.extractLsb' 4 2) (w.extractLsb' 0 4)) else none
  | 4 => if w.extractLsb' 4 4 = 0 ∧ w.extractLsb' 12 1 = 0 ∧ w.extractLsb' 19 6 = 0 then
      some (.qcfgSrc (w.extractLsb' 13 6) (w.extractLsb' 8 4) (w.extractLsb' 0 4)) else
      if w.extractLsb' 4 4 = 0 ∧ w.extractLsb' 12 1 = 1 ∧ w.extractLsb' 19 6 = 0 then
      some (.qcfgSnk (w.extractLsb' 13 6) (w.extractLsb' 8 4) (w.extractLsb' 0 4)) else
      none
  | 5 => if w.extractLsb' 8 12 = 0 then some (.qenq (w.extractLsb' 20 5) (w.extractLsb' 4 4) (w.extractLsb' 0 4)) else none
  | 6 => if w.extractLsb' 4 12 = 0 then
      some (.qdeq (w.extractLsb' 20 5) (w.extractLsb' 16 4) (w.extractLsb' 0 4)) else
      if w.extractLsb' 4 5 = 0 ∧ w.extractLsb' 15 1 = 1 ∧ w.extractLsb' 20 1 = 0 then
      some (.qdeqTile (w.extractLsb' 21 4) (w.extractLsb' 16 4) (w.extractLsb' 9 6) (w.extractLsb' 0 4)) else
      none
  | 7 => if w.extractLsb' 8 17 = 0 then some (.qreset (w.extractLsb' 4 4) (w.extractLsb' 0 4)) else none
  | 8 => if w.extractLsb' 8 11 = 0 then some (.qstat (w.extractLsb' 19 6) (w.extractLsb' 4 4) (w.extractLsb' 0 4)) else none
  | 9 => if w.extractLsb' 4 5 = 0 then
      some (.scld (w.extractLsb' 19 6) (w.extractLsb' 13 6) (w.extractLsb' 9 4) (w.extractLsb' 0 4)) else
      none
  | 10 => if w.extractLsb' 4 15 = 0 then some (.scst (w.extractLsb' 19 6) (w.extractLsb' 0 4)) else none
  | 11 => if w.extractLsb' 4 6 = 0 then
      some (.scset (w.extractLsb' 19 6) (w.extractLsb' 13 6) (w.extractLsb' 10 3) (w.extractLsb' 0 4)) else
      none
  | 12 => if w.extractLsb' 4 9 = 0 ∧ w.extractLsb' 19 6 = 0 then
      some (.srseed (w.extractLsb' 13 6) (w.extractLsb' 0 4)) else
      none
  | 13 => if w.extractLsb' 7 6 = 0 ∧ w.extractLsb' 19 6 = 0 then
      some (.evset (w.extractLsb' 13 6) (w.extractLsb' 4 3) (w.extractLsb' 0 4)) else
      none
  | 14 => if w.extractLsb' 7 6 = 0 ∧ w.extractLsb' 19 6 = 0 then
      some (.evclr (w.extractLsb' 13 6) (w.extractLsb' 4 3) (w.extractLsb' 0 4)) else
      none
  | 15 => if w.extractLsb' 4 7 = 0 then some (.gbar (w.extractLsb' 19 6) (w.extractLsb' 11 8) (w.extractLsb' 0 4)) else none
  | 16 => if w.extractLsb' 4 3 = 0 ∧ w.extractLsb' 19 6 = 0 then
      some (.slk (w.extractLsb' 7 12) (w.extractLsb' 0 4)) else
      if w.extractLsb' 4 15 = 4 then
      some (.slkReg (w.extractLsb' 19 6) (w.extractLsb' 0 4)) else
      none
  | 17 => if w.extractLsb' 7 12 = 0 then some (.anstat (w.extractLsb' 19 6) (w.extractLsb' 4 3) (w.extractLsb' 0 4)) else none
  | _ => none

/-- Xagael (R315 to R317, Table 4 of chapter 11). -/
def rawDecAg (w : Word32) : Option Instr :=
  if w.extractLsb' 0 15 = 11 ∧ w.extractLsb' 25 7 = 0 then
    some (.agTpost (w.extractLsb' 20 5) (w.extractLsb' 15 5))
  else if w.extractLsb' 0 15 = 4107 ∧ w.extractLsb' 20 12 = 0 then
    some (.agTix (w.extractLsb' 15 5))
  else if w.extractLsb' 0 7 = 11 ∧ w.extractLsb' 12 3 = 2 ∧ w.extractLsb' 25 2 = 0 then
    some (.agAmo (w.extractLsb' 27 5) (w.extractLsb' 20 5) (w.extractLsb' 15 5) (w.extractLsb' 7 5))
  else if w.extractLsb' 0 15 = 8203 ∧ w.extractLsb' 25 2 = 1 then
    some (.agAmoF (w.extractLsb' 27 5) (w.extractLsb' 20 5) (w.extractLsb' 15 5))
  else if w.extractLsb' 0 15 = 8203 ∧ w.extractLsb' 25 2 = 2 then
    some (.agAmoN (w.extractLsb' 27 5) (w.extractLsb' 20 5) (w.extractLsb' 15 5))
  else if w.extractLsb' 0 15 = 16395 ∧ w.extractLsb' 20 12 = 0 then
    some (.agSlk (w.extractLsb' 15 5))
  else if w.extractLsb' 0 20 = 20491 then
    some (.agSlki (w.extractLsb' 20 12))
  else if w.extractLsb' 0 25 = 28683 ∧ w.extractLsb' 27 5 = 0 then
    some (.agIcinv (w.extractLsb' 25 2))
  else if w.extractLsb' 0 32 = 12299 then
    some .agDrainR
  else if w.extractLsb' 0 25 = 12299 then
    some (.agDrainScope (w.extractLsb' 25 7))
  else if w.extractLsb' 0 32 = 43 then
    some .agExit
  else if w.extractLsb' 0 12 = 43 then
    some (.agCont (w.extractLsb' 12 20))
  else none

/-- Bits of an SVI word. -/
abbrev svRd (w : Word32) : BitVec 5 := w.extractLsb' 7 5
abbrev svF3 (w : Word32) : BitVec 3 := w.extractLsb' 12 3
abbrev svRs1 (w : Word32) : BitVec 5 := w.extractLsb' 15 5
abbrev svRs2 (w : Word32) : BitVec 5 := w.extractLsb' 20 5
abbrev svF7 (w : Word32) : BitVec 7 := w.extractLsb' 25 7
abbrev svImm (w : Word32) : BitVec 12 := w.extractLsb' 20 12

/-- RV64I functions by funct3, `alt` the bit that selects `sub` and `sra`. -/
def sviAluOf (f3 : BitVec 3) (alt : Bool) : SviAlu :=
  match f3.toNat with
  | 0 => if alt then .sub else .add
  | 1 => .sll
  | 2 => .slt
  | 3 => .sltu
  | 4 => .xor
  | 5 => if alt then .sra else .srl
  | 6 => .or
  | _ => .and

/-- Immediate forms of RV64I (opcodes 0x13 and 0x1B). -/
def decOpImm (w32 : Bool) (w : Word32) : Option Instr :=
  let f := svF3 w
  let i := svImm w
  if f = 1 ∨ f = 5 then
    let alt := i.getLsbD 10
    let sh := i &&& 0xBFF#12
    if f = 1 ∧ alt then none
    else some (.sviIntegerOp (.opImm (sviAluOf f alt) w32 (svRd w) (svRs1 w) sh))
  else some (.sviIntegerOp (.opImm (sviAluOf f false) w32 (svRd w) (svRs1 w) i))

/-- The functions of M by funct3. -/
def sviMulOf (f3 : BitVec 3) : SviMulFn :=
  match f3.toNat with
  | 0 => .mul
  | 1 => .mulh
  | 2 => .mulhsu
  | 3 => .mulhu
  | 4 => .div
  | 5 => .divu
  | 6 => .rem
  | _ => .remu

/-- Register forms of RV64I and M (opcodes 0x33 and 0x3B). -/
def decOpReg (w32 : Bool) (w : Word32) : Option Instr :=
  let f := svF3 w
  if svF7 w = 1 then some (.sviMOp ⟨sviMulOf f, w32, svRd w, svRs1 w, svRs2 w⟩)
  else if svF7 w = 0 then some (.sviIntegerOp (.opReg (sviAluOf f false) w32 (svRd w) (svRs1 w) (svRs2 w)))
  else if svF7 w = 32 ∧ (f = 0 ∨ f = 5) then some (.sviIntegerOp (.opReg (sviAluOf f true) w32 (svRd w) (svRs1 w) (svRs2 w)))
  else none

/-- The offset fields of `jal` and of branches, without the zero bit 0. -/
def jalOff (w : Word32) : BitVec 20 := w.extractLsb' 31 1 ++ w.extractLsb' 12 8 ++ w.extractLsb' 20 1 ++ w.extractLsb' 21 10
def brOff (w : Word32) : BitVec 12 := w.extractLsb' 31 1 ++ w.extractLsb' 7 1 ++ w.extractLsb' 25 6 ++ w.extractLsb' 8 4

/-- Branch conditions by funct3. -/
def sviCondOf (f3 : BitVec 3) : Option SviCond :=
  match f3.toNat with
  | 0 => some .eq
  | 1 => some .ne
  | 4 => some .lt
  | 5 => some .ge
  | 6 => some .ltu
  | 7 => some .geu
  | _ => none

/-- SYSTEM words: `ecall`, `ebreak` and Zicsr. -/
def decSystem (w : Word32) : Option Instr :=
  let csr := fun f imm => some (.sviCsrAccess ⟨f, imm, svImm w, svRd w, svRs1 w⟩)
  match (svF3 w).toNat with
  | 0 => if w = 0x73 then some .ecall else if w = 0x100073 then some .ebreak else none
  | 1 => csr .rw false
  | 2 => csr .rs false
  | 3 => csr .rc false
  | 5 => csr .rw true
  | 6 => csr .rs true
  | 7 => csr .rc true
  | _ => none

/-- OP-V words. -/
def decOpV (w : Word32) : Option Instr :=
  if svF3 w = 7 then
    if w.extractLsb' 31 1 = 0 then some (.sviVectorOp (.vsetvli (svRd w) (svRs1 w) (w.extractLsb' 20 11)))
    else if w.extractLsb' 30 1 = 1 then some (.sviVectorOp (.vsetivli (svRd w) (svRs1 w) (w.extractLsb' 20 10)))
    else if w.extractLsb' 25 6 = 0 then some (.sviVectorOp (.vsetvl (svRd w) (svRs1 w) (svRs2 w)))
    else none
  else some (.sviVectorOp (.arith (w.extractLsb' 26 6) (w.extractLsb' 25 1) (svRs2 w) (svRs1 w) (svF3 w) (svRd w)))

/-- Vector loads and stores. -/
def decVMem (st : Bool) (w : Word32) : Option Instr :=
  some (.sviVectorOp (.mem st (w.extractLsb' 29 3) (w.extractLsb' 28 1) (w.extractLsb' 26 2) (w.extractLsb' 25 1)
    (svRs2 w) (svRs1 w) (svF3 w) (svRd w)))

/-- An SVI word before the checks of well-formedness. -/
def rawDecSvi (w : Word32) : Option Instr :=
  match w.toNat % 128 with
  | 0x37 => some (.sviIntegerOp (.lui (svRd w) (w.extractLsb' 12 20)))
  | 0x17 => some (.sviIntegerOp (.auipc (svRd w) (w.extractLsb' 12 20)))
  | 0x13 => decOpImm false w
  | 0x1B => decOpImm true w
  | 0x33 => decOpReg false w
  | 0x3B => decOpReg true w
  | 0x6F => some (.sviTransfer (.jal (svRd w) (jalOff w)))
  | 0x67 => if svF3 w = 0 then some (.sviTransfer (.jalr (svRd w) (svRs1 w) (svImm w))) else none
  | 0x63 => (sviCondOf (svF3 w)).map (fun k => .sviTransfer (.branch k (svRs1 w) (svRs2 w) (brOff w)))
  | 0x03 => some (.sviLoadStore (.load (w.extractLsb' 12 2) (w.getLsbD 14) (svRd w) (svRs1 w) (svImm w)))
  | 0x23 => if w.getLsbD 14 then none
      else some (.sviLoadStore (.store (w.extractLsb' 12 2) (svRs1 w) (svRs2 w) (svF7 w ++ svRd w)))
  | 0x0F => if svF3 w = 0 then
        some (.sviFence ⟨w.extractLsb' 28 4, w.extractLsb' 24 4, w.extractLsb' 20 4, svRs1 w, svRd w⟩)
      else none
  | 0x73 => decSystem w
  | 0x57 => decOpV w
  | 0x07 => decVMem false w
  | 0x27 => decVMem true w
  | 0x0B => rawDecAg w
  | 0x2B => rawDecAg w
  | _ => none

/-- The instruction of an SVI word: an excluded word is `sviill` (R310). -/
def decSvi (w : Word32) : Instr := ((rawDecSvi w).filter wellFormed).getD (.sviill w)

/-- funct3 and the alternative bit of an RV64I function. -/
def aluF3 : SviAlu → Nat
  | .add | .sub => 0
  | .sll => 1
  | .slt => 2
  | .sltu => 3
  | .xor => 4
  | .srl | .sra => 5
  | .or => 6
  | .and => 7
def aluAlt : SviAlu → Nat
  | .sub | .sra => 1
  | _ => 0
def mulF3 : SviMulFn → Nat
  | .mul => 0
  | .mulh => 1
  | .mulhsu => 2
  | .mulhu => 3
  | .div => 4
  | .divu => 5
  | .rem => 6
  | .remu => 7
def condF3 : SviCond → Nat
  | .eq => 0
  | .ne => 1
  | .lt => 4
  | .ge => 5
  | .ltu => 6
  | .geu => 7

/-- A word from its RISC-V fields. -/
def rvWord (op rd f3 rs1 up : Nat) : Word32 := BitVec.ofNat 32 (op + rd * 128 + f3 * 4096 + rs1 * 32768 + up * 1048576)

/-- The word of an RV64I arithmetic instruction. -/
def encInt : SviInt → Word32
  | .lui rd imm => BitVec.ofNat 32 (0x37 + rd.toNat * 128 + imm.toNat * 4096)
  | .auipc rd imm => BitVec.ofNat 32 (0x17 + rd.toNat * 128 + imm.toNat * 4096)
  | .opImm f w rd rs1 imm => rvWord (if w then 0x1B else 0x13) rd.toNat (aluF3 f) rs1.toNat (imm.toNat + aluAlt f * 1024)
  | .opReg f w rd rs1 rs2 => rvWord (if w then 0x3B else 0x33) rd.toNat (aluF3 f) rs1.toNat (rs2.toNat + aluAlt f * 1024)

/-- The word of a transfer. -/
def encJump : SviJump → Word32
  | .jal rd off =>
    BitVec.ofNat 32 (0x6F + rd.toNat * 128 + off.toNat / 2048 % 256 * 4096 + off.toNat / 1024 % 2 * 1048576 +
      off.toNat % 1024 * 2097152 + off.toNat / 524288 * 2147483648)
  | .jalr rd rs1 imm => rvWord 0x67 rd.toNat 0 rs1.toNat imm.toNat
  | .branch c rs1 rs2 off =>
    BitVec.ofNat 32 (0x63 + off.toNat / 1024 % 2 * 128 + off.toNat % 16 * 256 + condF3 c * 4096 + rs1.toNat * 32768 +
      rs2.toNat * 1048576 + off.toNat / 16 % 64 * 33554432 + off.toNat / 2048 * 2147483648)

/-- The word of a load or store. -/
def encMem : SviMem → Word32
  | .load z u rd rs1 imm => rvWord 0x03 rd.toNat (z.toNat + (if u then 4 else 0)) rs1.toNat imm.toNat
  | .store z rs1 rs2 imm => rvWord 0x23 (imm.toNat % 32) z.toNat rs1.toNat (rs2.toNat + imm.toNat / 32 * 32)

/-- The word of a vector instruction. -/
def encVec : SviVec → Word32
  | .vsetvli rd rs1 z => rvWord 0x57 rd.toNat 7 rs1.toNat z.toNat
  | .vsetivli rd u z => rvWord 0x57 rd.toNat 7 u.toNat (z.toNat + 3072)
  | .vsetvl rd rs1 rs2 => rvWord 0x57 rd.toNat 7 rs1.toNat (rs2.toNat + 2048)
  | .arith f6 vm vs2 vs1 f3 vd => rvWord 0x57 vd.toNat f3.toNat vs1.toNat (vs2.toNat + vm.toNat * 32 + f6.toNat * 64)
  | .mem st nf mew mop vm rs2 rs1 width vd =>
    rvWord (if st then 0x27 else 0x07) vd.toNat width.toNat rs1.toNat
      (rs2.toNat + vm.toNat * 32 + mop.toNat * 64 + mew.toNat * 256 + nf.toNat * 512)

/-- The word of a Zicsr instruction. -/
def encCsr (o : SviCsr) : Word32 :=
  let f := match o.f with
    | .rw => 1
    | .rs => 2
    | .rc => 3
  rvWord 0x73 o.rd.toNat (f + (if o.imm then 4 else 0)) o.src.toNat o.csr.toNat

/-- The word of an instruction: its slot word, or its SVI word. Steps without an encoding have none. -/
def encode : Instr → Option Word32
  | .nop => some 0
  | .br o g => some (BitVec.ofNat 32 (0x2000000 + o.toNat * 16 + g.toNat))
  | .brp a c o g => some (BitVec.ofNat 32 (0x4000000 + a.toNat * 524288 + c.toNat * 131072 + o.toNat * 16 + g.toNat))
  | .call o g => some (BitVec.ofNat 32 (0x6000000 + o.toNat * 16 + g.toNat))
  | .ret g => some (BitVec.ofNat 32 (0x8000000 + g.toNat))
  | .jr a g => some (BitVec.ofNat 32 (0xa000000 + a.toNat * 8192 + g.toNat))
  | .callX a g => some (BitVec.ofNat 32 (0x32000000 + a.toNat * 8192 + g.toNat))
  | .loop a l g => some (BitVec.ofNat 32 (0xc000000 + a.toNat * 8192 + l.toNat * 16 + g.toNat))
  | .loope s a l g => some (BitVec.ofNat 32 (0xe000000 + s.toNat * 524288 + a.toNat * 8192 + l.toNat * 16 + g.toNat))
  | .lpstage g => some (BitVec.ofNat 32 (0x10000000 + g.toNat))
  | .step i g => some (BitVec.ofNat 32 (0x12000000 + i.toNat * 16 + g.toNat))
  | .exit g => some (BitVec.ofNat 32 (0x14000000 + g.toNat))
  | .cont o g => some (BitVec.ofNat 32 (0x16000000 + o.toNat * 16 + g.toNat))
  | .setlt t i g => some (BitVec.ofNat 32 (0x18000000 + t.toNat * 1048576 + i.toNat * 16 + g.toNat))
  | .setltX t a g => some (BitVec.ofNat 32 (0x30000000 + t.toNat * 1048576 + a.toNat * 8192 + g.toNat))
  | .evwait d a b w g => some (BitVec.ofNat 32 (0x1a000000 + d.toNat * 1048576 + a.toNat * 8192 + b.toNat * 128 +
      w.toNat * 16 + g.toNat))
  | .trap i g => some (BitVec.ofNat 32 (0x1c000000 + i.toNat * 16 + g.toNat))
  | .sysc i g => some (BitVec.ofNat 32 (0x1e000000 + i.toNat * 16 + g.toNat))
  | .bkpt i g => some (BitVec.ofNat 32 (0x26000000 + i.toNat * 16 + g.toNat))
  | .emret g => some (BitVec.ofNat 32 (0x20000000 + g.toNat))
  | .icinv s g => some (BitVec.ofNat 32 (0x22000000 + s.toNat * 16 + g.toNat))
  | .publish c a b g => some (BitVec.ofNat 32 (0x24000000 + c.toNat * 524288 + a.toNat * 8192 + b.toNat * 128 + g.toNat))
  | .csrr d r g => some (BitVec.ofNat 32 (0x28000000 + d.toNat * 524288 + r.toNat * 128 + g.toNat))
  | .csrw a r g => some (BitVec.ofNat 32 (0x2a000000 + a.toNat * 524288 + r.toNat * 128 + g.toNat))
  | .csrs a r g => some (BitVec.ofNat 32 (0x2c000000 + a.toNat * 524288 + r.toNat * 128 + g.toNat))
  | .csrc a r g => some (BitVec.ofNat 32 (0x2e000000 + a.toNat * 524288 + r.toNat * 128 + g.toNat))
  | .csrwI i r g => some (BitVec.ofNat 32 (0x34000000 + i.toNat * 524288 + r.toNat * 128 + g.toNat))
  | .csrsI i r g => some (BitVec.ofNat 32 (0x36000000 + i.toNat * 524288 + r.toNat * 128 + g.toNat))
  | .csrcI i r g => some (BitVec.ofNat 32 (0x38000000 + i.toNat * 524288 + r.toNat * 128 + g.toNat))
  | .add d a b g => some (BitVec.ofNat 32 (0x2000000 + d.toNat * 524288 + a.toNat * 8192 + b.toNat * 128 + g.toNat))
  | .sub d a b g => some (BitVec.ofNat 32 (0x4000000 + d.toNat * 524288 + a.toNat * 8192 + b.toNat * 128 + g.toNat))
  | .addi d a i g => some (BitVec.ofNat 32 (0x6000000 + d.toNat * 524288 + a.toNat * 8192 + i.toNat * 16 + g.toNat))
  | .and d a b g => some (BitVec.ofNat 32 (0x8000000 + d.toNat * 524288 + a.toNat * 8192 + b.toNat * 128 + g.toNat))
  | .or d a b g => some (BitVec.ofNat 32 (0xa000000 + d.toNat * 524288 + a.toNat * 8192 + b.toNat * 128 + g.toNat))
  | .xor d a b g => some (BitVec.ofNat 32 (0xc000000 + d.toNat * 524288 + a.toNat * 8192 + b.toNat * 128 + g.toNat))
  | .andi d a i g => some (BitVec.ofNat 32 (0xe000000 + d.toNat * 524288 + a.toNat * 8192 + i.toNat * 16 + g.toNat))
  | .ori d a i g => some (BitVec.ofNat 32 (0x10000000 + d.toNat * 524288 + a.toNat * 8192 + i.toNat * 16 + g.toNat))
  | .xori d a i g => some (BitVec.ofNat 32 (0x12000000 + d.toNat * 524288 + a.toNat * 8192 + i.toNat * 16 + g.toNat))
  | .sll d a b g => some (BitVec.ofNat 32 (0x14000000 + d.toNat * 524288 + a.toNat * 8192 + b.toNat * 128 + g.toNat))
  | .srl d a b g => some (BitVec.ofNat 32 (0x16000000 + d.toNat * 524288 + a.toNat * 8192 + b.toNat * 128 + g.toNat))
  | .sra d a b g => some (BitVec.ofNat 32 (0x18000000 + d.toNat * 524288 + a.toNat * 8192 + b.toNat * 128 + g.toNat))
  | .slli d a i g => some (BitVec.ofNat 32 (0x1a000000 + d.toNat * 524288 + a.toNat * 8192 + i.toNat * 16 + g.toNat))
  | .srli d a i g => some (BitVec.ofNat 32 (0x1c000000 + d.toNat * 524288 + a.toNat * 8192 + i.toNat * 16 + g.toNat))
  | .srai d a i g => some (BitVec.ofNat 32 (0x1e000000 + d.toNat * 524288 + a.toNat * 8192 + i.toNat * 16 + g.toNat))
  | .li d i g => some (BitVec.ofNat 32 (0x20000000 + d.toNat * 524288 + i.toNat * 16 + g.toNat))
  | .lih d i g => some (BitVec.ofNat 32 (0x22000000 + d.toNat * 524288 + i.toNat * 16 + g.toNat))
  | .mul d a b g => some (BitVec.ofNat 32 (0x24000000 + d.toNat * 524288 + a.toNat * 8192 + b.toNat * 128 + g.toNat))
  | .mulh d a b g => some (BitVec.ofNat 32 (0x26000000 + d.toNat * 524288 + a.toNat * 8192 + b.toNat * 128 + g.toNat))
  | .mulhu d a b g => some (BitVec.ofNat 32 (0x28000000 + d.toNat * 524288 + a.toNat * 8192 + b.toNat * 128 + g.toNat))
  | .mulhsu d a b g => some (BitVec.ofNat 32 (0x2a000000 + d.toNat * 524288 + a.toNat * 8192 + b.toNat * 128 + g.toNat))
  | .div d a b g => some (BitVec.ofNat 32 (0x2c000000 + d.toNat * 524288 + a.toNat * 8192 + b.toNat * 128 + g.toNat))
  | .divu d a b g => some (BitVec.ofNat 32 (0x2e000000 + d.toNat * 524288 + a.toNat * 8192 + b.toNat * 128 + g.toNat))
  | .rem d a b g => some (BitVec.ofNat 32 (0x30000000 + d.toNat * 524288 + a.toNat * 8192 + b.toNat * 128 + g.toNat))
  | .remu d a b g => some (BitVec.ofNat 32 (0x32000000 + d.toNat * 524288 + a.toNat * 8192 + b.toNat * 128 + g.toNat))
  | .min d a b g => some (BitVec.ofNat 32 (0x34000000 + d.toNat * 524288 + a.toNat * 8192 + b.toNat * 128 + g.toNat))
  | .max d a b g => some (BitVec.ofNat 32 (0x36000000 + d.toNat * 524288 + a.toNat * 8192 + b.toNat * 128 + g.toNat))
  | .minu d a b g => some (BitVec.ofNat 32 (0x38000000 + d.toNat * 524288 + a.toNat * 8192 + b.toNat * 128 + g.toNat))
  | .maxu d a b g => some (BitVec.ofNat 32 (0x3a000000 + d.toNat * 524288 + a.toNat * 8192 + b.toNat * 128 + g.toNat))
  | .clz d a g => some (BitVec.ofNat 32 (0x3c000000 + d.toNat * 524288 + a.toNat * 8192 + g.toNat))
  | .ctz d a g => some (BitVec.ofNat 32 (0x3e000000 + d.toNat * 524288 + a.toNat * 8192 + g.toNat))
  | .popc d a g => some (BitVec.ofNat 32 (0x40000000 + d.toNat * 524288 + a.toNat * 8192 + g.toNat))
  | .sext d a i g => some (BitVec.ofNat 32 (0x42000000 + d.toNat * 524288 + a.toNat * 8192 + i.toNat * 16 + g.toNat))
  | .zext d a i g => some (BitVec.ofNat 32 (0x44000000 + d.toNat * 524288 + a.toNat * 8192 + i.toNat * 16 + g.toNat))
  | .cmp d a b c g => some (BitVec.ofNat 32 (0x46000000 + d.toNat * 1048576 + a.toNat * 8192 + b.toNat * 128 +
      c.toNat * 16 + g.toNat))
  | .cmpi d a i c g => some (BitVec.ofNat 32 (0x48000000 + d.toNat * 1048576 + a.toNat * 8192 + i.toNat * 128 +
      c.toNat * 16 + g.toNat))
  | .pand d a b g => some (BitVec.ofNat 32 (0x4a000000 + d.toNat * 1048576 + a.toNat * 8192 + b.toNat * 128 + g.toNat))
  | .por d a b g => some (BitVec.ofNat 32 (0x4c000000 + d.toNat * 1048576 + a.toNat * 8192 + b.toNat * 128 + g.toNat))
  | .pxor d a b g => some (BitVec.ofNat 32 (0x4e000000 + d.toNat * 1048576 + a.toNat * 8192 + b.toNat * 128 + g.toNat))
  | .pandn d a b g => some (BitVec.ofNat 32 (0x50000000 + d.toNat * 1048576 + a.toNat * 8192 + b.toNat * 128 + g.toNat))
  | .sel d a b f g => some (BitVec.ofNat 32 (0x52000000 + d.toNat * 524288 + a.toNat * 8192 + b.toNat * 128 +
      f.toNat * 16 + g.toNat))
  | .mov d a g => some (BitVec.ofNat 32 (0x54000000 + d.toNat * 524288 + a.toNat * 8192 + g.toNat))
  | .movFromPall d g => some (BitVec.ofNat 32 (0x54000010 + d.toNat * 524288 + g.toNat))
  | .movToPall a g => some (BitVec.ofNat 32 (0x54000020 + a.toNat * 8192 + g.toNat))
  | .adds d a b f g => some (BitVec.ofNat 32 (0x56000000 + d.toNat * 524288 + a.toNat * 8192 + b.toNat * 128 +
      f.toNat * 16 + g.toNat))
  | .subs d a b f g => some (BitVec.ofNat 32 (0x58000000 + d.toNat * 524288 + a.toNat * 8192 + b.toNat * 128 +
      f.toNat * 16 + g.toNat))
  | .bfx d a b g => some (BitVec.ofNat 32 (0x5a000000 + d.toNat * 524288 + a.toNat * 8192 + b.toNat * 128 + g.toNat))
  | .bfxu d a b g => some (BitVec.ofNat 32 (0x5c000000 + d.toNat * 524288 + a.toNat * 8192 + b.toNat * 128 + g.toNat))
  | .bfi d a b g => some (BitVec.ofNat 32 (0x5e000000 + d.toNat * 524288 + a.toNat * 8192 + b.toNat * 128 + g.toNat))
  | .ldb d a t o g => some (BitVec.ofNat 32 (0x2000000 + d.toNat * 524288 + a.toNat * 8192 + t.toNat * 512 + o.toNat * 16 +
      g.toNat))
  | .ldbu d a t o g => some (BitVec.ofNat 32 (0x4000000 + d.toNat * 524288 + a.toNat * 8192 + t.toNat * 512 +
      o.toNat * 16 + g.toNat))
  | .ldh d a t o g => some (BitVec.ofNat 32 (0x6000000 + d.toNat * 524288 + a.toNat * 8192 + t.toNat * 512 + o.toNat * 16 +
      g.toNat))
  | .ldhu d a t o g => some (BitVec.ofNat 32 (0x8000000 + d.toNat * 524288 + a.toNat * 8192 + t.toNat * 512 +
      o.toNat * 16 + g.toNat))
  | .ldw d a t o g => some (BitVec.ofNat 32 (0xa000000 + d.toNat * 524288 + a.toNat * 8192 + t.toNat * 512 + o.toNat * 16 +
      g.toNat))
  | .ldwu d a t o g => some (BitVec.ofNat 32 (0xc000000 + d.toNat * 524288 + a.toNat * 8192 + t.toNat * 512 +
      o.toNat * 16 + g.toNat))
  | .ldd d a t o g => some (BitVec.ofNat 32 (0xe000000 + d.toNat * 524288 + a.toNat * 8192 + t.toNat * 512 + o.toNat * 16 +
      g.toNat))
  | .stb b a o g => some (BitVec.ofNat 32 (0x10000000 + b.toNat * 524288 + a.toNat * 8192 + o.toNat * 16 + g.toNat))
  | .sth b a o g => some (BitVec.ofNat 32 (0x12000000 + b.toNat * 524288 + a.toNat * 8192 + o.toNat * 16 + g.toNat))
  | .stw b a o g => some (BitVec.ofNat 32 (0x14000000 + b.toNat * 524288 + a.toNat * 8192 + o.toNat * 16 + g.toNat))
  | .std b a o g => some (BitVec.ofNat 32 (0x16000000 + b.toNat * 524288 + a.toNat * 8192 + o.toNat * 16 + g.toNat))
  | .ldx d a b t g => some (BitVec.ofNat 32 (0x18000000 + d.toNat * 524288 + a.toNat * 8192 + b.toNat * 128 +
      t.toNat * 16 + g.toNat))
  | .stx s a b z g => some (BitVec.ofNat 32 (0x1a000000 + s.toNat * 524288 + a.toNat * 8192 + b.toNat * 128 +
      z.toNat * 32 + g.toNat))
  | .tld d t a b g => some (BitVec.ofNat 32 (0x1c000000 + d.toNat * 2097152 + t.toNat * 131072 + a.toNat * 2048 +
      b.toNat * 32 + g.toNat))
  | .tldt d t a b g => some (BitVec.ofNat 32 (0x1e000000 + d.toNat * 2097152 + t.toNat * 131072 + a.toNat * 2048 +
      b.toNat * 32 + g.toNat))
  | .tst s a b g => some (BitVec.ofNat 32 (0x20000000 + s.toNat * 2097152 + a.toNat * 2048 + b.toNat * 32 + g.toNat))
  | .bld t a b m g => some (BitVec.ofNat 32 (0x22000000 + t.toNat * 2097152 + a.toNat * 32768 + b.toNat * 512 +
      m.toNat * 256 + g.toNat))
  | .rld c a z i s g => some (BitVec.ofNat 32 (0x24000000 + c.toNat * 524288 + a.toNat * 8192 + z.toNat * 1024 +
      i.toNat * 512 + s.toNat * 16 + g.toNat))
  | .rst b a z i s g => some (BitVec.ofNat 32 (0x26000000 + b.toNat * 524288 + a.toNat * 8192 + z.toNat * 2048 +
      i.toNat * 512 + s.toNat * 16 + g.toNat))
  | .amo d a h t g => some (BitVec.ofNat 32 (0x28000000 + d.toNat * 524288 + a.toNat * 8192 + h.toNat * 256 +
      t.toNat * 16 + g.toNat))
  | .amoF d a h g => some (BitVec.ofNat 32 (0x2a000000 + d.toNat * 524288 + a.toNat * 8192 + h.toNat * 256 + g.toNat))
  | .amoN d a h g => some (BitVec.ofNat 32 (0x2c000000 + d.toNat * 524288 + a.toNat * 8192 + h.toNat * 256 + g.toNat))
  | .fence s g => some (BitVec.ofNat 32 (0x2e000000 + s.toNat * 16 + g.toNat))
  | .drain c g => some (BitVec.ofNat 32 (0x30000000 + c.toNat * 16 + g.toNat))
  | .drainR g => some (BitVec.ofNat 32 (0x32000000 + g.toNat))
  | .bwait d a b s g => some (BitVec.ofNat 32 (0x34000000 + d.toNat * 1048576 + a.toNat * 8192 + b.toNat * 128 +
      s.toNat * 16 + g.toNat))
  | .qpush a g => some (BitVec.ofNat 32 (0x36000000 + a.toNat * 8192 + g.toNat))
  | .tpost c a g => some (BitVec.ofNat 32 (0x38000000 + c.toNat * 524288 + a.toNat * 8192 + g.toNat))
  | .tix a g => some (BitVec.ofNat 32 (0x3a000000 + a.toNat * 8192 + g.toNat))
  | .vsetvl d a b g => some (BitVec.ofNat 32 (0x2000000 + d.toNat * 524288 + a.toNat * 8192 + b.toNat * 128 + g.toNat))
  | .vsetvlRead d g => some (BitVec.ofNat 32 (0x2000010 + d.toNat * 524288 + g.toNat))
  | .vsetvli d a v g => some (BitVec.ofNat 32 (0x4000000 + d.toNat * 524288 + a.toNat * 8192 + v.toNat * 16 + g.toNat))
  | .vsetivli d l v g => some (BitVec.ofNat 32 (0x6000000 + d.toNat * 524288 + l.toNat * 2048 + v.toNat * 16 + g.toNat))
  | .vadd d a b k m g => some (BitVec.ofNat 32 (0x8000000 + d.toNat * 1048576 + a.toNat * 16384 + b.toNat * 256 +
      k.toNat * 64 + m.toNat * 32 + g.toNat))
  | .vsub d a b k m g => some (BitVec.ofNat 32 (0xa000000 + d.toNat * 1048576 + a.toNat * 16384 + b.toNat * 256 +
      k.toNat * 64 + m.toNat * 32 + g.toNat))
  | .vand d a b k m g => some (BitVec.ofNat 32 (0xc000000 + d.toNat * 1048576 + a.toNat * 16384 + b.toNat * 256 +
      k.toNat * 64 + m.toNat * 32 + g.toNat))
  | .vor d a b k m g => some (BitVec.ofNat 32 (0xe000000 + d.toNat * 1048576 + a.toNat * 16384 + b.toNat * 256 +
      k.toNat * 64 + m.toNat * 32 + g.toNat))
  | .vxor d a b k m g => some (BitVec.ofNat 32 (0x10000000 + d.toNat * 1048576 + a.toNat * 16384 + b.toNat * 256 +
      k.toNat * 64 + m.toNat * 32 + g.toNat))
  | .vsll d a b k m g => some (BitVec.ofNat 32 (0x12000000 + d.toNat * 1048576 + a.toNat * 16384 + b.toNat * 256 +
      k.toNat * 64 + m.toNat * 32 + g.toNat))
  | .vsrl d a b k m g => some (BitVec.ofNat 32 (0x14000000 + d.toNat * 1048576 + a.toNat * 16384 + b.toNat * 256 +
      k.toNat * 64 + m.toNat * 32 + g.toNat))
  | .vsra d a b k m g => some (BitVec.ofNat 32 (0x16000000 + d.toNat * 1048576 + a.toNat * 16384 + b.toNat * 256 +
      k.toNat * 64 + m.toNat * 32 + g.toNat))
  | .vmul d a b k m g => some (BitVec.ofNat 32 (0x18000000 + d.toNat * 1048576 + a.toNat * 16384 + b.toNat * 256 +
      k.toNat * 64 + m.toNat * 32 + g.toNat))
  | .vmulh d a b k m u g => some (BitVec.ofNat 32 (0x1a000000 + d.toNat * 1048576 + a.toNat * 16384 + b.toNat * 256 +
      k.toNat * 64 + m.toNat * 32 + u.toNat * 16 + g.toNat))
  | .vmin d a b k m g => some (BitVec.ofNat 32 (0x1c000000 + d.toNat * 1048576 + a.toNat * 16384 + b.toNat * 256 +
      k.toNat * 64 + m.toNat * 32 + g.toNat))
  | .vmax d a b k m g => some (BitVec.ofNat 32 (0x1e000000 + d.toNat * 1048576 + a.toNat * 16384 + b.toNat * 256 +
      k.toNat * 64 + m.toNat * 32 + g.toNat))
  | .vminu d a b k m g => some (BitVec.ofNat 32 (0x20000000 + d.toNat * 1048576 + a.toNat * 16384 + b.toNat * 256 +
      k.toNat * 64 + m.toNat * 32 + g.toNat))
  | .vmaxu d a b k m g => some (BitVec.ofNat 32 (0x22000000 + d.toNat * 1048576 + a.toNat * 16384 + b.toNat * 256 +
      k.toNat * 64 + m.toNat * 32 + g.toNat))
  | .vsadd d a b k m u g => some (BitVec.ofNat 32 (0x24000000 + d.toNat * 1048576 + a.toNat * 16384 + b.toNat * 256 +
      k.toNat * 64 + m.toNat * 32 + u.toNat * 16 + g.toNat))
  | .vssub d a b k m u g => some (BitVec.ofNat 32 (0x26000000 + d.toNat * 1048576 + a.toNat * 16384 + b.toNat * 256 +
      k.toNat * 64 + m.toNat * 32 + u.toNat * 16 + g.toNat))
  | .vsmul d a b r m g => some (BitVec.ofNat 32 (0x28000000 + d.toNat * 1048576 + a.toNat * 16384 + b.toNat * 512 +
      r.toNat * 128 + m.toNat * 64 + g.toNat))
  | .vwadd d a b k m u g => some (BitVec.ofNat 32 (0x2a000000 + d.toNat * 1048576 + a.toNat * 16384 + b.toNat * 256 +
      k.toNat * 64 + m.toNat * 32 + u.toNat * 16 + g.toNat))
  | .vwmul d a b k m u g => some (BitVec.ofNat 32 (0x2c000000 + d.toNat * 1048576 + a.toNat * 16384 + b.toNat * 256 +
      k.toNat * 64 + m.toNat * 32 + u.toNat * 16 + g.toNat))
  | .vwmacc d a b k m u g => some (BitVec.ofNat 32 (0x2e000000 + d.toNat * 1048576 + a.toNat * 16384 + b.toNat * 256 +
      k.toNat * 64 + m.toNat * 32 + u.toNat * 16 + g.toNat))
  | .vnsra d a b k r m g => some (BitVec.ofNat 32 (0x30000000 + d.toNat * 1048576 + a.toNat * 16384 + b.toNat * 256 +
      k.toNat * 128 + r.toNat * 32 + m.toNat * 16 + g.toNat))
  | .vnclip d a s r m u q g => some (BitVec.ofNat 32 (0x32000000 + d.toNat * 1048576 + a.toNat * 16384 + s.toNat * 512 +
      r.toNat * 128 + m.toNat * 64 + u.toNat * 32 + q.toNat * 16 + g.toNat))
  | .vshr d a b k r m g => some (BitVec.ofNat 32 (0x34000000 + d.toNat * 1048576 + a.toNat * 16384 + b.toNat * 256 +
      k.toNat * 128 + r.toNat * 32 + m.toNat * 16 + g.toNat))
  | .vcmp d a b k c g => some (BitVec.ofNat 32 (0x36000000 + d.toNat * 1048576 + a.toNat * 16384 + b.toNat * 256 +
      k.toNat * 128 + c.toNat * 16 + g.toNat))
  | .vmerge d a b k g => some (BitVec.ofNat 32 (0x38000000 + d.toNat * 1048576 + a.toNat * 16384 + b.toNat * 256 +
      k.toNat * 64 + g.toNat))
  | .vmlog d a b f g => some (BitVec.ofNat 32 (0x3a000000 + d.toNat * 1048576 + a.toNat * 16384 + b.toNat * 512 +
      f.toNat * 64 + g.toNat))
  | .vredsum d a b w u m g => some (BitVec.ofNat 32 (0x3c000000 + d.toNat * 1048576 + a.toNat * 16384 + b.toNat * 512 +
      w.toNat * 256 + u.toNat * 128 + m.toNat * 64 + g.toNat))
  | .vredmax d a b u m g => some (BitVec.ofNat 32 (0x3e000000 + d.toNat * 1048576 + a.toNat * 16384 + b.toNat * 512 +
      u.toNat * 128 + m.toNat * 64 + g.toNat))
  | .vredmin d a b u m g => some (BitVec.ofNat 32 (0x40000000 + d.toNat * 1048576 + a.toNat * 16384 + b.toNat * 512 +
      u.toNat * 128 + m.toNat * 64 + g.toNat))
  | .vscan d a b w u m g => some (BitVec.ofNat 32 (0x42000000 + d.toNat * 1048576 + a.toNat * 16384 + b.toNat * 512 +
      w.toNat * 256 + u.toNat * 128 + m.toNat * 64 + g.toNat))
  | .vslideup d a b k m g => some (BitVec.ofNat 32 (0x44000000 + d.toNat * 1048576 + a.toNat * 16384 + b.toNat * 256 +
      k.toNat * 128 + m.toNat * 64 + g.toNat))
  | .vslidedn d a b k m g => some (BitVec.ofNat 32 (0x46000000 + d.toNat * 1048576 + a.toNat * 16384 + b.toNat * 256 +
      k.toNat * 128 + m.toNat * 64 + g.toNat))
  | .vgath d a b m g => some (BitVec.ofNat 32 (0x48000000 + d.toNat * 1048576 + a.toNat * 16384 + b.toNat * 512 +
      m.toNat * 64 + g.toNat))
  | .vcompress d a b g => some (BitVec.ofNat 32 (0x4a000000 + d.toNat * 1048576 + a.toNat * 16384 + b.toNat * 512 + g.toNat))
  | .vld d a t m g => some (BitVec.ofNat 32 (0x4c000000 + d.toNat * 1048576 + a.toNat * 8192 + t.toNat * 512 +
      m.toNat * 256 + g.toNat))
  | .vlds d a t m g => some (BitVec.ofNat 32 (0x4e000000 + d.toNat * 1048576 + a.toNat * 8192 + t.toNat * 512 +
      m.toNat * 256 + g.toNat))
  | .vldx d a b m t g => some (BitVec.ofNat 32 (0x50000000 + d.toNat * 1048576 + a.toNat * 8192 + b.toNat * 256 +
      m.toNat * 128 + t.toNat * 16 + g.toNat))
  | .vldff d a t m g => some (BitVec.ofNat 32 (0x52000000 + d.toNat * 1048576 + a.toNat * 8192 + t.toNat * 512 +
      m.toNat * 256 + g.toNat))
  | .vst s a m g => some (BitVec.ofNat 32 (0x54000000 + s.toNat * 1048576 + a.toNat * 16384 + m.toNat * 16 + g.toNat))
  | .vsts s a m g => some (BitVec.ofNat 32 (0x56000000 + s.toNat * 1048576 + a.toNat * 16384 + m.toNat * 16 + g.toNat))
  | .vstx s a b m g => some (BitVec.ofNat 32 (0x58000000 + s.toNat * 1048576 + a.toNat * 16384 + b.toNat * 512 +
      m.toNat * 16 + g.toNat))
  | .vexp d a e m g => some (BitVec.ofNat 32 (0x5a000000 + d.toNat * 1048576 + a.toNat * 16384 + e.toNat * 64 +
      m.toNat * 32 + g.toNat))
  | .vrsqrt d a e m g => some (BitVec.ofNat 32 (0x5c000000 + d.toNat * 1048576 + a.toNat * 16384 + e.toNat * 64 +
      m.toNat * 32 + g.toNat))
  | .vrecip d a e m g => some (BitVec.ofNat 32 (0x5e000000 + d.toNat * 1048576 + a.toNat * 16384 + e.toNat * 64 +
      m.toNat * 32 + g.toNat))
  | .vdiv d a b m g => some (BitVec.ofNat 32 (0x60000000 + d.toNat * 1048576 + a.toNat * 16384 + b.toNat * 512 +
      m.toNat * 64 + g.toNat))
  | .vmvxs d a b g => some (BitVec.ofNat 32 (0x62000000 + d.toNat * 524288 + a.toNat * 16384 + b.toNat * 256 + g.toNat))
  | .vmvsx d a b g => some (BitVec.ofNat 32 (0x64000000 + d.toNat * 1048576 + a.toNat * 8192 + b.toNat * 128 + g.toNat))
  | .vsplat d a m g => some (BitVec.ofNat 32 (0x66000000 + d.toNat * 1048576 + a.toNat * 8192 + m.toNat * 4096 + g.toNat))
  | .vmov d a r g => some (BitVec.ofNat 32 (0x68000000 + d.toNat * 1048576 + a.toNat * 16384 + r.toNat * 16 + g.toNat))
  | .aalloc d n g => some (BitVec.ofNat 32 (0x2000000 + d.toNat * 524288 + n.toNat * 4096 + g.toNat))
  | .afree b n g => some (BitVec.ofNat 32 (0x4000000 + b.toNat * 262144 + n.toNat * 2048 + g.toNat))
  | .mma a t x m g => some (BitVec.ofNat 32 (0x6000000 + a.toNat * 2097152 + t.toNat * 32768 + x.toNat * 512 +
      m.toNat * 256 + g.toNat))
  | .mmaz a t x m g => some (BitVec.ofNat 32 (0x8000000 + a.toNat * 2097152 + t.toNat * 32768 + x.toNat * 512 +
      m.toNat * 256 + g.toNat))
  | .mmag a t x m g => some (BitVec.ofNat 32 (0xa000000 + a.toNat * 2097152 + t.toNat * 32768 + x.toNat * 512 +
      m.toNat * 256 + g.toNat))
  | .aout d b s r z g => some (BitVec.ofNat 32 (0xc000000 + d.toNat * 2097152 + b.toNat * 16384 + s.toNat * 512 +
      r.toNat * 128 + z.toNat * 64 + g.toNat))
  | .aoutq q b r z g => some (BitVec.ofNat 32 (0xe000000 + q.toNat * 2097152 + b.toNat * 16384 + r.toNat * 128 +
      z.toNat * 64 + g.toNat))
  | .azero b n g => some (BitVec.ofNat 32 (0x10000000 + b.toNat * 262144 + n.toNat * 2048 + g.toNat))
  | .tzero d g => some (BitVec.ofNat 32 (0x12000000 + d.toNat * 2097152 + g.toNat))
  | .tmov d s g => some (BitVec.ofNat 32 (0x14000000 + d.toNat * 2097152 + s.toNat * 131072 + g.toNat))
  | .smset a f g => some (BitVec.ofNat 32 (0x16000000 + a.toNat * 8192 + f.toNat * 256 + g.toNat))
  | .smclr g => some (BitVec.ofNat 32 (0x18000000 + g.toNat))
  | .ecfg c f a g => some (BitVec.ofNat 32 (0x2000000 + c.toNat * 8388608 + f.toNat * 131072 + a.toNat * 2048 + g.toNat))
  | .ego c g => some (BitVec.ofNat 32 (0x4000000 + c.toNat * 8388608 + g.toNat))
  | .estat d c g => some (BitVec.ofNat 32 (0x6000000 + d.toNat * 524288 + c.toNat * 16 + g.toNat))
  | .qcfgSrc a q g => some (BitVec.ofNat 32 (0x8000000 + a.toNat * 8192 + q.toNat * 256 + g.toNat))
  | .qcfgSnk a q g => some (BitVec.ofNat 32 (0x8001000 + a.toNat * 8192 + q.toNat * 256 + g.toNat))
  | .qenq v q g => some (BitVec.ofNat 32 (0xa000000 + v.toNat * 1048576 + q.toNat * 16 + g.toNat))
  | .qdeq v q g => some (BitVec.ofNat 32 (0xc000000 + v.toNat * 1048576 + q.toNat * 65536 + g.toNat))
  | .qdeqTile d q a g => some (BitVec.ofNat 32 (0xc008000 + d.toNat * 2097152 + q.toNat * 65536 + a.toNat * 512 + g.toNat))
  | .qreset q g => some (BitVec.ofNat 32 (0xe000000 + q.toNat * 16 + g.toNat))
  | .qstat d q g => some (BitVec.ofNat 32 (0x10000000 + d.toNat * 524288 + q.toNat * 16 + g.toNat))
  | .scld s a t g => some (BitVec.ofNat 32 (0x12000000 + s.toNat * 524288 + a.toNat * 8192 + t.toNat * 512 + g.toNat))
  | .scst s g => some (BitVec.ofNat 32 (0x14000000 + s.toNat * 524288 + g.toNat))
  | .scset s a f g => some (BitVec.ofNat 32 (0x16000000 + s.toNat * 524288 + a.toNat * 8192 + f.toNat * 1024 + g.toNat))
  | .srseed a g => some (BitVec.ofNat 32 (0x18000000 + a.toNat * 8192 + g.toNat))
  | .evset a w g => some (BitVec.ofNat 32 (0x1a000000 + a.toNat * 8192 + w.toNat * 16 + g.toNat))
  | .evclr a w g => some (BitVec.ofNat 32 (0x1c000000 + a.toNat * 8192 + w.toNat * 16 + g.toNat))
  | .gbar c e g => some (BitVec.ofNat 32 (0x1e000000 + c.toNat * 524288 + e.toNat * 2048 + g.toNat))
  | .slk i g => some (BitVec.ofNat 32 (0x20000000 + i.toNat * 128 + g.toNat))
  | .slkReg a g => some (BitVec.ofNat 32 (0x20000040 + a.toNat * 524288 + g.toNat))
  | .anstat d s g => some (BitVec.ofNat 32 (0x22000000 + d.toNat * 524288 + s.toNat * 16 + g.toNat))
  | .agTpost b a => some (BitVec.ofNat 32 (0xb + b.toNat * 1048576 + a.toNat * 32768))
  | .agTix a => some (BitVec.ofNat 32 (0x100b + a.toNat * 32768))
  | .agAmo h b a d => some (BitVec.ofNat 32 (0x200b + h.toNat * 134217728 + b.toNat * 1048576 + a.toNat * 32768 +
      d.toNat * 128))
  | .agAmoF h b a => some (BitVec.ofNat 32 (0x200200b + h.toNat * 134217728 + b.toNat * 1048576 + a.toNat * 32768))
  | .agAmoN h b a => some (BitVec.ofNat 32 (0x400200b + h.toNat * 134217728 + b.toNat * 1048576 + a.toNat * 32768))
  | .agDrainR => some (BitVec.ofNat 32 (0x300b))
  | .agDrainScope f => some (BitVec.ofNat 32 (0x300b + f.toNat * 33554432))
  | .agSlk a => some (BitVec.ofNat 32 (0x400b + a.toNat * 32768))
  | .agSlki i => some (BitVec.ofNat 32 (0x500b + i.toNat * 1048576))
  | .agIcinv s => some (BitVec.ofNat 32 (0x700b + s.toNat * 33554432))
  | .agCont i => some (BitVec.ofNat 32 (0x2b + i.toNat * 4096))
  | .agExit => some (BitVec.ofNat 32 (0x2b))
  | .sviIntegerOp o => some (encInt o)
  | .sviTransfer o => some (encJump o)
  | .sviLoadStore o => some (encMem o)
  | .sviFence o => some (rvWord 0x0F o.rd.toNat 0 o.rs1.toNat (o.succ.toNat + o.pred.toNat * 16 + o.fm.toNat * 256))
  | .ecall => some 0x73
  | .ebreak => some 0x100073
  | .sviMOp o => some (rvWord (if o.w then 0x3B else 0x33) o.rd.toNat (mulF3 o.f) o.rs1.toNat (o.rs2.toNat + 32))
  | .sviCsrAccess o => some (encCsr o)
  | .sviVectorOp o => some (encVec o)
  | .sviill w => some w
  | _ => none

/-- The class whose slot an instruction stands in. -/
def clsOf : Instr → Option Cls
  | .br _ _ => some .c
  | .brp _ _ _ _ => some .c
  | .call _ _ => some .c
  | .ret _ => some .c
  | .jr _ _ => some .c
  | .callX _ _ => some .c
  | .loop _ _ _ => some .c
  | .loope _ _ _ _ => some .c
  | .lpstage _ => some .c
  | .step _ _ => some .c
  | .exit _ => some .c
  | .cont _ _ => some .c
  | .setlt _ _ _ => some .c
  | .setltX _ _ _ => some .c
  | .evwait _ _ _ _ _ => some .c
  | .trap _ _ => some .c
  | .sysc _ _ => some .c
  | .bkpt _ _ => some .c
  | .emret _ => some .c
  | .icinv _ _ => some .c
  | .publish _ _ _ _ => some .c
  | .csrr _ _ _ => some .c
  | .csrw _ _ _ => some .c
  | .csrs _ _ _ => some .c
  | .csrc _ _ _ => some .c
  | .csrwI _ _ _ => some .c
  | .csrsI _ _ _ => some .c
  | .csrcI _ _ _ => some .c
  | .add _ _ _ _ => some .s
  | .sub _ _ _ _ => some .s
  | .addi _ _ _ _ => some .s
  | .and _ _ _ _ => some .s
  | .or _ _ _ _ => some .s
  | .xor _ _ _ _ => some .s
  | .andi _ _ _ _ => some .s
  | .ori _ _ _ _ => some .s
  | .xori _ _ _ _ => some .s
  | .sll _ _ _ _ => some .s
  | .srl _ _ _ _ => some .s
  | .sra _ _ _ _ => some .s
  | .slli _ _ _ _ => some .s
  | .srli _ _ _ _ => some .s
  | .srai _ _ _ _ => some .s
  | .li _ _ _ => some .s
  | .lih _ _ _ => some .s
  | .mul _ _ _ _ => some .s
  | .mulh _ _ _ _ => some .s
  | .mulhu _ _ _ _ => some .s
  | .mulhsu _ _ _ _ => some .s
  | .div _ _ _ _ => some .s
  | .divu _ _ _ _ => some .s
  | .rem _ _ _ _ => some .s
  | .remu _ _ _ _ => some .s
  | .min _ _ _ _ => some .s
  | .max _ _ _ _ => some .s
  | .minu _ _ _ _ => some .s
  | .maxu _ _ _ _ => some .s
  | .clz _ _ _ => some .s
  | .ctz _ _ _ => some .s
  | .popc _ _ _ => some .s
  | .sext _ _ _ _ => some .s
  | .zext _ _ _ _ => some .s
  | .cmp _ _ _ _ _ => some .s
  | .cmpi _ _ _ _ _ => some .s
  | .pand _ _ _ _ => some .s
  | .por _ _ _ _ => some .s
  | .pxor _ _ _ _ => some .s
  | .pandn _ _ _ _ => some .s
  | .sel _ _ _ _ _ => some .s
  | .mov _ _ _ => some .s
  | .movFromPall _ _ => some .s
  | .movToPall _ _ => some .s
  | .adds _ _ _ _ _ => some .s
  | .subs _ _ _ _ _ => some .s
  | .bfx _ _ _ _ => some .s
  | .bfxu _ _ _ _ => some .s
  | .bfi _ _ _ _ => some .s
  | .ldb _ _ _ _ _ => some .m
  | .ldbu _ _ _ _ _ => some .m
  | .ldh _ _ _ _ _ => some .m
  | .ldhu _ _ _ _ _ => some .m
  | .ldw _ _ _ _ _ => some .m
  | .ldwu _ _ _ _ _ => some .m
  | .ldd _ _ _ _ _ => some .m
  | .stb _ _ _ _ => some .m
  | .sth _ _ _ _ => some .m
  | .stw _ _ _ _ => some .m
  | .std _ _ _ _ => some .m
  | .ldx _ _ _ _ _ => some .m
  | .stx _ _ _ _ _ => some .m
  | .tld _ _ _ _ _ => some .m
  | .tldt _ _ _ _ _ => some .m
  | .tst _ _ _ _ => some .m
  | .bld _ _ _ _ _ => some .m
  | .rld _ _ _ _ _ _ => some .m
  | .rst _ _ _ _ _ _ => some .m
  | .amo _ _ _ _ _ => some .m
  | .amoF _ _ _ _ => some .m
  | .amoN _ _ _ _ => some .m
  | .fence _ _ => some .m
  | .drain _ _ => some .m
  | .drainR _ => some .m
  | .bwait _ _ _ _ _ => some .m
  | .qpush _ _ => some .m
  | .tpost _ _ _ => some .m
  | .tix _ _ => some .m
  | .vsetvl _ _ _ _ => some .v
  | .vsetvlRead _ _ => some .v
  | .vsetvli _ _ _ _ => some .v
  | .vsetivli _ _ _ _ => some .v
  | .vadd _ _ _ _ _ _ => some .v
  | .vsub _ _ _ _ _ _ => some .v
  | .vand _ _ _ _ _ _ => some .v
  | .vor _ _ _ _ _ _ => some .v
  | .vxor _ _ _ _ _ _ => some .v
  | .vsll _ _ _ _ _ _ => some .v
  | .vsrl _ _ _ _ _ _ => some .v
  | .vsra _ _ _ _ _ _ => some .v
  | .vmul _ _ _ _ _ _ => some .v
  | .vmulh _ _ _ _ _ _ _ => some .v
  | .vmin _ _ _ _ _ _ => some .v
  | .vmax _ _ _ _ _ _ => some .v
  | .vminu _ _ _ _ _ _ => some .v
  | .vmaxu _ _ _ _ _ _ => some .v
  | .vsadd _ _ _ _ _ _ _ => some .v
  | .vssub _ _ _ _ _ _ _ => some .v
  | .vsmul _ _ _ _ _ _ => some .v
  | .vwadd _ _ _ _ _ _ _ => some .v
  | .vwmul _ _ _ _ _ _ _ => some .v
  | .vwmacc _ _ _ _ _ _ _ => some .v
  | .vnsra _ _ _ _ _ _ _ => some .v
  | .vnclip _ _ _ _ _ _ _ _ => some .v
  | .vshr _ _ _ _ _ _ _ => some .v
  | .vcmp _ _ _ _ _ _ => some .v
  | .vmerge _ _ _ _ _ => some .v
  | .vmlog _ _ _ _ _ => some .v
  | .vredsum _ _ _ _ _ _ _ => some .v
  | .vredmax _ _ _ _ _ _ => some .v
  | .vredmin _ _ _ _ _ _ => some .v
  | .vscan _ _ _ _ _ _ _ => some .v
  | .vslideup _ _ _ _ _ _ => some .v
  | .vslidedn _ _ _ _ _ _ => some .v
  | .vgath _ _ _ _ _ => some .v
  | .vcompress _ _ _ _ => some .v
  | .vld _ _ _ _ _ => some .v
  | .vlds _ _ _ _ _ => some .v
  | .vldx _ _ _ _ _ _ => some .v
  | .vldff _ _ _ _ _ => some .v
  | .vst _ _ _ _ => some .v
  | .vsts _ _ _ _ => some .v
  | .vstx _ _ _ _ _ => some .v
  | .vexp _ _ _ _ _ => some .v
  | .vrsqrt _ _ _ _ _ => some .v
  | .vrecip _ _ _ _ _ => some .v
  | .vdiv _ _ _ _ _ => some .v
  | .vmvxs _ _ _ _ => some .v
  | .vmvsx _ _ _ _ => some .v
  | .vsplat _ _ _ _ => some .v
  | .vmov _ _ _ _ => some .v
  | .aalloc _ _ _ => some .x
  | .afree _ _ _ => some .x
  | .mma _ _ _ _ _ => some .x
  | .mmaz _ _ _ _ _ => some .x
  | .mmag _ _ _ _ _ => some .x
  | .aout _ _ _ _ _ _ => some .x
  | .aoutq _ _ _ _ _ => some .x
  | .azero _ _ _ => some .x
  | .tzero _ _ => some .x
  | .tmov _ _ _ => some .x
  | .smset _ _ _ => some .x
  | .smclr _ => some .x
  | .ecfg _ _ _ _ => some .e
  | .ego _ _ => some .e
  | .estat _ _ _ => some .e
  | .qcfgSrc _ _ _ => some .e
  | .qcfgSnk _ _ _ => some .e
  | .qenq _ _ _ => some .e
  | .qdeq _ _ _ => some .e
  | .qdeqTile _ _ _ _ => some .e
  | .qreset _ _ => some .e
  | .qstat _ _ _ => some .e
  | .scld _ _ _ _ => some .e
  | .scst _ _ => some .e
  | .scset _ _ _ _ => some .e
  | .srseed _ _ => some .e
  | .evset _ _ _ => some .e
  | .evclr _ _ _ => some .e
  | .gbar _ _ _ => some .e
  | .slk _ _ => some .e
  | .slkReg _ _ => some .e
  | .anstat _ _ _ => some .e
  | .agTpost _ _ => some .svi
  | .agTix _ => some .svi
  | .agAmo _ _ _ _ => some .svi
  | .agAmoF _ _ _ => some .svi
  | .agAmoN _ _ _ => some .svi
  | .agDrainR => some .svi
  | .agDrainScope _ => some .svi
  | .agSlk _ => some .svi
  | .agSlki _ => some .svi
  | .agIcinv _ => some .svi
  | .agCont _ => some .svi
  | .agExit => some .svi
  | .nop => some .c
  | .sviIntegerOp _ => some .svi
  | .sviTransfer _ => some .svi
  | .sviLoadStore _ => some .svi
  | .sviFence _ => some .svi
  | .ecall => some .svi
  | .ebreak => some .svi
  | .sviMOp _ => some .svi
  | .sviCsrAccess _ => some .svi
  | .sviVectorOp _ => some .svi
  | .sviill _ => some .svi
  | _ => none

/-- The instruction that a word of a class holds; `none` is UNDEF (R122). SVI words always have a reading: an excluded word is
`sviill` (R310). -/
def decodeWord (k : Cls) (w : Word32) : Option Instr :=
  match k with
  | .c => (rawDecC w).filter wellFormed
  | .s => (rawDecS w).filter wellFormed
  | .m => (rawDecM w).filter wellFormed
  | .v => (rawDecV w).filter wellFormed
  | .x => (rawDecX w).filter wellFormed
  | .e => (rawDecE w).filter wellFormed
  | .svi => some (decSvi w)

/-- Slot k of a bundle: the little-endian word at byte 4k (R120). -/
def slotWord (b : Bundle) (k : Nat) : Word32 := b.extractLsb' (32 * k) 32

/-- The eight slots of a bundle with their numbers (R120). -/
def decodeBundle (b : Bundle) : List (Nat × Option Instr) :=
  (List.range 8).map (fun k => (k, decodeWord (slotCls k) (slotWord b k)))

/-- Bytes as a little-endian number (R89). -/
def leNat : List Byte → Nat
  | [] => 0
  | b :: t => b.toNat + 256 * leNat t

/-- Decoding of bytes: 32 bytes are a bundle (R120). -/
def decode (bs : List Byte) : Option (List (Nat × Option Instr)) :=
  if bs.length = 32 then some (decodeBundle (BitVec.ofNat 256 (leNat bs))) else none

/-! ## Words of the opcode table

A word of the table names no slot class, and the classes share the 32-bit words. The rows below, most fixed bits first, say in which
class such a word is read. -/

/-- Rows of the opcode table: mask, match, class. -/
def tableRows1 : List (Nat × Nat × Cls) :=
  [(0xffffffff, 0x300b, .svi), (0xffffffff, 0x2b, .svi), (0xf9ffffff, 0x700b, .svi), (0xfffffff0, 0x8000000, .c),
   (0xfffffff0, 0x10000000, .c), (0xfffffff0, 0x14000000, .c), (0xfffffff0, 0x20000000, .c), (0xfffffff0, 0x32000000, .m),
   (0xfffffff0, 0x18000000, .x), (0xfff07fff, 0x100b, .svi), (0xfff07fff, 0x400b, .svi), (0xffffffc0, 0x30000000, .m),
   (0xfe7ffff0, 0x4000000, .e), (0xffffff80, 0x22000000, .c), (0xffffff80, 0x2e000000, .m), (0x1ffffff, 0x300b, .svi),
   (0xfe1ffff0, 0x12000000, .x), (0xffffff00, 0xe000000, .e), (0xfff81ff0, 0xa000000, .c), (0xfff81ff0, 0x32000000, .c),
   (0xfe07fff0, 0x54000010, .s), (0xfff81ff0, 0x54000020, .s), (0xfff81ff0, 0x36000000, .m), (0xfff81ff0, 0x3a000000, .m),
   (0xfe07fff0, 0x2000010, .v), (0xfe07fff0, 0x14000000, .e), (0xfff81ff0, 0x18000000, .e), (0xfe07fff0, 0x20000040, .e),
   (0xfe007fff, 0xb, .svi), (0xfe01fff0, 0x14000000, .x), (0xfe07ffc0, 0x6000000, .e), (0xfffff, 0x500b, .svi),
   (0xff8f1c70, 0x4a000000, .s), (0xff8f1c70, 0x4c000000, .s), (0xff8f1c70, 0x4e000000, .s), (0xff8f1c70, 0x50000000, .s),
   (0xfe0fff00, 0xa000000, .e), (0xfe00fff0, 0xc000000, .e), (0xfff81f80, 0x1a000000, .e), (0xfff81f80, 0x1c000000, .e),
   (0xfe07ff80, 0x22000000, .e), (0xff081ff0, 0x30000000, .c), (0xfff810f0, 0x8000000, .e), (0xfff810f0, 0x8001000, .e),
   (0xfe07ff00, 0x10000000, .e), (0xfff800f0, 0x16000000, .x), (0x6007fff, 0x200200b, .svi), (0x6007fff, 0x400200b, .svi)]

/-- Rows of the opcode table: mask, match, class. -/
def tableRows2 : List (Nat × Nat × Cls) :=
  [(0xfe001ff0, 0x3c000000, .s), (0xfe001ff0, 0x3e000000, .s), (0xfe001ff0, 0x40000000, .s), (0xfe001ff0, 0x54000000, .s),
   (0xfe001ff0, 0x38000000, .m), (0xfe003fe0, 0x54000000, .v), (0xfe003fe0, 0x56000000, .v), (0xfe080ff0, 0x66000000, .v),
   (0xfe083fc0, 0x68000000, .v), (0xfff80070, 0x20000000, .e), (0xfe000ff0, 0x2000000, .x), (0xfe0007f0, 0x4000000, .x),
   (0xfe0007f0, 0x10000000, .x), (0xfe0007f0, 0x2000000, .e), (0xfe1081f0, 0xc008000, .e), (0xfe0007f0, 0x1e000000, .e),
   (0xfff80000, 0xc000000, .c), (0xfff80000, 0x12000000, .c), (0xfff80000, 0x1c000000, .c), (0xfff80000, 0x1e000000, .c),
   (0xfff80000, 0x26000000, .c), (0xfe0801f0, 0x4a000000, .v), (0xfe0003f0, 0x16000000, .e), (0xff0f0000, 0x18000000, .c),
   (0xfe1e0010, 0x20000000, .m), (0xfe0801b0, 0x48000000, .v), (0xfe0800f0, 0x4c000000, .v), (0xfe0800f0, 0x4e000000, .v),
   (0xfe0800f0, 0x52000000, .v), (0xfe0801b0, 0x60000000, .v), (0xfe0001f0, 0x12000000, .e), (0x600707f, 0x200b, .svi),
   (0xfff, 0x2b, .svi), (0xfe0000f0, 0x22000000, .m), (0xfe0000f0, 0x2a000000, .m), (0xfe0000f0, 0x2c000000, .m),
   (0xfe080130, 0x3e000000, .v), (0xfe080130, 0x40000000, .v), (0xfe0001e0, 0x58000000, .v), (0xfe0000f0, 0x62000000, .v),
   (0xfe080070, 0x64000000, .v), (0xfe0000f0, 0x6000000, .x), (0xfe0000f0, 0x8000000, .x), (0xfe0000f0, 0xa000000, .x),
   (0xffc00000, 0xe000000, .c), (0xff880000, 0x1a000000, .c), (0xfe000070, 0x24000000, .c), (0xfe000070, 0x28000000, .c)]

/-- Rows of the opcode table: mask, match, class. -/
def tableRows3 : List (Nat × Nat × Cls) :=
  [(0xfe000070, 0x2a000000, .c), (0xfe000070, 0x2c000000, .c), (0xfe000070, 0x2e000000, .c), (0xfe000070, 0x34000000, .c),
   (0xfe000070, 0x36000000, .c), (0xfe000070, 0x38000000, .c), (0xfe000070, 0x2000000, .s), (0xfe000070, 0x4000000, .s),
   (0xfe000070, 0x8000000, .s), (0xfe000070, 0xa000000, .s), (0xfe000070, 0xc000000, .s), (0xfe000070, 0x14000000, .s),
   (0xfe000070, 0x16000000, .s), (0xfe000070, 0x18000000, .s), (0xfe001c00, 0x1a000000, .s), (0xfe001c00, 0x1c000000, .s),
   (0xfe001c00, 0x1e000000, .s), (0xfe000070, 0x24000000, .s), (0xfe000070, 0x26000000, .s), (0xfe000070, 0x28000000, .s),
   (0xfe000070, 0x2a000000, .s), (0xfe000070, 0x2c000000, .s), (0xfe000070, 0x2e000000, .s), (0xfe000070, 0x30000000, .s),
   (0xfe000070, 0x32000000, .s), (0xfe000070, 0x34000000, .s), (0xfe000070, 0x36000000, .s), (0xfe000070, 0x38000000, .s),
   (0xfe000070, 0x3a000000, .s), (0xfe001c00, 0x42000000, .s), (0xfe001c00, 0x44000000, .s), (0xff880000, 0x46000000, .s),
   (0xff880000, 0x48000000, .s), (0xfe000070, 0x5a000000, .s), (0xfe000070, 0x5c000000, .s), (0xfe000070, 0x5e000000, .s),
   (0xff880000, 0x34000000, .m), (0xfe000070, 0x2000000, .v), (0xfe080030, 0x28000000, .v), (0xfe080030, 0x38000000, .v),
   (0xfe080030, 0x3a000000, .v), (0xfe080030, 0x3c000000, .v), (0xfe080030, 0x42000000, .v), (0xfe080030, 0x44000000, .v),
   (0xfe080030, 0x46000000, .v), (0xfe001800, 0x4000000, .v), (0xfe080010, 0x8000000, .v), (0xfe080010, 0xa000000, .v)]

/-- Rows of the opcode table: mask, match, class. -/
def tableRows4 : List (Nat × Nat × Cls) :=
  [(0xfe080010, 0xc000000, .v), (0xfe080010, 0xe000000, .v), (0xfe080010, 0x10000000, .v), (0xfe080010, 0x12000000, .v),
   (0xfe080010, 0x14000000, .v), (0xfe080010, 0x16000000, .v), (0xfe080010, 0x18000000, .v), (0xfe080010, 0x1c000000, .v),
   (0xfe080010, 0x1e000000, .v), (0xfe080010, 0x20000000, .v), (0xfe080010, 0x22000000, .v), (0xfe080010, 0x5a000000, .v),
   (0xfe080010, 0x5c000000, .v), (0xfe080010, 0x5e000000, .v), (0xfe000030, 0xc000000, .x), (0xfe000030, 0xe000000, .x),
   (0xfe000010, 0x1a000000, .m), (0xfe000010, 0x1c000000, .m), (0xfe000010, 0x1e000000, .m), (0xfe000400, 0x26000000, .m),
   (0xfe080000, 0x1a000000, .v), (0xfe080000, 0x24000000, .v), (0xfe080000, 0x26000000, .v), (0xfe080000, 0x2a000000, .v),
   (0xfe080000, 0x2c000000, .v), (0xfe080000, 0x2e000000, .v), (0xfe080000, 0x30000000, .v), (0xfe080000, 0x32000000, .v),
   (0xfe080000, 0x34000000, .v), (0xfe080000, 0x36000000, .v), (0xfe080000, 0x50000000, .v), (0xfe000000, 0x2000000, .c),
   (0xfe000000, 0x4000000, .c), (0xfe000000, 0x6000000, .c), (0xfe000000, 0x16000000, .c), (0xfe000000, 0x6000000, .s),
   (0xfe000000, 0xe000000, .s), (0xfe000000, 0x10000000, .s), (0xfe000000, 0x12000000, .s), (0xfe000000, 0x20000000, .s),
   (0xfe000000, 0x22000000, .s), (0xfe000000, 0x52000000, .s), (0xfe000000, 0x56000000, .s), (0xfe000000, 0x58000000, .s),
   (0xfe000000, 0x2000000, .m), (0xfe000000, 0x4000000, .m), (0xfe000000, 0x6000000, .m), (0xfe000000, 0x8000000, .m)]

/-- Rows of the opcode table: mask, match, class. -/
def tableRows5 : List (Nat × Nat × Cls) :=
  [(0xfe000000, 0xa000000, .m), (0xfe000000, 0xc000000, .m), (0xfe000000, 0xe000000, .m), (0xfe000000, 0x10000000, .m),
   (0xfe000000, 0x12000000, .m), (0xfe000000, 0x14000000, .m), (0xfe000000, 0x16000000, .m), (0xfe000000, 0x18000000, .m),
   (0xfe000000, 0x24000000, .m), (0xfe000000, 0x28000000, .m), (0xfe000000, 0x6000000, .v)]

/-- The class in which a table word is read: that of the first row it matches with a well-formed reading. -/
def tableCls (w : Nat) : Option Cls :=
  (tableRows1 ++ tableRows2 ++ tableRows3 ++ tableRows4 ++ tableRows5).findSome? (fun r =>
    if w &&& r.1 = r.2.1 ∧ (decodeWord r.2.2 (BitVec.ofNat 32 w)).isSome then some r.2.2 else none)

/-- The instruction read from a table word (bit 0 the least significant bit of the word). -/
def decodeTableWord (nbits w : Nat) : Option Instr :=
  if nbits ≤ 32 ∧ w < 2 ^ 32 then
    if w = 0 then some .nop
    else (tableCls w).bind (fun k => decodeWord k (BitVec.ofNat 32 w))
  else none

end Sys2Proof
end

