-- ==== Sys2Proof/Machine/Flags.lean ====
section
/-! DEFINITION. The machine's predicates in place of flags: relations of `cmp` and `vcmp`, mask logic, predicate logic, and the
counts of clamped and NaI elements. -/
namespace Sys2Proof.Machine

/-- The relations of `cmp` and `cmpi` (R165); code 7 is UNDEF and never reaches here. -/
def cmpRel (c : BitVec 3) (x y : Word) : Bool :=
  match c.toNat with
  | 0 => x = y
  | 1 => x ≠ y
  | 2 => x.slt y
  | 3 => !x.slt y
  | 4 => x.ult y
  | 5 => !x.ult y
  | _ => (x &&& y) ≠ 0

/-- The relations of `vcmp` on two patterns of width w (R217). -/
def vcmpRel (c w x y : Nat) : Bool :=
  match c with
  | 0 => x = y
  | 1 => x ≠ y
  | 2 => sextI x w < sextI y w
  | 3 => sextI x w ≥ sextI y w
  | 4 => x < y
  | 5 => x ≥ y
  | 6 => x = naiCode w false
  | _ => x = naiCode w true

/-- The functions of `vmlog` on two mask bits (R218). -/
def maskLogic (f : Nat) (a b : Bool) : Bool :=
  match f with
  | 0 => a && b
  | 1 => a || b
  | 2 => xor a b
  | 3 => a && !b
  | 4 => !(a && b)
  | 5 => !(a || b)
  | 6 => !(xor a b)
  | _ => a || !b

/-- The width of `adds` and `subs` (R168). -/
def satWidth (f : BitVec 3) : Nat := if f = 0 then 64 else if f = 1 then 32 else if f = 2 then 16 else 8

/-- A sum clamped at width w, as a 64-bit pattern (R168). -/
def addSat (w : Nat) (x y : Word) : Word := BitVec.ofInt 64 (sat (sextI x.toNat w + sextI y.toNat w) w)
def subSat (w : Nat) (x y : Word) : Word := BitVec.ofInt 64 (sat (sextI x.toNat w - sextI y.toNat w) w)

end Sys2Proof.Machine
end

