-- ==== Sys2Proof/Machine/Scalar.lean ====
section
/-! DEFINITION. The scalar slots S0 and S1 (chapter 06, R164 to R170): the operation of each instruction, its slot form, and
its meaning as the one instruction of a bundle, in S0. -/
namespace Sys2Proof.Machine

/-! ## Arithmetic -/

/-- The high half of a product (R164). -/
def mulHi (x y : Int) : Word := BitVec.ofInt 64 (x * y / 2 ^ 64)

/-- `div` with its special cases (R164, R170). -/
def divS (x y : Word) : Word := if y = 0 then BitVec.allOnes 64 else BitVec.ofInt 64 (Int.tdiv x.toInt y.toInt)
/-- `divu` (R164, R170). -/
def divU (x y : Word) : Word := if y = 0 then BitVec.allOnes 64 else BitVec.ofNat 64 (x.toNat / y.toNat)
/-- `rem` (R164, R170). -/
def remS (x y : Word) : Word := if y = 0 then x else BitVec.ofInt 64 (x.toInt - y.toInt * Int.tdiv x.toInt y.toInt)
/-- `remu` (R164, R170). -/
def remU (x y : Word) : Word := if y = 0 then x else BitVec.ofNat 64 (x.toNat - y.toNat * (x.toNat / y.toNat))

/-- Trailing zero bits of a doubleword (R164). -/
def ctz64 (x : Word) : Nat := ((List.range 64).find? (fun i => bit x i)).getD 64
/-- One bits of a doubleword (R164). -/
def popc64 (x : Word) : Nat := (List.range 64).countP (fun i => bit x i)

/-- Position and length of a bit field (R169). -/
def bfPos (y : Word) : Nat := fld y 0 6
def bfLen (y : Word) : Nat := Nat.min (fld y 8 7) (64 - bfPos y)
/-- `bfxu` (R169). -/
def bfxU (x y : Word) : Word := BitVec.ofNat 64 (nfld x.toNat (bfPos y) (bfLen y))
/-- `bfx` (R169). -/
def bfxS (x y : Word) : Word :=
  if bfLen y = 0 then 0 else BitVec.ofInt 64 (sextI (nfld x.toNat (bfPos y) (bfLen y)) (bfLen y))
/-- `bfi` (R169). -/
def bfI (d x y : Word) : Word :=
  let m : Word := BitVec.ofNat 64 ((2 ^ bfLen y - 1) * 2 ^ bfPos y)
  (d &&& ~~~m) ||| ((x <<< bfPos y) &&& m)

/-! ## Slot forms -/

/-- A scalar instruction with destination d, bound b and a value of the state before the bundle. -/
def opS (slot : Nat) (g : BitVec 4) (b d : Nat) (v : State → Word) : SlotOp :=
  { slot := slot, guard := g, eff := fun pre s => wx s b d (v pre), now := if b ≤ 1 then [(0, d)] else [] }

/-- A scalar instruction with a predicate destination. -/
def opP (slot : Nat) (g : BitVec 4) (d : Nat) (v : State → Bool) : SlotOp :=
  { slot := slot, guard := g, now := [(6, d)], eff := fun pre s => wp s d (v pre) }

def opAdd (slot : Nat) (d a b : BitVec 6) (g : BitVec 4) : SlotOp :=
  opS slot g 1 d.toNat (fun s => let xa := rx6 s a; let xb := rx6 s b; xa + xb)
def opSub (slot : Nat) (d a b : BitVec 6) (g : BitVec 4) : SlotOp :=
  opS slot g 1 d.toNat (fun s => let xa := rx6 s a; let xb := rx6 s b; xa - xb)
def opAnd (slot : Nat) (d a b : BitVec 6) (g : BitVec 4) : SlotOp :=
  opS slot g 1 d.toNat (fun s => let xa := rx6 s a; let xb := rx6 s b; xa &&& xb)
def opOr (slot : Nat) (d a b : BitVec 6) (g : BitVec 4) : SlotOp :=
  opS slot g 1 d.toNat (fun s => let xa := rx6 s a; let xb := rx6 s b; xa ||| xb)
def opXor (slot : Nat) (d a b : BitVec 6) (g : BitVec 4) : SlotOp :=
  opS slot g 1 d.toNat (fun s => let xa := rx6 s a; let xb := rx6 s b; xa ^^^ xb)
def opSll (slot : Nat) (d a b : BitVec 6) (g : BitVec 4) : SlotOp :=
  opS slot g 1 d.toNat (fun s => let xa := rx6 s a; let xb := rx6 s b; xa <<< (fld xb 0 6))
def opSrl (slot : Nat) (d a b : BitVec 6) (g : BitVec 4) : SlotOp :=
  opS slot g 1 d.toNat (fun s => let xa := rx6 s a; let xb := rx6 s b; xa >>> (fld xb 0 6))
def opSra (slot : Nat) (d a b : BitVec 6) (g : BitVec 4) : SlotOp :=
  opS slot g 1 d.toNat (fun s => let xa := rx6 s a; let xb := rx6 s b; xa.sshiftRight (fld xb 0 6))
def opMul (slot : Nat) (d a b : BitVec 6) (g : BitVec 4) : SlotOp :=
  opS slot g 3 d.toNat (fun s => let xa := rx6 s a; let xb := rx6 s b; xa * xb)
def opMulh (slot : Nat) (d a b : BitVec 6) (g : BitVec 4) : SlotOp :=
  opS slot g 3 d.toNat (fun s => let xa := rx6 s a; let xb := rx6 s b; mulHi xa.toInt xb.toInt)
def opMulhu (slot : Nat) (d a b : BitVec 6) (g : BitVec 4) : SlotOp :=
  opS slot g 3 d.toNat (fun s => let xa := rx6 s a; let xb := rx6 s b; mulHi xa.toNat xb.toNat)
def opMulhsu (slot : Nat) (d a b : BitVec 6) (g : BitVec 4) : SlotOp :=
  opS slot g 3 d.toNat (fun s => let xa := rx6 s a; let xb := rx6 s b; mulHi xa.toInt xb.toNat)
def opDiv (slot : Nat) (d a b : BitVec 6) (g : BitVec 4) : SlotOp :=
  opS slot g 18 d.toNat (fun s => let xa := rx6 s a; let xb := rx6 s b; divS xa xb)
def opDivu (slot : Nat) (d a b : BitVec 6) (g : BitVec 4) : SlotOp :=
  opS slot g 18 d.toNat (fun s => let xa := rx6 s a; let xb := rx6 s b; divU xa xb)
def opRem (slot : Nat) (d a b : BitVec 6) (g : BitVec 4) : SlotOp :=
  opS slot g 18 d.toNat (fun s => let xa := rx6 s a; let xb := rx6 s b; remS xa xb)
def opRemu (slot : Nat) (d a b : BitVec 6) (g : BitVec 4) : SlotOp :=
  opS slot g 18 d.toNat (fun s => let xa := rx6 s a; let xb := rx6 s b; remU xa xb)
def opMin (slot : Nat) (d a b : BitVec 6) (g : BitVec 4) : SlotOp :=
  opS slot g 1 d.toNat (fun s => let xa := rx6 s a; let xb := rx6 s b; if xa.slt xb then xa else xb)
def opMax (slot : Nat) (d a b : BitVec 6) (g : BitVec 4) : SlotOp :=
  opS slot g 1 d.toNat (fun s => let xa := rx6 s a; let xb := rx6 s b; if xa.slt xb then xb else xa)
def opMinu (slot : Nat) (d a b : BitVec 6) (g : BitVec 4) : SlotOp :=
  opS slot g 1 d.toNat (fun s => let xa := rx6 s a; let xb := rx6 s b; if xa.ult xb then xa else xb)
def opMaxu (slot : Nat) (d a b : BitVec 6) (g : BitVec 4) : SlotOp :=
  opS slot g 1 d.toNat (fun s => let xa := rx6 s a; let xb := rx6 s b; if xa.ult xb then xb else xa)
def opBfx (slot : Nat) (d a b : BitVec 6) (g : BitVec 4) : SlotOp :=
  opS slot g 1 d.toNat (fun s => let xa := rx6 s a; let xb := rx6 s b; bfxS xa xb)
def opBfxu (slot : Nat) (d a b : BitVec 6) (g : BitVec 4) : SlotOp :=
  opS slot g 1 d.toNat (fun s => let xa := rx6 s a; let xb := rx6 s b; bfxU xa xb)
def opAddi (slot : Nat) (d a : BitVec 6) (i : BitVec 9) (g : BitVec 4) : SlotOp :=
  opS slot g 1 d.toNat (fun s => let xa := rx6 s a; let xb := i.signExtend 64; xa + xb)
def opAndi (slot : Nat) (d a : BitVec 6) (i : BitVec 9) (g : BitVec 4) : SlotOp :=
  opS slot g 1 d.toNat (fun s => let xa := rx6 s a; let xb := i.signExtend 64; xa &&& xb)
def opOri (slot : Nat) (d a : BitVec 6) (i : BitVec 9) (g : BitVec 4) : SlotOp :=
  opS slot g 1 d.toNat (fun s => let xa := rx6 s a; let xb := i.signExtend 64; xa ||| xb)
def opXori (slot : Nat) (d a : BitVec 6) (i : BitVec 9) (g : BitVec 4) : SlotOp :=
  opS slot g 1 d.toNat (fun s => let xa := rx6 s a; let xb := i.signExtend 64; xa ^^^ xb)
def opSlli (slot : Nat) (d a i : BitVec 6) (g : BitVec 4) : SlotOp :=
  opS slot g 1 d.toNat (fun s => let xa := rx6 s a; xa <<< i.toNat)
def opSrli (slot : Nat) (d a i : BitVec 6) (g : BitVec 4) : SlotOp :=
  opS slot g 1 d.toNat (fun s => let xa := rx6 s a; xa >>> i.toNat)
def opSrai (slot : Nat) (d a i : BitVec 6) (g : BitVec 4) : SlotOp :=
  opS slot g 1 d.toNat (fun s => let xa := rx6 s a; xa.sshiftRight i.toNat)
def opSext (slot : Nat) (d a i : BitVec 6) (g : BitVec 4) : SlotOp :=
  opS slot g 1 d.toNat (fun s => let xa := rx6 s a; BitVec.ofInt 64 (sextI xa.toNat (i.toNat + 1)))
def opZext (slot : Nat) (d a i : BitVec 6) (g : BitVec 4) : SlotOp :=
  opS slot g 1 d.toNat (fun s => let xa := rx6 s a; BitVec.ofInt 64 (zextI xa.toNat (i.toNat + 1)))
def opClz (slot : Nat) (d a : BitVec 6) (g : BitVec 4) : SlotOp :=
  opS slot g 1 d.toNat (fun s => let xa := rx6 s a; BitVec.ofNat 64 (clzN xa.toNat 64))
def opCtz (slot : Nat) (d a : BitVec 6) (g : BitVec 4) : SlotOp :=
  opS slot g 1 d.toNat (fun s => let xa := rx6 s a; BitVec.ofNat 64 (ctz64 xa))
def opPopc (slot : Nat) (d a : BitVec 6) (g : BitVec 4) : SlotOp :=
  opS slot g 1 d.toNat (fun s => let xa := rx6 s a; BitVec.ofNat 64 (popc64 xa))
def opLi (slot : Nat) (d : BitVec 6) (i : BitVec 15) (g : BitVec 4) : SlotOp := opS slot g 1 d.toNat (fun _ => i.signExtend 64)
def opLih (slot : Nat) (d : BitVec 6) (i : BitVec 15) (g : BitVec 4) : SlotOp :=
  opS slot g 1 d.toNat (fun s => (rx6 s d <<< 15) ||| i.setWidth 64)
def opBfi (slot : Nat) (d a b : BitVec 6) (g : BitVec 4) : SlotOp :=
  opS slot g 1 d.toNat (fun s => bfI (rx6 s d) (rx6 s a) (rx6 s b))
def opSel (slot : Nat) (d a b : BitVec 6) (f : BitVec 3) (g : BitVec 4) : SlotOp :=
  opS slot g 1 d.toNat (fun s => if rp (cur s) f.toNat then rx6 s a else rx6 s b)
def opAdds (slot : Nat) (d a b : BitVec 6) (f : BitVec 3) (g : BitVec 4) : SlotOp :=
  { opS slot g 1 d.toNat (fun s => addSat (satWidth f) (rx6 s a) (rx6 s b)) with legal := fun _ => f < 4 }
def opSubs (slot : Nat) (d a b : BitVec 6) (f : BitVec 3) (g : BitVec 4) : SlotOp :=
  { opS slot g 1 d.toNat (fun s => subSat (satWidth f) (rx6 s a) (rx6 s b)) with legal := fun _ => f < 4 }
def opMov (slot : Nat) (d a : BitVec 6) (g : BitVec 4) : SlotOp := opS slot g 1 d.toNat (fun s => rx6 s a)
/-- Bit 0 of the result is always 1, because p0 reads true (R167). -/
def opMovFromPall (slot : Nat) (d : BitVec 6) (g : BitVec 4) : SlotOp :=
  opS slot g 1 d.toNat (fun s => ((cur s).p ||| 1).setWidth 64)
/-- p1 to p7 from bits 1 to 7 (R167). -/
def opMovToPall (slot : Nat) (a : BitVec 6) (g : BitVec 4) : SlotOp :=
  { slot := slot, guard := g
    eff := fun pre s => modCur s (fun c => { c with p := setFld c.p 1 7 (fld (rx6 pre a) 1 7) }) }
def opCmp (slot : Nat) (d : BitVec 3) (a b : BitVec 6) (c : BitVec 3) (g : BitVec 4) : SlotOp :=
  { opP slot g d.toNat (fun s => cmpRel c (rx6 s a) (rx6 s b)) with legal := fun _ => c ≠ 7 }
def opCmpi (slot : Nat) (d : BitVec 3) (a i : BitVec 6) (c : BitVec 3) (g : BitVec 4) : SlotOp :=
  { opP slot g d.toNat (fun s => cmpRel c (rx6 s a) (i.signExtend 64)) with legal := fun _ => c ≠ 7 }
def opPand (slot : Nat) (d a b : BitVec 3) (g : BitVec 4) : SlotOp :=
  opP slot g d.toNat (fun s => let a := rp (cur s) a.toNat; let b := rp (cur s) b.toNat; a && b)
def opPor (slot : Nat) (d a b : BitVec 3) (g : BitVec 4) : SlotOp :=
  opP slot g d.toNat (fun s => let a := rp (cur s) a.toNat; let b := rp (cur s) b.toNat; a || b)
def opPxor (slot : Nat) (d a b : BitVec 3) (g : BitVec 4) : SlotOp :=
  opP slot g d.toNat (fun s => let a := rp (cur s) a.toNat; let b := rp (cur s) b.toNat; xor a b)
def opPandn (slot : Nat) (d a b : BitVec 3) (g : BitVec 4) : SlotOp :=
  opP slot g d.toNat (fun s => let a := rp (cur s) a.toNat; let b := rp (cur s) b.toNat; a && !b)

/-! ## Meanings -/

def execAdd (d a b : BitVec 6) (g : BitVec 4) (s : State) : Host.Outcome State Fault Refusal := issue1 (opAdd 1 d a b g) s
def execSub (d a b : BitVec 6) (g : BitVec 4) (s : State) : Host.Outcome State Fault Refusal := issue1 (opSub 1 d a b g) s
def execAnd (d a b : BitVec 6) (g : BitVec 4) (s : State) : Host.Outcome State Fault Refusal := issue1 (opAnd 1 d a b g) s
def execOr (d a b : BitVec 6) (g : BitVec 4) (s : State) : Host.Outcome State Fault Refusal := issue1 (opOr 1 d a b g) s
def execXor (d a b : BitVec 6) (g : BitVec 4) (s : State) : Host.Outcome State Fault Refusal := issue1 (opXor 1 d a b g) s
def execSll (d a b : BitVec 6) (g : BitVec 4) (s : State) : Host.Outcome State Fault Refusal := issue1 (opSll 1 d a b g) s
def execSrl (d a b : BitVec 6) (g : BitVec 4) (s : State) : Host.Outcome State Fault Refusal := issue1 (opSrl 1 d a b g) s
def execSra (d a b : BitVec 6) (g : BitVec 4) (s : State) : Host.Outcome State Fault Refusal := issue1 (opSra 1 d a b g) s
def execMul (d a b : BitVec 6) (g : BitVec 4) (s : State) : Host.Outcome State Fault Refusal := issue1 (opMul 1 d a b g) s
def execMulh (d a b : BitVec 6) (g : BitVec 4) (s : State) : Host.Outcome State Fault Refusal := issue1 (opMulh 1 d a b g) s
def execMulhu (d a b : BitVec 6) (g : BitVec 4) (s : State) : Host.Outcome State Fault Refusal := issue1 (opMulhu 1 d a b g) s
def execMulhsu (d a b : BitVec 6) (g : BitVec 4) (s : State) : Host.Outcome State Fault Refusal := issue1 (opMulhsu 1 d a b g) s
def execDiv (d a b : BitVec 6) (g : BitVec 4) (s : State) : Host.Outcome State Fault Refusal := issue1 (opDiv 1 d a b g) s
def execDivu (d a b : BitVec 6) (g : BitVec 4) (s : State) : Host.Outcome State Fault Refusal := issue1 (opDivu 1 d a b g) s
def execRem (d a b : BitVec 6) (g : BitVec 4) (s : State) : Host.Outcome State Fault Refusal := issue1 (opRem 1 d a b g) s
def execRemu (d a b : BitVec 6) (g : BitVec 4) (s : State) : Host.Outcome State Fault Refusal := issue1 (opRemu 1 d a b g) s
def execMin (d a b : BitVec 6) (g : BitVec 4) (s : State) : Host.Outcome State Fault Refusal := issue1 (opMin 1 d a b g) s
def execMax (d a b : BitVec 6) (g : BitVec 4) (s : State) : Host.Outcome State Fault Refusal := issue1 (opMax 1 d a b g) s
def execMinu (d a b : BitVec 6) (g : BitVec 4) (s : State) : Host.Outcome State Fault Refusal := issue1 (opMinu 1 d a b g) s
def execMaxu (d a b : BitVec 6) (g : BitVec 4) (s : State) : Host.Outcome State Fault Refusal := issue1 (opMaxu 1 d a b g) s
def execBfx (d a b : BitVec 6) (g : BitVec 4) (s : State) : Host.Outcome State Fault Refusal := issue1 (opBfx 1 d a b g) s
def execBfxu (d a b : BitVec 6) (g : BitVec 4) (s : State) : Host.Outcome State Fault Refusal := issue1 (opBfxu 1 d a b g) s
def execAddi (d a : BitVec 6) (i : BitVec 9) (g : BitVec 4) (s : State) : Host.Outcome State Fault Refusal :=
  issue1 (opAddi 1 d a i g) s
def execAndi (d a : BitVec 6) (i : BitVec 9) (g : BitVec 4) (s : State) : Host.Outcome State Fault Refusal :=
  issue1 (opAndi 1 d a i g) s
def execOri (d a : BitVec 6) (i : BitVec 9) (g : BitVec 4) (s : State) : Host.Outcome State Fault Refusal :=
  issue1 (opOri 1 d a i g) s
def execXori (d a : BitVec 6) (i : BitVec 9) (g : BitVec 4) (s : State) : Host.Outcome State Fault Refusal :=
  issue1 (opXori 1 d a i g) s
def execSlli (d a i : BitVec 6) (g : BitVec 4) (s : State) : Host.Outcome State Fault Refusal := issue1 (opSlli 1 d a i g) s
def execSrli (d a i : BitVec 6) (g : BitVec 4) (s : State) : Host.Outcome State Fault Refusal := issue1 (opSrli 1 d a i g) s
def execSrai (d a i : BitVec 6) (g : BitVec 4) (s : State) : Host.Outcome State Fault Refusal := issue1 (opSrai 1 d a i g) s
def execSext (d a i : BitVec 6) (g : BitVec 4) (s : State) : Host.Outcome State Fault Refusal := issue1 (opSext 1 d a i g) s
def execZext (d a i : BitVec 6) (g : BitVec 4) (s : State) : Host.Outcome State Fault Refusal := issue1 (opZext 1 d a i g) s
def execClz (d a : BitVec 6) (g : BitVec 4) (s : State) : Host.Outcome State Fault Refusal := issue1 (opClz 1 d a g) s
def execCtz (d a : BitVec 6) (g : BitVec 4) (s : State) : Host.Outcome State Fault Refusal := issue1 (opCtz 1 d a g) s
def execPopc (d a : BitVec 6) (g : BitVec 4) (s : State) : Host.Outcome State Fault Refusal := issue1 (opPopc 1 d a g) s
def execLi (d : BitVec 6) (i : BitVec 15) (g : BitVec 4) (s : State) : Host.Outcome State Fault Refusal := issue1 (opLi 1 d i g) s
def execLih (d : BitVec 6) (i : BitVec 15) (g : BitVec 4) (s : State) : Host.Outcome State Fault Refusal := issue1 (opLih 1 d i g) s
def execBfi (d a b : BitVec 6) (g : BitVec 4) (s : State) : Host.Outcome State Fault Refusal := issue1 (opBfi 1 d a b g) s
def execSel (d a b : BitVec 6) (f : BitVec 3) (g : BitVec 4) (s : State) : Host.Outcome State Fault Refusal :=
  issue1 (opSel 1 d a b f g) s
def execAdds (d a b : BitVec 6) (f : BitVec 3) (g : BitVec 4) (s : State) : Host.Outcome State Fault Refusal :=
  issue1 (opAdds 1 d a b f g) s
def execSubs (d a b : BitVec 6) (f : BitVec 3) (g : BitVec 4) (s : State) : Host.Outcome State Fault Refusal :=
  issue1 (opSubs 1 d a b f g) s
def execMov (d a : BitVec 6) (g : BitVec 4) (s : State) : Host.Outcome State Fault Refusal := issue1 (opMov 1 d a g) s
def execMovFromPall (d : BitVec 6) (g : BitVec 4) (s : State) : Host.Outcome State Fault Refusal := issue1 (opMovFromPall 1 d g) s
def execMovToPall (a : BitVec 6) (g : BitVec 4) (s : State) : Host.Outcome State Fault Refusal := issue1 (opMovToPall 1 a g) s
def execCmp (d : BitVec 3) (a b : BitVec 6) (c : BitVec 3) (g : BitVec 4) (s : State) : Host.Outcome State Fault Refusal :=
  issue1 (opCmp 1 d a b c g) s
def execCmpi (d : BitVec 3) (a i : BitVec 6) (c : BitVec 3) (g : BitVec 4) (s : State) : Host.Outcome State Fault Refusal :=
  issue1 (opCmpi 1 d a i c g) s
def execPand (d a b : BitVec 3) (g : BitVec 4) (s : State) : Host.Outcome State Fault Refusal := issue1 (opPand 1 d a b g) s
def execPor (d a b : BitVec 3) (g : BitVec 4) (s : State) : Host.Outcome State Fault Refusal := issue1 (opPor 1 d a b g) s
def execPxor (d a b : BitVec 3) (g : BitVec 4) (s : State) : Host.Outcome State Fault Refusal := issue1 (opPxor 1 d a b g) s
def execPandn (d a b : BitVec 3) (g : BitVec 4) (s : State) : Host.Outcome State Fault Refusal := issue1 (opPandn 1 d a b g) s

end Sys2Proof.Machine
end

