-- ==== Sys2Proof/Machine/Control.lean ====
section
/-! DEFINITION. The C slot: transfers, loops, task control, landing delays, event waits, traps, code maintenance and status
registers (chapter 06). Each instruction is a slot operation `op…` and its meaning `exec…`. -/
namespace Sys2Proof.Machine

/-- A fault of the C slot. -/
def cFault (c : Code) (addr : Word := 0) : FaultInfo := { code := c, slot := 0, engine := 0, addr := addr }

/-! ## Transfers (R146, R147) -/

/-- PC plus a signed count of bundles. -/
def pcOff (s : State) (o : Int) : Word := (cur s).pc + BitVec.ofInt 64 (o * 32)

/-- A register target must be aligned and below 2^40 (R147). -/
def targetCheck (t : Word) : Option FaultInfo := if fld t 0 5 ≠ 0 ∨ fld t 40 24 ≠ 0 then some { cFault .pcalign t with acc := 2 } else none

/-- The link into x63 (R146). -/
def link (pre s : State) : State := wx s 1 63 ((cur pre).pc + 32)

/-- The condition of `brp` (R146). -/
def brpCond (c : BitVec 2) (x : Word) : Bool :=
  if c = 0 then x = 0 else if c = 1 then x ≠ 0 else if c = 2 then x.msb else !x.msb

def opNop (slot : Nat) : SlotOp := { slot := slot, guard := 0 }
def opBr (o : BitVec 21) (g : BitVec 4) : SlotOp := { slot := 0, guard := g, ctl := fun s => .jump (pcOff s o.toInt) }
def opBrp (a : BitVec 6) (c : BitVec 2) (o : BitVec 13) (g : BitVec 4) : SlotOp :=
  { slot := 0, guard := g, ctl := fun s => if brpCond c (rx6 s a) then .jump (pcOff s o.toInt) else .seq }
def opCall (o : BitVec 21) (g : BitVec 4) : SlotOp :=
  { slot := 0, guard := g, eff := link, now := [(0, 63)], ctl := fun s => .jump (pcOff s o.toInt) }
def opRet (g : BitVec 4) : SlotOp :=
  { slot := 0, guard := g, check := fun s _ => targetCheck (rx s 63), ctl := fun s => .jump (rx s 63) }
def opJr (a : BitVec 6) (g : BitVec 4) : SlotOp :=
  { slot := 0, guard := g, check := fun s _ => targetCheck (rx6 s a), ctl := fun s => .jump (rx6 s a) }
def opCallX (a : BitVec 6) (g : BitVec 4) : SlotOp :=
  { slot := 0, guard := g, check := fun s _ => targetCheck (rx6 s a), eff := link, now := [(0, 63)], ctl := fun s => .jump (rx6 s a) }

/-! ## Loops (R149, R153) -/

/-- The checks of a loop instruction with s stages and len bundles (R149, R356). -/
def loopCheck (s : State) (st len : Nat) : Option FaultInfo :=
  let c := cur s
  let first := c.pc.toNat + 32
  if c.emuAct then some (cFault .emustate)
  else if [0, 1, 2, 3].all (lpActive c) then some (cFault .loopnest)
  else if st ≠ 0 ∧ [0, 1, 2, 3].any (fun k => lpActive c k && fld (tget 0 c.lpc k) 32 3 ≠ 0) then some (cFault .loopnest)
  else match innermost c with
    | some k => if inBody c k first && inBody c k (first + 32 * (len - 1)) then none else some (cFault .loopbody)
    | none => none

def opLoop (a : BitVec 6) (l : BitVec 9) (g : BitVec 4) : SlotOp :=
  { slot := 0, guard := g, legal := fun _ => l ≠ 0, check := fun s _ => loopCheck s 0 l.toNat
    ctl := fun s => .loop 0 l.toNat (fld (rx6 s a) 0 32) }
def opLoope (st : BitVec 3) (a : BitVec 6) (l : BitVec 9) (g : BitVec 4) : SlotOp :=
  { slot := 0, guard := g, legal := fun _ => l ≠ 0 && st ≠ 0, check := fun s _ => loopCheck s st.toNat l.toNat
    ctl := fun s => .loop st.toNat l.toNat (fld (rx6 s a) 0 32) }

/-- FIRST := 0 on the innermost loop (R153). -/
def opLpstage (g : BitVec 4) : SlotOp :=
  { slot := 0, guard := g
    eff := fun pre s => match innermost (cur pre) with
      | none => s
      | some k => modCur s (fun c => { c with lpc := tset 0 c.lpc k (setFld (tget 0 c.lpc k) 0 32 0) }) }

/-! ## Task control (R154, R155) -/

/-- STEPNO after a `step` (R155). -/
def opStep (i : BitVec 15) (g : BitVec 4) : SlotOp :=
  { slot := 0, guard := g, ctl := fun _ => .step
    eff := fun _ s => modCur s (fun c =>
      { c with
        stepno := setFld (setFld c.stepno 0 32 (fld c.stepno 0 32 + 1)) 32 15 i.toNat
        atStep := c.stepStop }) }

/-- The checks of `exit` and `cont` (R41, R42, R356); n is what the bundle adds to ISSUED. -/
def endCheck (s : State) (n : Nat) (ex : Bool) : Option FaultInfo :=
  let c := cur s
  if c.emuAct then some (cFault .emustate)
  else if ex ∧ joinSum s s.cur + n ≠ 0 then some (cFault .joinpend)
  else if c.accAl ≠ 0 then some (cFault .accheld)
  else none

def opExit (g : BitVec 4) : SlotOp :=
  { slot := 0, guard := g, check := fun s n => endCheck s n true, ctl := fun _ => .exit }
def opCont (o : BitVec 21) (g : BitVec 4) : SlotOp :=
  { slot := 0, guard := g, check := fun s n => endCheck s n false, ctl := fun s => .cont (pcOff s o.toInt) }

/-! ## Landing delays and event waits (R156, R157) -/

def opSetlt (t : BitVec 4) (i : BitVec 12) (g : BitVec 4) : SlotOp :=
  { slot := 0, guard := g, eff := fun _ s => modCur s (fun c => { c with lt := tset 0 c.lt t.toNat i }) }
def opSetltX (t : BitVec 4) (a : BitVec 6) (g : BitVec 4) : SlotOp :=
  { slot := 0, guard := g
    eff := fun pre s => modCur s (fun c =>
      { c with lt := tset 0 c.lt t.toNat (BitVec.ofNat 12 (Nat.min (rx6 pre a).toNat 4095)) }) }

def opEvwait (d : BitVec 3) (a b : BitVec 6) (w : BitVec 3) (g : BitVec 4) : SlotOp :=
  { slot := 0, guard := g
    eff := fun pre s => modCur s (fun c =>
      { c with wait := .ev d.toNat w.toNat (BitVec.ofNat 32 (rx6 pre a).toNat) (c.ctime + 1 + fld (rx6 pre b) 0 32) }) }

/-! ## Traps and system calls (R158) -/

def trapInfo (code : Code) (i : BitVec 15) : FaultInfo := { code := code, slot := 0, engine := 0, addr := BitVec.ofNat 64 i.toNat }
def opTrap (i : BitVec 15) (g : BitVec 4) : SlotOp := { slot := 0, guard := g, ctl := fun _ => .trap (trapInfo .trap i) }
def opBkpt (i : BitVec 15) (g : BitVec 4) : SlotOp := { slot := 0, guard := g, ctl := fun _ => .trap (trapInfo .bkpt i) }
def opSysc (i : BitVec 15) (g : BitVec 4) : SlotOp :=
  { slot := 0, guard := g, commits := fun _ => i ≠ 0 && i ≠ 1, ctl := fun s => .sysc i.toNat ([10, 11, 12, 13, 14, 15, 17].map (rx s)) }
def opEmret (g : BitVec 4) : SlotOp :=
  { slot := 0, guard := g, check := fun s _ => if (cur s).emuAct then none else some (cFault .emustate), ctl := fun _ => .emret }

/-! ## Code maintenance (R159, R160) -/

def opIcinv (sc : BitVec 3) (g : BitVec 4) : SlotOp :=
  { slot := 0, guard := g, legal := fun _ => sc < 4
    eff := fun _ s => modCur s (fun c => { c with wait := .icinv sc.toNat }) }

/-! ### Reply slots (R431)

DESIGN CHOICE (log entry 45): a reply slot that breaks several rules at once gives the fault that the order of R130 step 5 finds first: the
rows of R88 in their order (ADDRSPACE for must-be-zero bits, BOUND outside the allotment, ALIGN for `amo.f`), then a translation fault of a
space 0x0 address, then FRAMEBAD for a slot that is not in the own frame, lies below the slots, or is misaligned. -/

/-- The rows of R88 for a reply slot of n bytes; a misaligned one is ALIGN for `amo.f`, else FRAMEBAD in `slotOwn`. -/
def slotRows (s : State) (a : Word) (n : Nat) (mis : Code) : Option Code := chkRows s a n (if mis = .align then n else 1)

/-- What R431 itself asks of a reply slot: its location, or FRAMEBAD. -/
def slotOwn (s : State) (a : Word) (n : Nat) : Except Code Nat :=
  let f := (cur s).trec.w1
  let w := frameCanon s.cur a
  if spc w ≠ 6 ∨ frClu w ≠ frClu f ∨ frOff w < frOff f + 128 ∨ a.toNat % n ≠ 0 then .error .framebad
  else .ok (winLoc (dieOf s.cur) (frClu w) (frOff w))

/-- A reply slot of `n` bytes in the task's own frame (R431): its location, or the fault; `mis` is the code of a misaligned
slot. -/
def slotCheck (s : State) (a : Word) (n : Nat) (mis : Code) : Except WFail Nat :=
  match slotRows s a n mis with
  | some c => .error ⟨c, 0, 0⟩
  | none => match chkXl s a true with
    | .error f => .error f
    | .ok _ => match slotOwn s a n with
      | .error c => .error ⟨c, 0, 0⟩
      | .ok l => .ok l

/-- The location of a reply slot that has passed its check. -/
def slotLoc (s : State) (a : Word) (n : Nat) : Nat :=
  match slotCheck s a n .framebad with
  | .ok l => l
  | .error _ => 0

/-- The first fault of an instruction that names address `a` and reply slot `b` of n bytes, up to its own entry (R130 step 5): the rows of R88
for each, then the translation of each. The Bool tells whether it is the slot's. -/
def pairFault (rows : Option Code) (xl : Except WFail Where) (s : State) (b : Word) (n : Nat) (mis : Code) : Option (Bool × WFail) :=
  match rows with
  | some c => some (false, ⟨c, 0, 0⟩)
  | none => match slotRows s b n mis with
    | some c => some (true, ⟨c, 0, 0⟩)
    | none => match xl with
      | .error f => some (false, f)
      | .ok _ => match chkXl s b true with
        | .error f => some (true, f)
        | .ok _ => none

/-- Requests of the core that have not performed and whose home lies within scope sc: the first set of R101. -/
def firstSet (s : State) (sc : Nat) : List Nat :=
  (s.reqs.filter (fun r => r.core = s.cur && r.stage = .out && decide (reqScope r ≤ sc))).map (·.id)

/-- Requests of the core that have not performed and whose home lies in the package, those through space 0x5 among them (R87, R160). -/
def packageSet (s : State) : List Nat :=
  (s.reqs.filter (fun r => r.core = s.cur && r.stage = .out &&
    (match r.loc with
     | some l => decide (homeScope s.cur l ≤ 3)
     | none => !offPackage s r.ctx r.addr))).map (·.id)

/-- A fault of the C slot about a reply slot. -/
def cSlotFault (a : Word) (f : WFail) : FaultInfo := { cFault f.code a with acc := 1, space := spc a, wlvl := f.lvl, pa := f.pa }

def opPublish (c a b : BitVec 6) (g : BitVec 4) : SlotOp :=
  { slot := 0, guard := g
    check := fun s _ =>
      let n := (rx6 s b).toNat
      let x := rx6 s c
      match pairFault none (.ok .far) s x 8 .framebad with
      | some f => some (cSlotFault x f.2)
      | none =>
        if n = 0 ∨ n % 32 ≠ 0 ∨ n > 2 ^ 24 then some (cFault .publen)
        else match slotOwn s x 8 with
          | .error e => some (cSlotFault x ⟨e, 0, 0⟩)
          | .ok _ => none
    reqs := fun _ => (1, 0)
    issued := fun _ => 1
    commits := fun _ => true
    late := fun pre s =>
      let p := newId s
      let me := cur pre
      { p.2 with comps := p.2.comps ++
        [{ id := p.1, what := .publish pre.cur (rx6 pre a) (rx6 pre b).toNat, loc := slotLoc pre (rx6 pre c) 8, n := 8, v := 0
           frame := me.trec.w1, die := dieOf pre.cur, owner := some pre.cur, deps := packageSet s, ltag := me.ltag, ctx := me.ctx
           slack := rslk pre }] } }

/-! ## Status registers (R161, R162) -/

/-- The user numbers of Table 12 (R162). -/
def csrUser (n : Nat) : Bool :=
  n ≤ 4 || (8 ≤ n && n ≤ 0xE) || (0x10 ≤ n && n ≤ 0x12) || (0x18 ≤ n && n ≤ 0x23) || (0x30 ≤ n && n ≤ 0x4F)

/-- The system numbers of Table 5 of chapter 15 (R346). -/
def csrSys (n : Nat) : Bool := 0x800 ≤ n && n ≤ 0x822

/-- A number that raises UNDEF at decode (R162). -/
def csrLegal (s : State) (n : Nat) : Bool :=
  if n < 0x800 then csrUser n else if sysLevel (cur s) then csrSys n else true

/-- The value of a status register. -/
def csrRead (s : State) (n : Nat) : Word :=
  let c := cur s
  let k := clu s (cluOf s.cur)
  if n = 0x000 then (if pendSlk c then BitVec.ofNat 64 (freeN s 160 % 4096) else c.slk)
  else if n = 0x001 then c.slkstat
  else if n = 0x002 then c.mmstat
  else if n = 0x003 then c.frzstat
  else if n = 0x004 then (rseed s).setWidth 64
  else if n = 0x008 then BitVec.ofNat 64 (c.ltag.toNat + s.cur % 512 * 2 ^ 16 + c.trec.group * 2 ^ 32)
  else if n = 0x009 then BitVec.ofNat 64 (fld c.trec.w4 0 48)
  else if n = 0x00A then c.trec.w1
  else if n = 0x00B then c.trec.w5
  else if n = 0x00C then c.trec.w6
  else if n = 0x00D then c.trec.w7
  else if n = 0x00E then c.joincnt
  else if n = 0x010 then BitVec.ofNat 64 c.ctime
  else if n = 0x011 then BitVec.ofNat 64 c.wtime
  else if n = 0x012 then c.stepno
  else if 0x018 ≤ n ∧ n ≤ 0x01B then tget 0 c.lpc (n - 0x018)
  else if 0x01C ≤ n ∧ n ≤ 0x01F then tget 0 c.lps (n - 0x01C)
  else if n = 0x020 then entD c 3
  else if n = 0x021 then entD c 4
  else if n = 0x022 then c.gbase
  else if n = 0x023 then BitVec.ofNat 64 (fld (entD c 10) 40 1 + 2 * b2n c.emuAct + 4 * c.emuMask.toNat)
  else if 0x030 ≤ n ∧ n ≤ 0x03F then tget 0 (ctx s c.ctx).rwin (n - 0x030)
  else if 0x040 ≤ n ∧ n ≤ 0x04F then
    let r := ringOf k ((n - 0x040) / 4)
    match n % 4 with
    | 0 => r.base
    | 1 => r.size
    | 2 => r.head
    | _ => r.tail
  else if 0x800 ≤ n ∧ n ≤ 0x81F then entD c (n - 0x800)
  else if n = 0x820 then BitVec.ofNat 64 (b2n (sysLevel c) + 2 * c.ctx)
  else if n = 0x821 then s.hub.sysBase
  else if n = 0x822 then s.hub.sysSize
  else 0

/-- The privilege check of a read (R162, R339). -/
def csrRdCheck (s : State) (n : Nat) : Option FaultInfo :=
  if n ≥ 0x800 ∧ sysLevel (cur s) = false then some (cFault .priv) else none

/-- The privilege check of a write; `clr` for the clearing forms (R162, R339). System level writes the window registers (R113). -/
def csrWrCheck (s : State) (n : Nat) (clr : Bool) : Option FaultInfo :=
  if n = 0 ∨ n = 1 ∨ n = 3 ∨ (n = 2 ∧ clr) ∨ (0x030 ≤ n ∧ n ≤ 0x03F ∧ sysLevel (cur s) = true) then none else some (cFault .priv)

/-- A write of value v to a writable register; reserved bits read zero (R5, R9). -/
def csrPut (s : State) (n : Nat) (v : Word) : State :=
  if n = 0 then modCur s (putAt · 1 (.slk (v &&& 0xFFF)))
  else if n = 1 then modCur s (fun c => { c with slkstat := v &&& 0x1FFFFFFFFFF })
  else if n = 3 then modCur s (fun c => { c with frzstat := v &&& 0x7FFFFFFFFFFFFFFF })
  else if 0x030 ≤ n ∧ n ≤ 0x03F then
    let x := ctx s (cur s).ctx
    setCtx s (cur s).ctx { x with rwin := tset 0 x.rwin (n - 0x030) (v &&& 0xFFFFFFFFFFFF0001) }
  else s

/-- The effect of the clearing forms; SCOPEX takes FSCOPE with it (R119). -/
def csrClear (pre s : State) (n : Nat) (v : Word) : State :=
  if n = 2 then modCur s (fun c => if bit v 0 then { c with mmstat := 0 } else c)
  else csrPut s n (csrRead pre n &&& ~~~v)

def opCsrr (d : BitVec 6) (r : BitVec 12) (g : BitVec 4) : SlotOp :=
  { slot := 0, guard := g, legal := fun s => csrLegal s r.toNat, check := fun s _ => csrRdCheck s r.toNat
    eff := fun pre s => wx s 2 d.toNat (csrRead pre r.toNat) }
def opCsrw (a : BitVec 6) (r : BitVec 12) (g : BitVec 4) : SlotOp :=
  { slot := 0, guard := g, legal := fun s => csrLegal s r.toNat, check := fun s _ => csrWrCheck s r.toNat false
    eff := fun pre s => csrPut s r.toNat (rx6 pre a) }
def opCsrs (a : BitVec 6) (r : BitVec 12) (g : BitVec 4) : SlotOp :=
  { slot := 0, guard := g, legal := fun s => csrLegal s r.toNat, check := fun s _ => csrWrCheck s r.toNat false
    eff := fun pre s => csrPut s r.toNat (csrRead pre r.toNat ||| rx6 pre a) }
def opCsrc (a : BitVec 6) (r : BitVec 12) (g : BitVec 4) : SlotOp :=
  { slot := 0, guard := g, legal := fun s => csrLegal s r.toNat, check := fun s _ => csrWrCheck s r.toNat true
    eff := fun pre s => csrClear pre s r.toNat (rx6 pre a) }
def opCsrwI (i : BitVec 6) (r : BitVec 12) (g : BitVec 4) : SlotOp :=
  { slot := 0, guard := g, legal := fun s => csrLegal s r.toNat, check := fun s _ => csrWrCheck s r.toNat false
    eff := fun _ s => csrPut s r.toNat (i.setWidth 64) }
def opCsrsI (i : BitVec 6) (r : BitVec 12) (g : BitVec 4) : SlotOp :=
  { slot := 0, guard := g, legal := fun s => csrLegal s r.toNat, check := fun s _ => csrWrCheck s r.toNat false
    eff := fun pre s => csrPut s r.toNat (csrRead pre r.toNat ||| i.setWidth 64) }
def opCsrcI (i : BitVec 6) (r : BitVec 12) (g : BitVec 4) : SlotOp :=
  { slot := 0, guard := g, legal := fun s => csrLegal s r.toNat, check := fun s _ => csrWrCheck s r.toNat true
    eff := fun pre s => csrClear pre s r.toNat (i.setWidth 64) }

/-! ## Meanings -/

def execNop (s : State) : Host.Outcome State Fault Refusal := issue1 (opNop 0) s
def execBr (o : BitVec 21) (g : BitVec 4) (s : State) : Host.Outcome State Fault Refusal := issue1 (opBr o g) s
def execBrp (a : BitVec 6) (c : BitVec 2) (o : BitVec 13) (g : BitVec 4) (s : State) : Host.Outcome State Fault Refusal :=
  issue1 (opBrp a c o g) s
def execCall (o : BitVec 21) (g : BitVec 4) (s : State) : Host.Outcome State Fault Refusal := issue1 (opCall o g) s
def execRet (g : BitVec 4) (s : State) : Host.Outcome State Fault Refusal := issue1 (opRet g) s
def execJr (a : BitVec 6) (g : BitVec 4) (s : State) : Host.Outcome State Fault Refusal := issue1 (opJr a g) s
def execCallX (a : BitVec 6) (g : BitVec 4) (s : State) : Host.Outcome State Fault Refusal := issue1 (opCallX a g) s
def execLoop (a : BitVec 6) (l : BitVec 9) (g : BitVec 4) (s : State) : Host.Outcome State Fault Refusal :=
  issue1 (opLoop a l g) s
def execLoope (st : BitVec 3) (a : BitVec 6) (l : BitVec 9) (g : BitVec 4) (s : State) : Host.Outcome State Fault Refusal :=
  issue1 (opLoope st a l g) s
def execLpstage (g : BitVec 4) (s : State) : Host.Outcome State Fault Refusal := issue1 (opLpstage g) s
def execStep (i : BitVec 15) (g : BitVec 4) (s : State) : Host.Outcome State Fault Refusal := issue1 (opStep i g) s
def execExit (g : BitVec 4) (s : State) : Host.Outcome State Fault Refusal := issue1 (opExit g) s
def execCont (o : BitVec 21) (g : BitVec 4) (s : State) : Host.Outcome State Fault Refusal := issue1 (opCont o g) s
def execSetlt (t : BitVec 4) (i : BitVec 12) (g : BitVec 4) (s : State) : Host.Outcome State Fault Refusal :=
  issue1 (opSetlt t i g) s
def execSetltX (t : BitVec 4) (a : BitVec 6) (g : BitVec 4) (s : State) : Host.Outcome State Fault Refusal :=
  issue1 (opSetltX t a g) s
def execEvwait (d : BitVec 3) (a b : BitVec 6) (w : BitVec 3) (g : BitVec 4) (s : State) : Host.Outcome State Fault Refusal :=
  issue1 (opEvwait d a b w g) s
def execTrap (i : BitVec 15) (g : BitVec 4) (s : State) : Host.Outcome State Fault Refusal := issue1 (opTrap i g) s
def execSysc (i : BitVec 15) (g : BitVec 4) (s : State) : Host.Outcome State Fault Refusal := issue1 (opSysc i g) s
def execBkpt (i : BitVec 15) (g : BitVec 4) (s : State) : Host.Outcome State Fault Refusal := issue1 (opBkpt i g) s
def execEmret (g : BitVec 4) (s : State) : Host.Outcome State Fault Refusal := issue1 (opEmret g) s
def execIcinv (sc : BitVec 3) (g : BitVec 4) (s : State) : Host.Outcome State Fault Refusal := issue1 (opIcinv sc g) s
def execPublish (c a b : BitVec 6) (g : BitVec 4) (s : State) : Host.Outcome State Fault Refusal := issue1 (opPublish c a b g) s
def execCsrr (d : BitVec 6) (r : BitVec 12) (g : BitVec 4) (s : State) : Host.Outcome State Fault Refusal :=
  issue1 (opCsrr d r g) s
def execCsrw (a : BitVec 6) (r : BitVec 12) (g : BitVec 4) (s : State) : Host.Outcome State Fault Refusal :=
  issue1 (opCsrw a r g) s
def execCsrs (a : BitVec 6) (r : BitVec 12) (g : BitVec 4) (s : State) : Host.Outcome State Fault Refusal :=
  issue1 (opCsrs a r g) s
def execCsrc (a : BitVec 6) (r : BitVec 12) (g : BitVec 4) (s : State) : Host.Outcome State Fault Refusal :=
  issue1 (opCsrc a r g) s
def execCsrwI (i : BitVec 6) (r : BitVec 12) (g : BitVec 4) (s : State) : Host.Outcome State Fault Refusal :=
  issue1 (opCsrwI i r g) s
def execCsrsI (i : BitVec 6) (r : BitVec 12) (g : BitVec 4) (s : State) : Host.Outcome State Fault Refusal :=
  issue1 (opCsrsI i r g) s
def execCsrcI (i : BitVec 6) (r : BitVec 12) (g : BitVec 4) (s : State) : Host.Outcome State Fault Refusal :=
  issue1 (opCsrcI i r g) s

end Sys2Proof.Machine
end

