-- ==== Sys2Proof/Machine/MemSlot.lean ====
section
/-! DEFINITION. The M slot but for work that is pushed (chapter 07): loads, stores, tile and B-plane transfers, remote requests,
atomics, fences, drains and bounded waits. -/
namespace Sys2Proof.Machine

/-! ## Requests of a bundle (R90 to R99) -/

/-- Landing delay LT[t] (R90). -/
def ltOf (s : State) (t : Nat) : Nat := (tget 0 (cur s).lt t).toNat

/-- Slack of a landing-class load (R115). -/
def loadSlack (lt : Nat) (a : Word) (l : Nat) : Nat := (lt - nominal a l) / 8

/-- The location of a checked address, `none` for space 0x5. -/
def Where.loc? : Where → Option Nat
  | .loc l => some l
  | .far => none

/-- A fault of an address check (R171, R230). -/
def addrFault (slot engine acc : Nat) (a : Word) (f : WFail) : FaultInfo :=
  { code := f.code, slot := slot, engine := engine, addr := a, acc := acc, space := spc a, wlvl := f.lvl, pa := f.pa }

/-- A fault of an M-slot instruction's own entry. -/
def mFault (c : Code) (a : Word := 0) : FaultInfo := { code := c, slot := 3, engine := 2, addr := a, space := spc a }

/-- Requests of earlier bundles, and those of this one that a new request must follow in its line: a load follows only the loads of its own
bundle, whose writes come after every read (R96 to R98). -/
def depsOf (pre s : State) (loc : Option Nat) (k : ReqKind) : List Nat :=
  (orderDeps s pre.cur loc).filter (fun i => i < pre.nextId || k ≠ .load || s.reqs.any (fun r => r.id = i && r.kind = .load))

/-- A request of the current core, as its bundle issues it, with what a fault record names (R318, R390). -/
def newReq (pre s : State) (k : ReqKind) (a : Word) (w : Where) (n slack slot : Nat) : Req :=
  let c := cur pre
  { id := s.nextId, core := pre.cur, kind := k, addr := a, loc := w.loc?, n := n, slack := slack, prio := c.trec.prio
    ltag := c.ltag, ctx := c.ctx, gen := (ctx pre c.ctx).gen, deps := depsOf pre s w.loc? k
    slot := if (sviOf pre c).isSome then 0 else slot, eng := slotEngine slot, frame := c.trec.w1, off := repOff pre c, npc := c.pc }

/-- A request is added under its number. -/
def putReq (s : State) (r : Req) : State := addReq { s with nextId := s.nextId + 1 } r

/-- A request of core k to its own space 0x1 that has not performed: one that R101 to R106 hold. -/
def Req.ownOut (r : Req) (k : Nat) : Bool :=
  r.core = k && r.stage = .out &&
    (match r.loc with
     | some l => spLoc k 0 ≤ l && decide (l < spLoc k 0x200000)
     | none => false)

/-- The core has such a request (R186). Later requests to that space wait for it (R97). -/
def ownHeld (s : State) : Bool := s.reqs.any (·.ownOut s.cur)

/-- A request to `a` may issue as far as R97 goes. -/
def ownFree (s : State) (a : Word) : Bool := spc a ≠ 1 || !ownHeld s

/-- An access of `slot` to the own space 0x1 is held by an earlier slot of its bundle (R101, R103, R105, R106). -/
def heldOwn (pre s : State) (slot : Nat) : Bool := decide (4 ≤ slot) && !(gate pre s).isEmpty

/-- A landing-class request of one part (R90, R91): own-scratchpad data is read at issue, unless an earlier slot of the bundle holds the
access: then when it performs. DESIGN CHOICE (log entry 48): a held access that has not performed at L freezes the core. -/
def startLoad (pre s : State) (a : Word) (w : Where) (n floor room : Nat) (dst : LandDst) (t slot : Nat) : State :=
  let c := (cur pre).ctime
  let lt := ltOf pre t
  let e := newId s
  match w with
  | .loc l =>
    if spc a = 1 ∧ heldOwn pre s slot = false ∧ errIn pre l n = none then
      addLand (softTouch e.2 l n)
        { id := e.1, at_ := c + Nat.max floor lt, dst := dst, parts := [⟨0, some (BitVec.ofNat 1024 (rd pre l n))⟩]
          room := room, own := true }
    else
      let r := { newReq pre e.2 .load a w n (loadSlack lt a l) slot with dst := .land e.1 0 }
      addLand (putReq e.2 r)
        { id := e.1, at_ := c + (if spc a = 1 then Nat.max floor lt else lt), dst := dst, parts := [⟨r.id, none⟩], room := room }
  | .far =>
    let r := { newReq pre e.2 .load a w n (loadSlack lt a 0) slot with dst := .land e.1 0 }
    addLand (putReq e.2 r) { id := e.1, at_ := c + lt, dst := dst, parts := [⟨r.id, none⟩], room := room }

/-- A store to the own space 0x1 performs at its issue, unless its bundle holds it or an earlier own access that it follows (R96, R97). -/
def storesNow (pre s : State) (slot : Nat) : Bool :=
  !heldOwn pre s slot && (slot < 4 || !s.reqs.any (fun r => decide (pre.nextId ≤ r.id) && r.ownOut pre.cur))

/-- The store that a request makes, in issue order among the own requests of its bundle (R97). -/
def storeReq (pre s : State) (a : Word) (w : Where) (n slack slot : Nat) (bs : List (Nat × Byte)) : Req :=
  let r := { newReq pre s .store a w n slack slot with wr := bs }
  if spc a = 1 then { r with deps := r.deps ++ (s.reqs.filter (·.ownOut pre.cur)).map (·.id) } else r

/-- A store of bytes `bs` in n bytes: at once in space 0x1, else a request (R94, R97). -/
def startStoreB (pre s : State) (a : Word) (w : Where) (n slack slot : Nat) (bs : List (Nat × Byte)) (posted : Bool) : State :=
  match w with
  | .loc l =>
    if spc a = 1 ∧ storesNow pre s slot then softWrite s l n bs
    else putReq s { storeReq pre s a w n slack slot bs with posted := posted }
  | .far => putReq s { storeReq pre s a w n slack slot bs with posted := posted }

/-- A store of the n bytes of a number. -/
def startStore (pre s : State) (a : Word) (w : Where) (n v : Nat) (slack slot : Nat) (posted : Bool) : State :=
  startStoreB pre s a w n slack slot (bytesOf 0 n v) posted

/-! ## Scalar loads and stores (R174 to R176) -/

/-- A load of n bytes through landing class t. -/
def opLoad (d : BitVec 6) (addr : State → Word) (n : Nat) (sg : Bool) (t : Nat) (g : BitVec 4) : SlotOp :=
  { slot := 3, guard := g, reqs := fun _ => (1, 8)
    admits := fun s => ownFree s (addr s)
    check := fun s _ => match chk s (addr s) n n false with
      | .error f => some (addrFault 3 2 0 (addr s) f)
      | .ok _ => none
    eff := fun pre s => match chk pre (addr pre) n n false with
      | .error _ => s
      | .ok w => startLoad pre s (addr pre) w n 4 8 (.x d.toNat n sg) t 3 }

/-- A store of the low n bytes of a register. -/
def opStore (b : BitVec 6) (addr : State → Word) (n : Nat) (g : BitVec 4) : SlotOp :=
  { slot := 3, guard := g, reqs := fun _ => (1, 0)
    admits := fun s => ownFree s (addr s)
    check := fun s _ => match chk s (addr s) n n true with
      | .error f => some (addrFault 3 2 1 (addr s) f)
      | .ok _ => none
    eff := fun pre s => match chk pre (addr pre) n n true with
      | .error _ => s
      | .ok w => startStore pre s (addr pre) w n ((rx6 pre b).toNat % 2 ^ (8 * n)) (rslk pre) 3 false }

/-- xa + Sext(off) × n (R174, R176). -/
def offAddr (a : BitVec 6) (o : Int) (n : Nat) (s : State) : Word := rx6 s a + BitVec.ofInt 64 (o * n)
/-- xa + (xb << z) (R175, R176). -/
def idxAddr (a b : BitVec 6) (z : Nat) (s : State) : Word := rx6 s a + (rx6 s b <<< z)

def opLdb (d a : BitVec 6) (t : BitVec 4) (o : BitVec 5) (g : BitVec 4) : SlotOp :=
  opLoad d (offAddr a o.toInt 1) 1 true t.toNat g
def opLdbu (d a : BitVec 6) (t : BitVec 4) (o : BitVec 5) (g : BitVec 4) : SlotOp :=
  opLoad d (offAddr a o.toInt 1) 1 false t.toNat g
def opLdh (d a : BitVec 6) (t : BitVec 4) (o : BitVec 5) (g : BitVec 4) : SlotOp :=
  opLoad d (offAddr a o.toInt 2) 2 true t.toNat g
def opLdhu (d a : BitVec 6) (t : BitVec 4) (o : BitVec 5) (g : BitVec 4) : SlotOp :=
  opLoad d (offAddr a o.toInt 2) 2 false t.toNat g
def opLdw (d a : BitVec 6) (t : BitVec 4) (o : BitVec 5) (g : BitVec 4) : SlotOp :=
  opLoad d (offAddr a o.toInt 4) 4 true t.toNat g
def opLdwu (d a : BitVec 6) (t : BitVec 4) (o : BitVec 5) (g : BitVec 4) : SlotOp :=
  opLoad d (offAddr a o.toInt 4) 4 false t.toNat g
def opLdd (d a : BitVec 6) (t : BitVec 4) (o : BitVec 5) (g : BitVec 4) : SlotOp :=
  opLoad d (offAddr a o.toInt 8) 8 false t.toNat g
def opStb (b a : BitVec 6) (o : BitVec 9) (g : BitVec 4) : SlotOp := opStore b (offAddr a o.toInt 1) 1 g
def opSth (b a : BitVec 6) (o : BitVec 9) (g : BitVec 4) : SlotOp := opStore b (offAddr a o.toInt 2) 2 g
def opStw (b a : BitVec 6) (o : BitVec 9) (g : BitVec 4) : SlotOp := opStore b (offAddr a o.toInt 4) 4 g
def opStd (b a : BitVec 6) (o : BitVec 9) (g : BitVec 4) : SlotOp := opStore b (offAddr a o.toInt 8) 8 g
def opLdx (d a b : BitVec 6) (t : BitVec 3) (g : BitVec 4) : SlotOp := opLoad d (idxAddr a b 3) 8 false t.toNat g
def opStx (x a b : BitVec 6) (z : BitVec 2) (g : BitVec 4) : SlotOp := opStore x (idxAddr a b z.toNat) (2 ^ z.toNat) g

/-! ## Tile and B-plane transfers (R177 to R181) -/

/-- The forms of a tile transfer. -/
inductive TForm where
  | tld | tldt | tst | bld
  deriving DecidableEq, Repr

/-- The element size of ESZ (R179): 1, 2 or 4. -/
def geoE (x : Word) : Nat := 2 ^ fld x 62 2

/-- The reserved fields of the geometry word (R177). -/
def geoOk (x : Word) (f : TForm) : Bool :=
  fld x 38 24 = 0 && (f = .bld || fld x 32 6 = 0) && (if f = .tldt then fld x 62 2 ≠ 3 else fld x 62 2 = 0)

/-- The lines of a transfer in order: 128 rows of one line, or 128 / E rows of E lines (R177, R179). -/
def geoLines (xa x : Word) (f : TForm) : List Word :=
  let st := BitVec.ofInt 64 (sextI (fld x 0 32) 32)
  let e := if f = .tldt then geoE x else 1
  (List.range 128).map (fun i => xa + st * BitVec.ofNat 64 (i / e) + BitVec.ofNat 64 (128 * (i % e)))

/-- The check of the lines in order (R177): the space of xa, then R88. -/
def lineCheck (s : State) (xa : Word) (write : Bool) : List Word → Option FaultInfo
  | [] => none
  | a :: t =>
    let acc := if write then 1 else 0
    if spc a ≠ spc xa then some (addrFault 3 2 acc a ⟨.addrspace, 0, 0⟩)
    else match chk s a 128 128 write with
      | .error f => some (addrFault 3 2 acc a f)
      | .ok _ => lineCheck s xa write t

/-- The checks of a transfer: ESZ = 3 names no rows, so it faults first; then the rows; then the geometry word. -/
def geoCheck (s : State) (xa x : Word) (f : TForm) : Option FaultInfo :=
  if f = .tldt ∧ fld x 62 2 = 3 then some (mFault .tilearg xa)
  else match lineCheck s xa (f = .tst) (geoLines xa x f) with
    | some i => some i
    | none => if geoOk x f then none else some (mFault .tilearg xa)

/-- The destination of a transfer is busy until its entry has been written (R130, R178); data of space 0x1 takes 12 wall ccy. -/
def landBusy (s : State) (res : Res) (id : Nat) (own : Bool) : State :=
  modCur s (fun c =>
    { c with busy := c.busy ++ [{ res := res, wall := if own then c.wtime + 12 else 0, land := some id }] })

/-- The requests of the lines of a landing-class transfer, in row order. -/
def lineReqs (pre : State) (lt e : Nat) : State → Nat → List Word → State × List Part
  | s, _, [] => (s, [])
  | s, i, a :: t =>
    match chk pre a 128 128 false with
    | .error _ => (s, [])
    | .ok w =>
      let r := { newReq pre s .load a w 128 (loadSlack lt a (w.loc?.getD 0)) 3 with dst := .land e i }
      let k := lineReqs pre lt e (putReq s r) (i + 1) t
      (k.1, ⟨r.id, none⟩ :: k.2)

/-- The issue of `tld`, `tldt` or `bld` (R177). -/
def startTile (pre s : State) (xa x : Word) (f : TForm) (dst : LandDst) (res : Res) (t : Nat) : State :=
  let c := (cur pre).ctime
  let lt := ltOf pre t
  let e := newId s
  if spc xa = 1 ∧ (geoLines xa x f).all (fun a => (errIn pre (locOf pre a 128 false) 128).isNone) then
    let ps := (geoLines xa x f).map (fun a => (⟨0, some (BitVec.ofNat 1024 (rd pre (locOf pre a 128 false) 128))⟩ : Part))
    let u := (geoLines xa x f).foldl (fun s a => softTouch s (locOf pre a 128 false) 128) e.2
    landBusy (addLand u { id := e.1, at_ := c + Nat.max 12 lt, dst := dst, parts := ps, room := 16384, own := true })
      res e.1 true
  else
    let k := lineReqs pre lt e.1 e.2 0 (geoLines xa x f)
    landBusy (addLand k.1 { id := e.1, at_ := c + (if spc xa = 1 then Nat.max 12 lt else lt), dst := dst, parts := k.2, room := 16384 }) res e.1 false

/-- Row i of a tile (R177). -/
def tileRow (t : Tile) (i : Nat) : Line := t.extractLsb' (1024 * i) 1024

/-- The stores of `tst` in row order (R180). -/
def tileStores (pre : State) (v : Tile) : State → Nat → List Word → State
  | s, _, [] => s
  | s, i, a :: t =>
    match chk pre a 128 128 true with
    | .error _ => s
    | .ok w => tileStores pre v (startStore pre s a w 128 (tileRow v i).toNat (rslk pre) 3 false) (i + 1) t

/-- A landing-class tile transfer. -/
def opTileLoad (f : TForm) (t : Nat) (a b : BitVec 6) (dst : State → LandDst) (res : State → Res) (g : BitVec 4) : SlotOp :=
  { slot := 3, guard := g, occ := fun _ => 8, res := fun s => [res s], reqs := fun _ => (128, 16384)
    admits := fun s => ownFree s (rx6 s a)
    check := fun s _ => geoCheck s (rx6 s a) (rx6 s b) f
    eff := fun pre s => startTile pre s (rx6 pre a) (rx6 pre b) f (dst pre) (res pre) t }

def opTld (d t : BitVec 4) (a b : BitVec 6) (g : BitVec 4) : SlotOp :=
  opTileLoad .tld t.toNat a b (fun _ => .tile d.toNat 0) (fun _ => .tile d.toNat) g
def opTldt (d t : BitVec 4) (a b : BitVec 6) (g : BitVec 4) : SlotOp :=
  opTileLoad .tldt t.toNat a b (fun s => .tile d.toNat (geoE (rx6 s b))) (fun _ => .tile d.toNat) g

/-- The smoothing vector is set (R243). -/
def smValid (c : Core) : Bool := bit c.smstat 21

/-- `bld` (R181). DESIGN CHOICE (log entry 66): the smoothing vector and format are those that hold at its issue. -/
def opBld (t : BitVec 4) (a b : BitVec 6) (m : BitVec 1) (g : BitVec 4) : SlotOp :=
  let bt := fun (s : State) => fld (rx6 s b) 32 6
  let o := opTileLoad .bld t.toNat a b
    (fun s => .btile (bt s) (if m = 1 then some (rsm s, BitVec.ofNat 5 (fld (cur s).smstat 16 5)) else none))
    (fun s => .btile (bt s)) g
  { o with check := fun s n => match o.check s n with
      | some i => some i
      | none => if m = 1 ∧ smValid (cur s) = false then some (mFault .tilearg (rx6 s a)) else none }

def opTst (d : BitVec 4) (a b : BitVec 6) (g : BitVec 4) : SlotOp :=
  { slot := 3, guard := g, occ := fun _ => 8, res := fun _ => [.tile d.toNat], reqs := fun _ => (128, 0)
    admits := fun s => ownFree s (rx6 s a)
    check := fun s _ => geoCheck s (rx6 s a) (rx6 s b) .tst
    eff := fun pre s =>
      let s := tileStores pre (tget 0 (cur pre).t d.toNat) s 0 (geoLines (rx6 pre a) (rx6 pre b) .tst)
      modCur s (fun c => { c with busy := c.busy ++ [{ res := .tile d.toNat, wall := c.wtime + 8 }] }) }

/-! ## Remote loads and posted stores (R182, R183) -/

/-- The slack of `rld` and `rst` (R203). -/
def remSlack (i : BitVec 1) (s5 : BitVec 5) (s : State) : Nat := if i = 1 then s5.toNat * 128 else rslk s

/-- A reply on its way to the own frame with data known at once (R36). -/
def replyNow (pre s : State) (loc n : Nat) (v slack : Nat) : State :=
  let c := cur pre
  addComp s loc n (BitVec.ofNat 1024 v) c.trec.w1 (dieOf pre.cur) (some pre.cur) c.ctx c.ltag slack false

/-- A fault of an M-slot instruction that names address `a` with access kind `acc`, and reply slot `b` (R130 step 5). -/
def mPairFault (a b : Word) (acc : Nat) (e : Bool × WFail) : FaultInfo := if e.1 then addrFault 3 2 1 b e.2 else addrFault 3 2 acc a e.2

def opRld (c a : BitVec 6) (z : BitVec 3) (i : BitVec 1) (s5 : BitVec 5) (g : BitVec 4) : SlotOp :=
  let n := 8 * 2 ^ z.toNat
  { slot := 3, guard := g, legal := fun _ => z.toNat ≤ 4 && (i = 1 || s5 = 0), reqs := fun _ => (1, 0)
    admits := fun s => ownFree s (rx6 s a)
    issued := fun _ => 1
    check := fun s _ =>
      match pairFault (chkRows s (rx6 s a) n n) (chkXl s (rx6 s a) false) s (rx6 s c) n .framebad with
      | some e => some (mPairFault (rx6 s a) (rx6 s c) 0 e)
      | none => match slotOwn s (rx6 s c) n with
        | .error e => some (mFault e (rx6 s c))
        | .ok _ => none
    eff := fun pre s => match chk pre (rx6 pre a) n n false with
      | .error _ => s
      | .ok w =>
        let l := slotLoc pre (rx6 pre c) n
        match w, spc (rx6 pre a) with
        | .loc m, 1 =>
          if errIn pre m n = none then replyNow pre s l n (rd pre m n) (remSlack i s5 pre)
          else putReq s { newReq pre s .load (rx6 pre a) w n (remSlack i s5 pre) 3 with dst := .slot l n (cur pre).trec.w1 }
        | _, _ => putReq s { newReq pre s .load (rx6 pre a) w n (remSlack i s5 pre) 3 with dst := .slot l n (cur pre).trec.w1 } }

def opRst (b a : BitVec 6) (z : BitVec 2) (i : BitVec 1) (s5 : BitVec 5) (g : BitVec 4) : SlotOp :=
  let n := 2 ^ z.toNat
  { slot := 3, guard := g, legal := fun _ => i = 1 || s5 = 0, reqs := fun _ => (1, 0), commits := fun _ => true
    admits := fun s => ownFree s (rx6 s a)
    check := fun s _ => match chk s (rx6 s a) n n true with
      | .error f => some (addrFault 3 2 1 (rx6 s a) f)
      | .ok _ => none
    eff := fun pre s => match chk pre (rx6 pre a) n n true with
      | .error _ => s
      | .ok w => startStore pre s (rx6 pre a) w n ((rx6 pre b).toNat % 2 ^ (8 * n)) (remSlack i s5 pre) 3 true }

/-! ## Atomics (R184 to R192) -/

/-- The three forms of an atomic (R185). -/
inductive AForm where
  | land (t : Nat) | slot | posted
  deriving DecidableEq, Repr

/-- The operands of an atomic as they stand before its bundle: handler, address, attribute word, the four operand registers,
and the register of a landing result. -/
structure AmoIn where
  h : Nat
  a : Word
  at_ : Word
  op : Word
  op2 : Word
  op3 : Word
  op4 : Word
  d : Nat

/-- Fields of the attribute word (Table 7). -/
def amoScope (w : Word) : Nat := fld w 2 3
def amoOrd (w : Word) : Nat := fld w 5 2
def amoRslot (w : Word) : Nat := fld w 20 12
def amoSlack (s : State) (w : Word) : Nat := if bit w 7 then fld w 8 12 else rslk s

/-- Operand width of a handler (R184, Table 8). -/
def amoN (h wid : Nat) : Nat :=
  if h = 15 ∨ h = 16 ∨ h = 24 ∨ h = 26 then 16
  else if h = 18 ∨ h = 19 then 128
  else if h = 17 ∨ (20 ≤ h ∧ h ≤ 23) ∨ h = 25 ∨ h = 27 then 8
  else 2 ^ wid

/-- Width codes that a handler allows (Table 8). -/
def widOk (h wid : Nat) : Bool :=
  if (3 ≤ h ∧ h ≤ 5) ∨ (9 ≤ h ∧ h ≤ 14) then 2 ≤ wid else true

/-- Bytes of the result: 16 for the handlers that return 128 bits. -/
def amoRes (h : Nat) : Nat := if h = 15 ∨ h = 16 ∨ h = 19 ∨ h = 24 then 16 else 8

/-- The event-post address forms of R191. -/
def postOk (a : Word) : Bool :=
  match spc a with
  | 2 => fld a 0 24 = 0
  | 6 => fld a 0 24 = 0
  | 4 => fld a 4 24 = 0
  | 5 => fld a 6 42 = 0
  | _ => false

/-- A record slot in a switched-out cluster of the context, in the allotment: its bytes stand in the switch image (R371). -/
def slotAway (s : State) (a : Word) : Bool :=
  let e := entNow s (cur s)
  spc a = 6 && fld a 28 32 = 0 && (swImage s (cur s).ctx (16 * dieOf s.cur + fld a 24 4)).isSome &&
    inUnits (frOff a) 64 (fld (e 7) 0 8) (fld (e 7) 8 9) 65536

/-- The rows of R88 for an atomic: the record slot of a handler-17 address, and of an event post the first two rows and R191. -/
def amoRows (s : State) (i : AmoIn) : Option Code :=
  let n := amoN i.h (fld i.at_ 0 2)
  if i.h = 27 then (if spaceOk s (cur s).ctx i.a = false ∨ postOk i.a = false then some .addrspace else none)
  else if i.h = 17 then (if slotAway s i.a then none else chkRows s i.a 64 1)
  else chkRows s i.a n n

/-- Where a handler-17 address leads: a FRAME other than the own one (R189). -/
def joinOwn (s : State) (a : Word) : Except WFail Where :=
  let c := cur s
  let f := frameCanon s.cur a
  if f = c.trec.w1 ∨ frameOk (entNow s c) (dieOf s.cur) f = false then .error ⟨.framebad, 0, 0⟩
  else .ok (.loc (frameHome s c.ctx (dieOf s.cur) f))

/-- The translation of an atomic's address, every handler but 0 a write (R171, R191, R192). An event post through space 0x5 stays a remote
request, to the own coordinates too (R87). -/
def amoXl (s : State) (i : AmoIn) : Except WFail Where :=
  if i.h = 27 then (if spc i.a = 5 then .ok .far else .ok (.loc (evLoc (postClu s.cur i.a))))
  else chkXl s i.a (i.h ≠ 0)

/-- Where the address of an atomic leads, or its first fault (R171, R189, R191, R192). -/
def amoAddr (s : State) (i : AmoIn) : Except WFail Where :=
  match amoRows s i with
  | some c => .error ⟨c, 0, 0⟩
  | none => match amoXl s i with
    | .error f => .error f
    | .ok w => if i.h = 17 then joinOwn s i.a else .ok w

/-- The attribute checks (R110, R184). -/
def amoBad (i : AmoIn) (f : AForm) : Bool :=
  28 ≤ i.h || fld i.at_ 32 32 ≠ 0 || 5 ≤ amoScope i.at_ || !widOk i.h (fld i.at_ 0 2) ||
    (f ≠ .slot && amoRslot i.at_ ≠ 0)

/-- The address of the reply slot of `amo.f` (R185). -/
def rslotAddr (s : State) (i : AmoIn) : Word := (cur s).trec.w1 + BitVec.ofNat 64 (8 * amoRslot i.at_)

/-- The address faults of an atomic up to its own entry: those of A, and of the reply slot of `amo.f` (R130 step 5, R431). -/
def amoPair (s : State) (i : AmoIn) (f : AForm) : Option (Bool × WFail) :=
  if f = .slot ∧ 16 ≤ amoRslot i.at_ then pairFault (amoRows s i) (amoXl s i) s (rslotAddr s i) (amoRes i.h) .align
  else match amoRows s i with
    | some c => some (false, ⟨c, 0, 0⟩)
    | none => match amoXl s i with
      | .error e => some (false, e)
      | .ok _ => none

/-- The faults of an atomic at step 5. -/
def amoCheck (s : State) (i : AmoIn) (f : AForm) : Option FaultInfo :=
  match amoPair s i f with
  | some e => some (mPairFault i.a (rslotAddr s i) 3 e)
  | none => match amoAddr s i with
    | .error e => some (addrFault 3 2 3 i.a e)
    | .ok _ =>
      if amoBad i f then some { mFault .amobad i.a with acc := 3 }
      else if f = .slot then
        if amoRslot i.at_ < 16 then some (mFault .framebad (rslotAddr s i))
        else match slotOwn s (rslotAddr s i) (amoRes i.h) with
          | .error e => some (mFault e (rslotAddr s i))
          | .ok _ => none
      else none

/-- An address in an enabled reduction window of the context (R113). -/
def inWindow (s : State) (cx : Nat) (a : Word) : Bool :=
  (spc a = 0 || spc a = 5) && (List.range 16).any (fun j =>
    let w := tget 0 (ctx s cx).rwin j
    bit w 0 && decide (fld w 16 32 * 65536 ≤ fld a 0 48) && decide (fld a 0 48 < (fld w 16 32 + fld w 48 16) * 65536))

/-- The ordering that an atomic keeps: acquire, release; dropped when its home lies outside SCOPE (R104). -/
def amoOrder (s : State) (i : AmoIn) (w : Where) : Bool × Bool :=
  let home := match w with
    | .loc l => homeScope s.cur l
    | .far => 4
  let ok := decide (home ≤ amoScope i.at_)
  (ok && (amoOrd i.at_ = 1 || amoOrd i.at_ = 3), ok && 2 ≤ amoOrd i.at_)

/-- MMSTAT after a scope mismatch (R104). -/
def scopeMiss (s : State) (sc : Nat) : State :=
  modCur s (fun c => { c with mmstat := if bit c.mmstat 0 then c.mmstat else BitVec.ofNat 64 (1 + 2 * sc) })

/-- The destination of a landing result (R185). -/
def amoDst (i : AmoIn) : LandDst := if amoRes i.h = 16 then .pair i.d else .x i.d 8 false

/-- The issue of an atomic: at once in the own space 0x1 unless a release holds it, else a request. DESIGN CHOICE (log entry 48): a landing
result of a held release atomic on the own space 0x1, which R91 would read at issue and R102 holds, freezes the core if it has not come at L. -/
def startAmo (pre s : State) (i : AmoIn) (f : AForm) (slot : Nat) : State :=
  match amoAddr pre i with
  | .error _ => s
  | .ok w =>
    let ord := amoOrder pre i w
    let miss := amoOrd i.at_ ≠ 0 && (match w with
      | .loc l => decide (homeScope pre.cur l > amoScope i.at_)
      | .far => decide (4 > amoScope i.at_))
    let s := if miss then scopeMiss s (amoScope i.at_) else s
    let hold := if ord.2 then firstSet pre (amoScope i.at_) else []
    let base := { newReq pre s .amo i.a w (amoN i.h (fld i.at_ 0 2)) (amoSlack pre i.at_) slot with
      h := i.h, op := i.op, op2 := if i.h = 23 then 0 else i.op2, op3 := if i.h = 23 then 0 else i.op3, op4 := i.op4
      ord := decide (amoOrd i.at_ ≠ 0), acq := ord.1, rel := ord.2 && hold ≠ []
      scope := amoScope i.at_
      win := i.h = 23 && inWindow pre (cur pre).ctx i.a }
    let r := { base with deps := base.deps ++ hold }
    if spc i.a = 1 ∧ hold = [] ∧ errIn pre (w.loc?.getD 0) r.n = none then
      let y := amoApply s r (w.loc?.getD 0)
      let x := (amoDone y.1 r (w.loc?.getD 0), y.2)
      match f with
      | .land t =>
        let e := newId x.1
        addLand e.2
          { id := e.1, at_ := (cur pre).ctime + Nat.max 4 (ltOf pre t), dst := amoDst i
            parts := [⟨0, some (BitVec.ofNat 1024 x.2)⟩], room := amoRes i.h, own := true }
      | .slot => replyNow pre x.1 (slotLoc pre (rslotAddr pre i) (amoRes i.h)) (amoRes i.h) x.2 r.slack
      | .posted => x.1
    else match f with
      | .land t =>
        let e := newId s
        let r := { r with id := e.2.nextId, dst := .land e.1 0 }
        addLand (putReq e.2 r)
          { id := e.1, at_ := (cur pre).ctime + (if spc i.a = 1 then Nat.max 4 (ltOf pre t) else ltOf pre t), dst := amoDst i
            parts := [⟨r.id, none⟩], room := amoRes i.h }
      | .slot => putReq s { r with dst := .slot (slotLoc pre (rslotAddr pre i) (amoRes i.h)) (amoRes i.h) (cur pre).trec.w1 }
      | .posted => putReq s { r with posted := true }

/-- An atomic of one of the three forms. -/
def opAtomic (legal : Bool) (ins : State → AmoIn) (f : AForm) (g : BitVec 4) : SlotOp :=
  { slot := 3, guard := g, legal := fun _ => legal
    reqs := fun s => (1, match f with
      | .land _ => amoRes (ins s).h
      | _ => 0)
    admits := fun s => ownFree s (ins s).a
    issued := fun _ => if f = .slot then 1 else 0
    commits := fun s => (ins s).h ≠ 0
    check := fun s _ => amoCheck s (ins s) f
    eff := fun pre s => startAmo pre s (ins pre) f 3 }

/-- The operands of a native atomic (R184). -/
def amoIn (d a : BitVec 6) (h : BitVec 5) (s : State) : AmoIn :=
  { h := h.toNat, a := rx6 s a, at_ := rx6 s (a + 1), op := rx6 s d, op2 := rx6 s (d + 1), op3 := rx6 s (d + 2)
    op4 := rx6 s (d + 3), d := d.toNat }

def opAmo (d a : BitVec 6) (h : BitVec 5) (t g : BitVec 4) : SlotOp :=
  opAtomic (amoRegsOk d.toNat a.toNat h) (amoIn d a h) (.land t.toNat) g
def opAmoF (d a : BitVec 6) (h : BitVec 5) (g : BitVec 4) : SlotOp :=
  opAtomic (amoRegsOk d.toNat a.toNat h) (amoIn d a h) .slot g
def opAmoN (d a : BitVec 6) (h : BitVec 5) (g : BitVec 4) : SlotOp :=
  opAtomic (amoRegsOk d.toNat a.toNat h) (amoIn d a h) .posted g

/-! ## Fences, drains and bounded waits (R196 to R198) -/

def opFence (sc : BitVec 3) (g : BitVec 4) : SlotOp :=
  { slot := 3, guard := g, legal := fun _ => sc.toNat ≤ 4
    eff := fun pre s => modCur s (fun c => { c with mwait := .reqs (firstSet pre sc.toNat) }) }

/-- The programs issued on channel n by the core, an earlier task's among them, that have not completed (R106, R197). -/
def chanIds (c : Core) (n : Nat) : List Nat := ((c.ch.map (fun e => e.2.progs)).flatten.filter (fun p => p.chan = n)).map (·.id)

def opDrain (ch : BitVec 2) (g : BitVec 4) : SlotOp :=
  { slot := 3, guard := g, eff := fun pre s => modCur s (fun c => { c with mwait := .drain (chanIds (cur pre) ch.toNat) }) }

/-- Posted requests of the core without an acknowledgement (R105, R197). -/
def postedIds (s : State) : List Nat := (s.reqs.filter (fun r => r.core = s.cur && r.posted)).map (·.id)

def opDrainR (g : BitVec 4) : SlotOp :=
  { slot := 3, guard := g, eff := fun pre s => modCur s (fun c => { c with mwait := .acks (postedIds pre) }) }

/-- The poll of a `bwait` (R198). DESIGN CHOICE (log entry 60): a later poll whose address check or translation fails, where the first one's
passed, is not sent, nothing is reported, and the wait runs to its limit. -/
def sendPoll (pre s : State) (a : Word) : State :=
  match chk pre a 8 16 false with
  | .error _ => s
  | .ok w => putReq s { newReq pre s .load a w 8 (rslk pre) 3 with dst := .poll }

def opBwait (d : BitVec 3) (a b : BitVec 6) (sc : BitVec 3) (g : BitVec 4) : SlotOp :=
  { slot := 3, guard := g, legal := fun _ => sc.toNat ≤ 4, reqs := fun _ => (1, 0)
    admits := fun s => ownFree s (rx6 s a)
    check := fun s _ => match chk s (rx6 s a) 8 16 false with
      | .error f => some (addrFault 3 2 0 (rx6 s a) f)
      | .ok _ => none
    eff := fun pre s =>
      let s' := sendPoll pre s (rx6 pre a)
      modCur s' (fun c =>
        { c with
          mwait := .bw d.toNat (BitVec.ofNat 4 (fld (rx6 pre b) 32 4)) (rx6 pre a)
            (c.ctime + 1 + fld (rx6 pre b) 0 32) sc.toNat (some s.nextId) }) }

/-! ## Meanings -/

def execLdb (d a : BitVec 6) (t : BitVec 4) (o : BitVec 5) (g : BitVec 4) (s : State) : Host.Outcome State Fault Refusal :=
  issue1 (opLdb d a t o g) s
def execLdbu (d a : BitVec 6) (t : BitVec 4) (o : BitVec 5) (g : BitVec 4) (s : State) : Host.Outcome State Fault Refusal :=
  issue1 (opLdbu d a t o g) s
def execLdh (d a : BitVec 6) (t : BitVec 4) (o : BitVec 5) (g : BitVec 4) (s : State) : Host.Outcome State Fault Refusal :=
  issue1 (opLdh d a t o g) s
def execLdhu (d a : BitVec 6) (t : BitVec 4) (o : BitVec 5) (g : BitVec 4) (s : State) : Host.Outcome State Fault Refusal :=
  issue1 (opLdhu d a t o g) s
def execLdw (d a : BitVec 6) (t : BitVec 4) (o : BitVec 5) (g : BitVec 4) (s : State) : Host.Outcome State Fault Refusal :=
  issue1 (opLdw d a t o g) s
def execLdwu (d a : BitVec 6) (t : BitVec 4) (o : BitVec 5) (g : BitVec 4) (s : State) : Host.Outcome State Fault Refusal :=
  issue1 (opLdwu d a t o g) s
def execLdd (d a : BitVec 6) (t : BitVec 4) (o : BitVec 5) (g : BitVec 4) (s : State) : Host.Outcome State Fault Refusal :=
  issue1 (opLdd d a t o g) s
def execStb (b a : BitVec 6) (o : BitVec 9) (g : BitVec 4) (s : State) : Host.Outcome State Fault Refusal :=
  issue1 (opStb b a o g) s
def execSth (b a : BitVec 6) (o : BitVec 9) (g : BitVec 4) (s : State) : Host.Outcome State Fault Refusal :=
  issue1 (opSth b a o g) s
def execStw (b a : BitVec 6) (o : BitVec 9) (g : BitVec 4) (s : State) : Host.Outcome State Fault Refusal :=
  issue1 (opStw b a o g) s
def execStd (b a : BitVec 6) (o : BitVec 9) (g : BitVec 4) (s : State) : Host.Outcome State Fault Refusal :=
  issue1 (opStd b a o g) s
def execLdx (d a b : BitVec 6) (t : BitVec 3) (g : BitVec 4) (s : State) : Host.Outcome State Fault Refusal :=
  issue1 (opLdx d a b t g) s
def execStx (s a b : BitVec 6) (z : BitVec 2) (g : BitVec 4) (st : State) : Host.Outcome State Fault Refusal :=
  issue1 (opStx s a b z g) st
def execTld (d t : BitVec 4) (a b : BitVec 6) (g : BitVec 4) (s : State) : Host.Outcome State Fault Refusal :=
  issue1 (opTld d t a b g) s
def execTldt (d t : BitVec 4) (a b : BitVec 6) (g : BitVec 4) (s : State) : Host.Outcome State Fault Refusal :=
  issue1 (opTldt d t a b g) s
def execTst (s : BitVec 4) (a b : BitVec 6) (g : BitVec 4) (st : State) : Host.Outcome State Fault Refusal :=
  issue1 (opTst s a b g) st
def execBld (t : BitVec 4) (a b : BitVec 6) (m : BitVec 1) (g : BitVec 4) (s : State) : Host.Outcome State Fault Refusal :=
  issue1 (opBld t a b m g) s
def execRld (c a : BitVec 6) (z : BitVec 3) (i : BitVec 1) (s : BitVec 5) (g : BitVec 4) (st : State) : Host.Outcome State Fault Refusal :=
  issue1 (opRld c a z i s g) st
def execRst (b a : BitVec 6) (z : BitVec 2) (i : BitVec 1) (s : BitVec 5) (g : BitVec 4) (st : State) : Host.Outcome State Fault Refusal :=
  issue1 (opRst b a z i s g) st
def execAmo (d a : BitVec 6) (h : BitVec 5) (t g : BitVec 4) (s : State) : Host.Outcome State Fault Refusal :=
  issue1 (opAmo d a h t g) s
def execAmoF (d a : BitVec 6) (h : BitVec 5) (g : BitVec 4) (s : State) : Host.Outcome State Fault Refusal :=
  issue1 (opAmoF d a h g) s
def execAmoN (d a : BitVec 6) (h : BitVec 5) (g : BitVec 4) (s : State) : Host.Outcome State Fault Refusal :=
  issue1 (opAmoN d a h g) s
def execFence (s : BitVec 3) (g : BitVec 4) (st : State) : Host.Outcome State Fault Refusal := issue1 (opFence s g) st
def execDrain (c : BitVec 2) (g : BitVec 4) (s : State) : Host.Outcome State Fault Refusal := issue1 (opDrain c g) s
def execDrainR (g : BitVec 4) (s : State) : Host.Outcome State Fault Refusal := issue1 (opDrainR g) s
def execBwait (d : BitVec 3) (a b : BitVec 6) (s : BitVec 3) (g : BitVec 4) (st : State) : Host.Outcome State Fault Refusal :=
  issue1 (opBwait d a b s g) st

end Sys2Proof.Machine
end

