-- ==== Sys2Proof/Machine/Operands.lean ====
section
/-! DEFINITION. Vector operands (R204 to R211): the configuration, register groups as numbers, the second operand of the vector
forms, and the write of a destination group under the tail and mask policies. -/
namespace Sys2Proof.Machine

/-- The vector configuration as instructions read it (R204). LMUL is held in eighths. -/
structure VCfg where
  vl : Nat
  sew : Nat
  lm8 : Nat
  vta : Bool
  vma : Bool
  sce : Bool
  sci : Nat
  vill : Bool
  deriving DecidableEq, Repr

/-- LMUL in eighths of a VLMUL code (R204, Table 1). -/
def lm8Of (code : Nat) : Nat := (#[8, 16, 32, 64, 8, 1, 2, 4] : Array Nat).getD code 8

/-- VLMAX of a VTYPE (R205). -/
def vlmaxOf (t : BitVec 32) : Nat := 4096 * lm8Of (fld t 2 3) / (64 * 2 ^ fld t 0 2)

/-- The configuration of a core. -/
def vcfg (c : Core) : VCfg :=
  let t := c.vtype
  { vl := c.vl.toNat, sew := 8 * 2 ^ fld t 0 2, lm8 := lm8Of (fld t 2 3), vta := bit t 5, vma := bit t 6, sce := bit t 7
    sci := fld t 8 6, vill := bit t 31 }

def VCfg.vlmax (v : VCfg) : Nat := 4096 * v.lm8 / (8 * v.sew)
/-- EMUL in eighths at an effective width (R206). -/
def VCfg.em8 (v : VCfg) (eew : Nat) : Nat := eew * v.lm8 / v.sew
/-- Registers of a group (R206). -/
def VCfg.regs (v : VCfg) (eew : Nat) : Nat := Nat.max 1 (v.em8 eew / 8)
/-- NE, the elements of a destination group (R207). -/
def VCfg.ne (v : VCfg) (eew : Nat) : Nat := 4096 * v.regs eew / eew

/-- A grouped operand: register, effective width, and the factor beyond EMUL that its number must be a multiple of. -/
structure VGrp where
  r : Nat
  eew : Nat
  al : Nat := 1
  deriving DecidableEq, Repr

/-- O of R127 over the operands of an instruction. -/
def vOcc (v : VCfg) (gs : List VGrp) : Nat := Nat.max 1 ((gs.map (fun g => v.em8 g.eew)).foldl Nat.max 0 / 2)

/-- A fault of a vector slot. -/
def vFault (slot : Nat) (c : Code) : FaultInfo := { code := c, slot := slot, engine := 3 }

/-- The checks of R211, Table 3. -/
def vCheck (v : VCfg) (slot : Nat) (gs : List VGrp) (need : Bool) : Option FaultInfo :=
  if v.vill ∨ gs.any (fun g => 64 < g.eew || 64 < v.em8 g.eew) ∨ need = false then some (vFault slot .vconfig)
  else if gs.any (fun g => g.r % (v.regs g.eew * g.al) ≠ 0) then some (vFault slot .vreg)
  else none

/-- n registers from r on as one number, register r lowest. -/
def vnum (s : State) (r : Nat) : Nat → Nat
  | 0 => 0
  | n + 1 => (rv s (r % 32)).toNat + 2 ^ 4096 * vnum s (r + 1) n

/-- The group at register r (R206). -/
def vgrp (s : State) (v : VCfg) (r eew : Nat) : Nat := vnum s r (v.regs eew)

/-- Element i of a group. -/
def elN (g eew i : Nat) : Nat := nfld g (i * eew) eew

/-- The second operand of a vector form: a group or one pattern (R206). -/
inductive BSrc where
  | grp (g : Nat)
  | one (x : Nat)

def BSrc.el (b : BSrc) (eew i : Nat) : Nat :=
  match b with
  | .grp g => elN g eew i
  | .one x => x % 2 ^ eew

/-- Field b of form VA by operand kind: vector, scalar, signed or unsigned immediate (R206, R214). -/
def bSrc (s : State) (v : VCfg) (k : Nat) (b : BitVec 6) (eew : Nat) (zimm : Bool) : BSrc :=
  match k with
  | 0 => .grp (vgrp s v (fld b 0 5) eew)
  | 1 => .one (rx6 s b).toNat
  | _ => .one (if zimm then b.toNat else (b.toInt % (2 : Int) ^ eew).toNat)

/-- The group that field b names, if it names one. -/
def bGrp (k : Nat) (b : BitVec 6) (eew : Nat) : List VGrp := if k = 0 then [⟨fld b 0 5, eew, 1⟩] else []

/-- The active elements in ascending order (R207). -/
def actives (s : State) (v : VCfg) (m : Bool) : List Nat :=
  let v0 := rv s 0
  (List.range v.vl).filter (fun i => !m || bit v0 i)

/-- What an instruction writes: (index, pattern) of its results in ascending order, the elements below the tail, its counts
and the lane states it leaves. -/
structure VRes where
  els : List (Nat × Nat)
  vl : Nat
  sat : Nat := 0
  nai : Nat := 0
  lanes : Option Lanes := none

/-- The destination after a write (R207): n elements of width w from index i on; elements without a result below vl follow the
mask policy, those above the tail policy. -/
def vmergeEl (w vl : Nat) (vma vta : Bool) : Nat → Nat → Nat → List (Nat × Nat) → Nat
  | 0, _, _, _ => 0
  | n + 1, i, old, rs =>
    let dflt := if (if i < vl then vma else vta) then 2 ^ w - 1 else old % 2 ^ w
    match rs with
    | (j, x) :: t =>
      if j = i then x % 2 ^ w + 2 ^ w * vmergeEl w vl vma vta n (i + 1) (old / 2 ^ w) t
      else dflt + 2 ^ w * vmergeEl w vl vma vta n (i + 1) (old / 2 ^ w) rs
    | [] => dflt + 2 ^ w * vmergeEl w vl vma vta n (i + 1) (old / 2 ^ w) []

/-- n registers from d on take their parts of a number, with latency bound b. -/
def vput (s : State) (b d n x : Nat) : State :=
  (List.range n).foldl (fun s j => wv s b (d + j) (BitVec.ofNat 4096 (x >>> (4096 * j)))) s

/-- A group written under R207. -/
def vwrite (pre s : State) (v : VCfg) (b d eew : Nat) (r : VRes) : State :=
  vput s b d (v.regs eew) (vmergeEl eew r.vl v.vma v.vta (v.ne eew) 0 (vgrp pre v d eew) r.els)

/-- A mask register written under R207 with EEW 1. -/
def vwriteMask (pre s : State) (v : VCfg) (b d : Nat) (r : VRes) : State :=
  vput s b d 1 (vmergeEl 1 r.vl v.vma v.vta 4096 0 (rv pre d).toNat r.els)

/-- The lane states of a core (R68). -/
def lanesOf (c : Core) : Lanes := ⟨c.lseed, c.lanes⟩
/-- The lane states as a slot of a bundle finds them (R69). -/
def rlanes (s : State) : Lanes := lanesOf (cur s)
def putLanes (s : State) (o : Option Lanes) : State :=
  match o with
  | none => s
  | some l => modCur s (fun c => { c with lanes := l.tab })

/-- Elements of a tensor-class write (R209): exact value and shift of each active element; the element is shifted, clamped to
the destination and counted. -/
def roundEls (w : Nat) (u : Bool) (m : Rnd) : List (Nat × Option Int × Nat) → Lanes → VRes → VRes
  | [], L, r => { r with els := r.els.reverse, lanes := if m = .sr then some L else none }
  | (i, none, _) :: t, L, r =>
    roundEls w u m t (laneAdv m L (i % 128)) { r with els := (i, naiCode w u) :: r.els, nai := r.nai + 1 }
  | (i, some x, k) :: t, L, r =>
    let y := shrL x k m (i % 128) L
    let c := clampE w u y.1
    roundEls w u m t y.2 { r with els := (i, encE w u (some c)) :: r.els, sat := r.sat + b2n (decide (c ≠ y.1)) }

/-- The shape of an instruction that writes one vector group: its checks, timing, counting and write. -/
structure VShape where
  slot : Nat
  g : BitVec 4
  legal : Bool := true
  gs : VCfg → List VGrp
  need : VCfg → Bool := fun _ => true
  /-- Tensor class without a scale register: counts under R210. -/
  counts : Bool := false
  occ : Option Nat := none
  bound : Nat → Nat
  run : State → VCfg → Lanes → VRes
  write : State → State → VCfg → Nat → VRes → State

/-- The slot operation of a shape. -/
def VShape.op (h : VShape) : SlotOp :=
  let cfg := fun (s : State) => vcfg (cur s)
  let oc := fun (s : State) => h.occ.getD (vOcc (cfg s) (h.gs (cfg s)))
  { slot := h.slot, guard := h.g, legal := fun _ => h.legal, occ := oc
    res := fun s => if h.counts && (cfg s).sce then [.sc (cfg s).sci] else []
    check := fun s _ => vCheck (cfg s) h.slot (h.gs (cfg s)) (h.need (cfg s))
    effu := fun pre s =>
      let v := cfg pre
      if v.vl = 0 then (s, []) else
      let r := h.run pre v (rlanes s)
      let b := h.bound (oc pre)
      (putLanes (h.write pre s v b r) r.lanes,
        if h.counts && v.sce then [{ sc := v.sci, bound := b, addS := r.sat, addP := r.nai }] else []) }

end Sys2Proof.Machine
end

