-- ==== Sys2Proof/Machine/Queue.lean ====
section
/-! DEFINITION. The format-converting queues (R252 to R257): element codes, pushes, pops and their conversion. -/
namespace Sys2Proof.Machine

/-- Width and signedness of an element code (R252): 32 and 33 are the 32-bit codes. -/
def ecW (ec : Nat) : Nat := if ec ≥ 32 then 32 else fmtW ec
def ecU (ec : Nat) : Bool := if ec ≥ 32 then ec = 33 else fmtU ec

/-- Fields of QSRC and QSNK (Table 15). -/
def Queue.srcEc (q : Queue) : Nat := fld q.src 0 6
def Queue.prod (q : Queue) : Nat := fld q.src 6 3
def Queue.snkEc (q : Queue) : Nat := fld q.snk 0 6
def Queue.cons (q : Queue) : Nat := fld q.snk 6 3
def Queue.rnd (q : Queue) : Nat := fld q.snk 9 2
def Queue.sh (q : Queue) : Int := sextI (fld q.snk 11 6) 6
def Queue.cnt (q : Queue) : Bool := bit q.snk 17
def Queue.sci (q : Queue) : Nat := fld q.snk 18 6

/-- Elements of one source entry and of one sink entry (R254). -/
def Queue.inPer (q : Queue) : Nat := 1024 / ecW q.srcEc
def Queue.outPer (q : Queue) : Nat := 1024 / ecW q.snkEc

/-- Unpopped elements (R257). -/
def Queue.elems (q : Queue) : Nat := q.ents.length * q.inPer - q.pos

/-- Queue n of a core. -/
def queueOf (c : Core) (n : Nat) : Queue := tget {} c.q n
def setQueue (c : Core) (n : Nat) (q : Queue) : Core := { c with q := tset {} c.q n q }

/-- Source entries pushed in order (R254). -/
def Queue.push (q : Queue) (es : List Line) : Queue := { q with ents := q.ents ++ es }

/-- The next k elements of the stream, from element p of the head on. -/
def takeEls (per w : Nat) : Nat → Nat → List Line → List Nat
  | 0, _, _ => []
  | _, _, [] => []
  | k + 1, p, e :: t =>
    if p + 1 < per then elemAt e w p :: takeEls per w k (p + 1) (e :: t)
    else elemAt e w p :: takeEls per w k 0 t

/-- The queue after k elements have been taken (R254): an entry is freed when its last element has gone. -/
def Queue.advance (q : Queue) (k : Nat) : Queue :=
  let n := q.pos + k
  { q with ents := q.ents.drop (n / q.inPer), pos := n % q.inPer }

/-- The conversion of one element (R254). -/
def convEl (q : Queue) (lane : Nat) (c : Nat) (L : Lanes) : OutE × Lanes :=
  let w := ecW q.snkEc
  let u := ecU q.snkEc
  let m := rndOf q.rnd
  match decE (ecW q.srcEc) (ecU q.srcEc) c with
  | none => (⟨naiCode w u, false, true⟩, if q.sh ≥ 0 then laneAdv m L lane else L)
  | some v =>
    let y := if q.sh ≥ 0 then shrL v q.sh.toNat m lane L else (v * (2 : Int) ^ (-q.sh).toNat, L)
    let k := clampE w u y.1
    (⟨encE w u (some k), decide (k ≠ y.1), false⟩, y.2)

/-- The conversion of the elements of one pop, lanes from `lane` on. -/
def convEls (q : Queue) : Nat → List Nat → Lanes → List OutE × Lanes
  | _, [], L => ([], L)
  | lane, c :: t, L =>
    let r := convEl q (lane % 128) c L
    let k := convEls q (lane + 1) t r.2
    (r.1 :: k.1, k.2)

/-- One pop: a sink entry, the elements written, the queue and the lane states after it. -/
def Queue.pop (q : Queue) (L : Lanes) : Line × List OutE × Queue × Lanes :=
  let k := q.outPer
  let r := convEls q 0 (takeEls q.inPer (ecW q.srcEc) k (q.pos % q.inPer) (q.ents.drop (q.pos / q.inPer))) L
  (BitVec.ofNat 1024 (packE (ecW q.snkEc) (r.1.map (·.code))), r.1, q.advance k, r.2)

/-- n pops in a row. -/
def Queue.pops (q : Queue) : Nat → Lanes → List Line × List OutE × Queue × Lanes
  | 0, L => ([], [], q, L)
  | n + 1, L =>
    let r := q.pop L
    let k := Queue.pops r.2.2.1 n r.2.2.2
    (r.1 :: k.1, r.2.1 ++ k.2.1, k.2.2)

end Sys2Proof.Machine
end

