-- ==== Sys2Proof/Machine/Matrix.lean ====
section
/-! DEFINITION. The X slot (chapter 09): accumulator banks, matrix products, read-out, tile moves and smoothing. -/
namespace Sys2Proof.Machine

/-! ## Accumulator banks (R234, R235) -/

/-- A fault of the X slot. -/
def xFault (c : Code) (a : Word := 0) : FaultInfo := { code := c, slot := 6, engine := 4, addr := a }

/-- Banks b to b + n - 1 exist and are allocated. -/
def banksOk (c : Core) (b n : Nat) : Bool := b + n ≤ 128 && (List.range n).all (fun i => bit c.accAl (b + i))

/-- The bank resources of a range. -/
def bankRes (b n : Nat) : List Res := (List.range n).map (fun i => .bank (b + i))

/-- The least power of two not below n, at most 32. -/
def allocAlign (n : Nat) : Nat := ([1, 2, 4, 8, 16].find? (fun p => n ≤ p)).getD 32

/-- The base that `aalloc` finds (R235). -/
def allocBase (c : Core) (n : Nat) : Option Nat :=
  (List.range 128).find? (fun a => a % allocAlign n = 0 && decide (a + n ≤ 128) &&
    (List.range n).all (fun i => !bit c.accAl (a + i)))

/-- Busy marks in wall ccy (R239). -/
def busyFor (s : State) (rs : List Res) (n : Nat) (mm : Bool := false) : State :=
  modCur s (fun c => { c with busy := c.busy ++ rs.map (fun r => { res := r, wall := c.wtime + n, mm := mm }) })

def opAalloc (d : BitVec 6) (n : BitVec 7) (g : BitVec 4) : SlotOp :=
  let n := n.toNat + 1
  { slot := 6, guard := g
    check := fun s _ => if (allocBase (cur s) n).isNone then some (xFault .accfull) else none
    eff := fun pre s =>
      match allocBase (cur pre) n with
      | none => s
      | some a =>
        wx (modCur s (fun c =>
          (List.range n).foldl (fun c i =>
            { c with
              accAl := setFld c.accAl (a + i) 1 1
              acc := tset 0 c.acc (a + i) (BitVec.ofNat 16384 (freeN pre (200 + a + i))) }) c)) 2 d.toNat (BitVec.ofNat 64 a) }

def opAfree (b n : BitVec 7) (g : BitVec 4) : SlotOp :=
  let n := n.toNat + 1
  { slot := 6, guard := g, res := fun _ => bankRes b.toNat n
    check := fun s _ => if banksOk (cur s) b.toNat n then none else some (xFault .accfree)
    eff := fun _ s => modCur s (fun c =>
      { c with accAl := (List.range n).foldl (fun m i => setFld m (b.toNat + i) 1 0) c.accAl }) }

def opAzero (b n : BitVec 7) (g : BitVec 4) : SlotOp :=
  let n := n.toNat + 1
  { slot := 6, guard := g, res := fun _ => bankRes b.toNat n
    check := fun s _ => if banksOk (cur s) b.toNat n then none else some (xFault .accbank)
    eff := fun _ s => busyFor (modCur s (fun c =>
      { c with acc := (List.range n).foldl (fun t i => tdel t (b.toNat + i)) c.acc })) (bankRes b.toNat n) 2 }

/-! ## Matrix products (R232, R233, R236 to R239) -/

/-- Fields of the gang word (Table 4). -/
def gAcc (x : Word) : Nat := fld x 0 7
def gFa (x : Word) : Nat := fld x 7 5
def gFb (x : Word) : Nat := fld x 12 5

/-- A row of the A tile as values (R232). -/
def rowVals (t : Tile) (f m kt : Nat) : List (Option Int) :=
  let r := tileRow t m
  (List.range kt).map (fun k => decE (fmtW f) (fmtU f) (elemAt r (fmtW f) k))

/-- The column string of column n of a B tile, K-rows from r on (R232). -/
def colStr (t : Tile) (n : Nat) : Nat → Nat → Nat
  | _, 0 => 0
  | r, j + 1 => fld t (1024 * r + 8 * n) 8 + 256 * colStr t n (r + 1) j

/-- Column n of B as values. -/
def colVals (t : Tile) (f n kt : Nat) : List (Option Int) :=
  let c := colStr t n 0 128
  (List.range kt).map (fun k => decE (fmtW f) (fmtU f) (nfld c (k * fmtW f) (fmtW f)))

/-- One K-block: T and whether a NaI stands in it; `sh` the shifts (R237). -/
def blockSum : List (Option Int × Option Int × Int) → Int × Bool
  | [] => (0, false)
  | (some a, some b, sh) :: t =>
    let r := blockSum t
    (r.1 + a * b * (2 : Int) ^ (8 - sh).toNat, r.2)
  | _ :: t => ((blockSum t).1, true)

/-- The K-blocks in order: the sum, NaI, and whether a block clamped (R237). -/
def mmaBlocks : Nat → List (Option Int × Option Int × Int) → Int → Bool → Bool → Int × Bool × Bool
  | 0, _, c, nai, cl => (c, nai, cl)
  | n + 1, ps, c, nai, cl =>
    let b := blockSum (ps.take 128)
    let nai := nai || b.2
    let y := c + shrP b.1 8 .rne
    let z := sat y 32
    if nai then mmaBlocks n (ps.drop 128) c true cl
    else mmaBlocks n (ps.drop 128) z false (cl || decide (z ≠ y))

/-- One element of a matrix product on the old INT32 pattern (R237); `z` replaces. -/
def mmaEl (z : Bool) (kt old : Nat) (as bs : List (Option Int)) (sh : List Int) : OutE :=
  let start := if z then 0 else sextI old 32
  let nai := !z && old = 0x80000000
  let r := mmaBlocks ((kt + 127) / 128) (as.zip (bs.zip sh)) start nai false
  ⟨if r.2.1 then 0x80000000 else (r.1 % (2 : Int) ^ 32).toNat, r.2.2, r.2.1⟩

/-- The smoothing shifts of the K-rows (R243). -/
def smShifts (v : BitVec 512) (on : Bool) (kt : Nat) : List Int :=
  (List.range kt).map (fun k => if on then sextI (fld v (4 * k) 4) 4 else 0)

/-- The INT32 pattern of C[m, n] (R234). -/
def accEl (c : Core) (b m n : Nat) : Nat := fld (tget 0 c.acc (b + m / 4)) (32 * (m % 4 * 128 + n)) 32

/-- Counts of matrix instructions (R246, Table 12). -/
def mxCount (x : Word) (cl na : Nat) : Word :=
  setFld (setFld x 0 32 (Nat.min (fld x 0 32 + cl) (2 ^ 32 - 1))) 32 32 (Nat.min (fld x 32 32 + na) (2 ^ 32 - 1))

/-- The product of rows lo to lo + cnt - 1, into the C tile at bank b. -/
def mmaRows (c : Core) (z : Bool) (b lo cnt fa fb : Nat) (ta tb : Tile) (sh : List Int) : Core :=
  let kt := passK (fmtW fa) (fmtW fb)
  let cols := (List.range 128).map (fun n => colVals tb fb n kt)
  (List.range cnt).foldl (fun c i =>
    let m := lo + i
    let as := rowVals ta fa m kt
    let es := cols.zipIdx.map (fun e => mmaEl z kt (accEl c b m e.2) as e.1 sh)
    let bank := b + m / 4
    { c with
      acc := tset 0 c.acc bank (setFld (tget 0 c.acc bank) (4096 * (m % 4)) 4096 (packE 32 (es.map (·.code))))
      mxstat := mxCount c.mxstat (es.countP (·.clamped)) (es.countP (·.nai)) }) c

/-- The faults of Table 5. -/
def mmaCheck (s : State) (x : Word) (sm : Bool) : Option FaultInfo :=
  if fld x 17 47 ≠ 0 ∨ gAcc x > 96 then some (xFault .mmaarg x)
  else if fmtB (gFa x) ∨ fmtB (gFb x) then some (xFault .mmafmt x)
  else if banksOk (cur s) (gAcc x) 32 = false then some (xFault .accbank x)
  else if sm ∧ (smValid (cur s) = false ∨ fmtW (gFb x) ≠ 8) then some (xFault .tilearg x)
  else none

/-- Banks of the C tile as resources. -/
def cTile (x : Word) : List Res := bankRes (gAcc x) (Nat.min 32 (128 - gAcc x))

def gangP (x : Word) : Nat := passP (fmtW (gFa x)) (fmtW (gFb x))
def gangS (x : Word) : Nat := slices (fmtW (gFa x)) (fmtW (gFb x))
def gangCost (x : Word) : Nat := passK (fmtW (gFa x)) (fmtW (gFb x)) * gangS x

/-- `mma` and `mmaz` (R237). -/
def opMm (z : Bool) (a : BitVec 4) (bt x : BitVec 6) (m : BitVec 1) (g : BitVec 4) : SlotOp :=
  { slot := 6, guard := g, mm := true, occ := fun s => gangP (rx6 s x)
    res := fun s => [.tile a.toNat, .btile bt.toNat] ++ cTile (rx6 s x)
    check := fun s _ => mmaCheck s (rx6 s x) (m = 1)
    cost := fun s => some (gangCost (rx6 s x), gangS (rx6 s x))
    eff := fun pre s =>
      let w := rx6 pre x
      let kt := passK (fmtW (gFa w)) (fmtW (gFb w))
      let s := modCur s (fun c => mmaRows c z (gAcc w) 0 128 (gFa w) (gFb w) (tget 0 (cur pre).t a.toNat)
        (tget 0 (cur pre).bt bt.toNat) (smShifts (rsm pre) (m = 1) kt))
      busyFor (busyFor s [.tile a.toNat, .btile bt.toNat] (gangP w)) (cTile w) (gangP w + 4) true }

def opMma (a : BitVec 4) (t x : BitVec 6) (m : BitVec 1) (g : BitVec 4) : SlotOp := opMm false a t x m g
def opMmaz (a : BitVec 4) (t x : BitVec 6) (m : BitVec 1) (g : BitVec 4) : SlotOp := opMm true a t x m g

/-- The groups of `mmag` with rows: number, first row, rows (R238). -/
def ragGroups (rc : Word) : List (Nat × Nat × Nat) :=
  let n := fun j => fld rc (8 * j) 8
  ((List.range 8).map (fun j => (j, ((List.range j).map n).sum, n j))).filter (fun e => e.2.2 ≠ 0)

def opMmag (a : BitVec 4) (t x : BitVec 6) (m : BitVec 1) (g : BitVec 4) : SlotOp :=
  let rc := fun (s : State) => rx6 s (x + 1)
  let bts := fun (s : State) => (ragGroups (rc s)).map (fun e => Res.btile (t.toNat + e.1))
  let n := fun (s : State) => (ragGroups (rc s)).length
  { slot := 6, guard := g, mm := true, legal := fun _ => x.toNat % 2 = 0
    occ := fun s => Nat.max 1 (n s * gangP (rx6 s x))
    res := fun s => [.tile a.toNat] ++ bts s ++ cTile (rx6 s x)
    check := fun s _ => match mmaCheck s (rx6 s x) (m = 1) with
      | some i => some i
      | none =>
        if ((List.range 8).map (fun j => fld (rc s) (8 * j) 8)).sum > 128 then some (xFault .ragged (rc s))
        else if (ragGroups (rc s)).any (fun e => t.toNat + e.1 > 63) then some (xFault .mmaarg (rx6 s x))
        else none
    cost := fun s => some (n s * gangCost (rx6 s x), gangS (rx6 s x))
    eff := fun pre s =>
      let w := rx6 pre x
      let kt := passK (fmtW (gFa w)) (fmtW (gFb w))
      let sh := smShifts (rsm pre) (m = 1) kt
      let s := modCur s (fun c => (ragGroups (rc pre)).foldl (fun c e =>
        mmaRows c false (gAcc w) e.2.1 e.2.2 (gFa w) (gFb w) (tget 0 (cur pre).t a.toNat)
          (tget 0 (cur pre).bt (t.toNat + e.1)) sh) c)
      if n pre = 0 then s
      else busyFor (busyFor s ([.tile a.toNat] ++ bts pre) (n pre * gangP w)) (cTile w) (n pre * gangP w + 4) true }

/-! ## Read-out and tile moves (R240 to R242) -/

/-- The C tile at bank b as values with their lanes, in ascending index (R240). -/
def accVals (c : Core) (b : Nat) : List (Nat × Option Int) :=
  ((List.range 128).map (fun m => (List.range 128).map (fun n => (n, decE 32 false (accEl c b m n))))).flatten

/-- Rows of packed codes as a tile: `per` elements of width w a row (R57, R240). -/
def packRows (w per : Nat) : Nat → List Nat → Nat
  | 0, _ => 0
  | n + 1, cs => packE w (cs.take per) % 2 ^ 1024 + 2 ^ 1024 * packRows w per n (cs.drop per)

/-- Every second run of 64 elements of a list, from the first or the second on. -/
def halves : Nat → Bool → List Nat → List Nat
  | 0, _, _ => []
  | n + 1, hi, cs => (if hi then (cs.drop 64).take 64 else cs.take 64) ++ halves n hi (cs.drop 128)

/-- The write-back of `aout` (R240). -/
def aoutRes (s : State) (pre : State) (b p : Nat) (r : Rnd) : ScRes :=
  let f := scFmt (rsc pre (2 * p))
  scWrite (rsc pre (2 * p)) (fmtW f) (fmtU f) r (scExp (rsc pre (2 * p + 1))) none (accVals (cur pre) b) (rlanes s)

/-- Tiles that `aout` writes: one, or two when the width is above 8. -/
def aoutTiles (s : State) (d p : Nat) : List Nat := if fmtW (scFmt (rsc s (2 * p))) > 8 then [d, d + 1] else [d]

def opAout (d : BitVec 4) (b : BitVec 7) (p : BitVec 5) (r : BitVec 2) (z : BitVec 1) (g : BitVec 4) : SlotOp :=
  let n := 2 * p.toNat
  let ts := fun s => aoutTiles s d.toNat p.toNat
  let oc := fun (s : State) => if scCenv (rsc s n) then 32 else 64
  let banks := bankRes b.toNat (Nat.min 32 (128 - b.toNat))
  { slot := 6, guard := g, occ := oc
    res := fun s => banks ++ (ts s).map (fun t => .tile t) ++ [.sc n, .sc (n + 1)]
    check := fun s _ =>
      if banksOk (cur s) b.toNat 32 = false then some (xFault .accbank)
      else if fmtB (scFmt (rsc s n)) then some (xFault .scfmt)
      else if (ts s).length = 2 ∧ d.toNat % 2 = 1 then some (xFault .tilearg)
      else none
    effu := fun pre s =>
      let k := aoutRes s pre b.toNat p.toNat (rndOf r.toNat)
      let cs := k.outs.map (·.code)
      let w := fmtW (scFmt (rsc pre n))
      let c0 := cur s
      let c1 := if w > 8 then
          let lo := tset 0 c0.t d.toNat (BitVec.ofNat 131072 (packRows w 64 128 (halves 128 false cs)))
          { c0 with t := tset 0 lo (d.toNat + 1) (BitVec.ofNat 131072 (packRows w 64 128 (halves 128 true cs))) }
        else { c0 with t := tset 0 c0.t d.toNat (BitVec.ofNat 131072 (packRows w 128 128 cs)) }
      let c2 := if z = 1 then { c1 with acc := (List.range 32).foldl (fun t i => tdel t (b.toNat + i)) c1.acc } else c1
      let s := putLanes (setCur s c2) (some k.lanes)
      (busyFor (busyFor s banks (oc pre)) ((ts pre).map (fun t => .tile t) ++ [.sc n]) (oc pre + 4),
        [{ sc := n, exp := some (k.exp % 256).toNat, cen := k.cen.map (fun c => (c, true))
           addS := k.outs.countP (·.clamped), addP := k.outs.countP (·.nai) }]) }

def opAoutq (q : BitVec 4) (b r : BitVec 7) (z : BitVec 1) (g : BitVec 4) : SlotOp :=
  let banks := bankRes b.toNat (Nat.min 32 (128 - b.toNat))
  { slot := 6, guard := g, occ := fun _ => 4, res := fun _ => banks
    admits := fun s => (queueOf (cur s) q.toNat).ents.length + 4 ≤ 16
    check := fun s _ =>
      if banksOk (cur s) b.toNat 32 = false then some (xFault .accbank)
      else if (queueOf (cur s) q.toNat).srcEc ≠ 32 ∨ (queueOf (cur s) q.toNat).prod ≠ 1 then some (xFault .qbind)
      else none
    eff := fun pre s =>
      let bank := b.toNat + r.toNat / 4
      let lo := 4096 * (r.toNat % 4)
      let v := tget 0 (cur pre).acc bank
      let es := (List.range 4).map (fun k => v.extractLsb' (lo + 1024 * k) 1024)
      let s := modCur s (fun c => setQueue c q.toNat ((queueOf c q.toNat).push es))
      let s := if z = 1 then modCur s (fun c => { c with acc := tset 0 c.acc bank (setFld (tget 0 c.acc bank) lo 4096 0) })
        else s
      busyFor s banks 4 }

def opTzero (d : BitVec 4) (g : BitVec 4) : SlotOp :=
  { slot := 6, guard := g, occ := fun _ => 8, res := fun _ => [.tile d.toNat]
    eff := fun _ s => busyFor (modCur s (fun c => { c with t := tdel c.t d.toNat })) [.tile d.toNat] 8 }

def opTmov (d x g : BitVec 4) : SlotOp :=
  { slot := 6, guard := g, occ := fun _ => 8, res := fun _ => [.tile d.toNat, .tile x.toNat]
    eff := fun pre s => busyFor (modCur s (fun c => { c with t := tset 0 c.t d.toNat (tget 0 (cur pre).t x.toNat) }))
      [.tile d.toNat, .tile x.toNat] 8 }

/-! ## Smoothing (R243) -/

/-- The address check of `smset`: 64 bytes in space 0x1. -/
def smCheck (s : State) (a : Word) : Except WFail Where :=
  if spaceOk s (cur s).ctx a = false ∨ spc a ≠ 1 then .error ⟨.addrspace, 0, 0⟩ else chk s a 64 64 false

/-- `smset`: SMADDR and SMSTAT at once, the vector from its bound of 4 on, read at issue. Where an earlier slot of the bundle holds its read
(R101, R103, R105, R106), the vector comes when the read has performed, not before c + 4 (log entry 48). -/
def opSmset (a : BitVec 6) (f : BitVec 5) (g : BitVec 4) : SlotOp :=
  { slot := 6, guard := g, reqs := fun _ => (1, 0), admits := fun s => ownFree s (rx6 s a)
    check := fun s _ => match smCheck s (rx6 s a) with
      | .error e => some (addrFault 6 4 0 (rx6 s a) e)
      | .ok _ => if f = 5 ∨ f = 13 then none else some (xFault .tilearg (rx6 s a))
    eff := fun pre s =>
      let l := locOf pre (rx6 pre a) 64 false
      let s := modCur s (fun c => { c with smaddr := rx6 pre a, smstat := BitVec.ofNat 64 (f.toNat * 2 ^ 16 + 2 ^ 21) })
      if heldOwn pre s 6 = false ∧ errIn pre l 64 = none then
        modCur (softTouch s l 64) (fun c => putAt c 4 (.sm (BitVec.ofNat 512 (rd pre l 64))))
      else
        let e := newId s
        let r := { newReq pre e.2 .load (rx6 pre a) (.loc l) 64 (rslk pre) 6 with dst := .land e.1 0 }
        addLand (putReq e.2 r) { id := e.1, at_ := (cur pre).ctime + 4, dst := .smooth, parts := [⟨r.id, none⟩], room := 0 } }
def opSmclr (g : BitVec 4) : SlotOp :=
  { slot := 6, guard := g, eff := fun _ s => modCur s (fun c => { c with smstat := setFld c.smstat 21 1 0 }) }

/-! ## Meanings -/

def execAalloc (d : BitVec 6) (n : BitVec 7) (g : BitVec 4) (s : State) : Host.Outcome State Fault Refusal :=
  issue1 (opAalloc d n g) s
def execAfree (b n : BitVec 7) (g : BitVec 4) (s : State) : Host.Outcome State Fault Refusal := issue1 (opAfree b n g) s
def execMma (a : BitVec 4) (t x : BitVec 6) (m : BitVec 1) (g : BitVec 4) (s : State) : Host.Outcome State Fault Refusal :=
  issue1 (opMma a t x m g) s
def execMmaz (a : BitVec 4) (t x : BitVec 6) (m : BitVec 1) (g : BitVec 4) (s : State) : Host.Outcome State Fault Refusal :=
  issue1 (opMmaz a t x m g) s
def execMmag (a : BitVec 4) (t x : BitVec 6) (m : BitVec 1) (g : BitVec 4) (s : State) : Host.Outcome State Fault Refusal :=
  issue1 (opMmag a t x m g) s
def execAout (d : BitVec 4) (b : BitVec 7) (s : BitVec 5) (r : BitVec 2) (z : BitVec 1) (g : BitVec 4) (st : State) : Host.Outcome State Fault Refusal :=
  issue1 (opAout d b s r z g) st
def execAoutq (q : BitVec 4) (b r : BitVec 7) (z : BitVec 1) (g : BitVec 4) (s : State) : Host.Outcome State Fault Refusal :=
  issue1 (opAoutq q b r z g) s
def execAzero (b n : BitVec 7) (g : BitVec 4) (s : State) : Host.Outcome State Fault Refusal := issue1 (opAzero b n g) s
def execTzero (d g : BitVec 4) (s : State) : Host.Outcome State Fault Refusal := issue1 (opTzero d g) s
def execTmov (d s g : BitVec 4) (st : State) : Host.Outcome State Fault Refusal := issue1 (opTmov d s g) st
def execSmset (a : BitVec 6) (f : BitVec 5) (g : BitVec 4) (s : State) : Host.Outcome State Fault Refusal :=
  issue1 (opSmset a f g) s
def execSmclr (g : BitVec 4) (s : State) : Host.Outcome State Fault Refusal := issue1 (opSmclr g) s

end Sys2Proof.Machine
end

