-- ==== Sys2Proof/Machine/Engine.lean ====
section
/-! DEFINITION. The E slot (chapter 09): copy channels, queues, scale registers, events, group barriers, slack and status reads;
and the steps of the copy generators. -/
namespace Sys2Proof.Machine

/-- A fault of the E slot. -/
def eFault (c : Code) (a : Word := 0) : FaultInfo := { code := c, slot := 7, engine := 5, addr := a, space := spc a }

/-! ## Copy programs (R247 to R251) -/

def pBytes (f : Tab Word) : Nat := fld (pf f 2) 0 13
def pSqe (f : Tab Word) : Bool := bit (pf f 3) 13
def pSq (f : Tab Word) : Nat := fld (pf f 3) 14 4
def pDqe (f : Tab Word) : Bool := bit (pf f 3) 18
def pDq (f : Tab Word) : Nat := fld (pf f 3) 19 4

/-- The address of copy i from base field b with the strides at field o of each level (R249): level 0 fastest. -/
def pAddr (f : Tab Word) (b o : Nat) : Nat → Nat → Nat → Word
  | 0, _, _ => pf f b
  | n + 1, l, i =>
    let k := pCount f l
    BitVec.ofNat 64 (i % k) * pf f (8 + o + 3 * l) + pAddr f b o n (l + 1) (i / k)

def pSrc (f : Tab Word) (i : Nat) : Word := pAddr f 0 1 6 0 i
def pDst (f : Tab Word) (i : Nat) : Word := pAddr f 1 2 6 0 i

/-- The pieces of n bytes from `a` on that each lie in one 64 KiB page of space 0x0; other spaces take one piece. -/
def pieces (a : Word) (n : Nat) : List (Word × Nat) :=
  if spc a = 0 then
    let r := 65536 - a.toNat % 65536
    if n ≤ r then [(a, n)] else [(a, r), (a + BitVec.ofNat 64 r, n - r)]
  else [(a, n)]

/-- A probe that fails: address, failure, whether it was a write, and the pages that it has touched, the failing one among them (R250). -/
structure ProbeFail where
  addr : Word
  fail : WFail
  write : Bool
  pages : Tab Nat

/-- The checks of one range of a program, and the translations it finds: (64 KiB page, its physical base + 1) (R250). -/
def rangeProbe (s : State) (write : Bool) : List (Word × Nat) → Tab Nat → Except ProbeFail (Tab Nat)
  | [], m => .ok m
  | (a, n) :: t, m =>
    match chk s a n 1 write with
    | .error f => .error ⟨a, f, write, if spc a = 0 && spaceOk s (cur s).ctx a then tset 0 m (fld a 16 32) 1 else m⟩
    | .ok (.loc l) =>
      rangeProbe s write t (if spc a = 0 then tset 0 m (fld a 16 32) (l - a.toNat % 65536 + 1) else m)
    | .ok .far => if 2 ^ 48 < fld a 0 48 + n then .error ⟨a, ⟨.addrspace, 0, 0⟩, write, m⟩ else rangeProbe s write t m

/-- The probe of the copies from i on, in emission order (R250). -/
def probe (s : State) (f : Tab Word) : Nat → Nat → Tab Nat → Except ProbeFail (Tab Nat)
  | 0, _, m => .ok m
  | n + 1, i, m =>
    let src := if pSqe f then .ok m else rangeProbe s false (pieces (pSrc f i) (pBytes f)) m
    match src with
    | .error e => .error e
    | .ok m =>
      let dst := if pDqe f then .ok m else rangeProbe s true (pieces (pDst f i) (pBytes f)) m
      match dst with
      | .error e => .error e
      | .ok m => probe s f n (i + 1) m

/-- Reserved fields and shapes of a program (R250): what faults ECFG. -/
def progBad (f : Tab Word) : Bool :=
  fld (pf f 2) 13 51 ≠ 0 || pBytes f = 0 || 4096 < pBytes f || fld (pf f 3) 23 41 ≠ 0 || (pSqe f && pDqe f) ||
    ((pSqe f || pDqe f) && pBytes f ≠ 128) || (List.range 6).any (fun l => fld (pf f (8 + 3 * l)) 32 32 ≠ 0)

/-- Channel c of a core. -/
def chanOf (c : Core) (n : Nat) : Channel := tget {} c.ch n
def setChan (c : Core) (n : Nat) (x : Channel) : Core := { c with ch := tset {} c.ch n x }

/-- JOIN of a program as a FRAME in space 0x6 (R28, R247). -/
def pJoin (s : State) (f : Tab Word) : Word := frameCanon s.cur (pf f 4)

/-- The checks of `ego` before its probe (R250). -/
def egoPre (s : State) (c : Nat) : Option FaultInfo :=
  let f := (chanOf (cur s) c).shadow
  if progBad f then some (eFault .ecfg)
  else if (pSqe f && (queueOf (cur s) (pSq f)).cons ≠ c + 2) || (pDqe f && (queueOf (cur s) (pDq f)).prod ≠ c + 2)
    then some (eFault .qbind)
  else if pf f 4 ≠ 0 ∧ frameOk (entNow s (cur s)) (dieOf s.cur) (pJoin s f) = false then some (eFault .framebad (pf f 4))
  else none

/-- The checks of `ego` (R250). -/
def egoCheck (s : State) (c : Nat) : Option FaultInfo :=
  let f := (chanOf (cur s) c).shadow
  match egoPre s c with
  | some i => some i
  | none => match probe s f (pTotal f) 0 [] with
    | .ok _ => none
    | .error e => some (addrFault 7 5 (b2n e.write) e.addr e.fail)

/-- The least ccy of the probe of `ego`: one for each distinct space 0x0 page that it touches, at the size of the leaf that maps it, the page at
which it fails among them (R250). -/
def egoPages (s : State) (c : Nat) : Nat :=
  let f := (chanOf (cur s) c).shadow
  let root := entD (cur s) 5
  let count := fun (m : Tab Nat) =>
    ((m.map (fun e => match xlOf s s.cur (cur s).ctx root (e.1 * 65536) with
      | .ok x => let z := if contHolds s root (e.1 * 65536) x then 2 ^ 21 else x.size; (e.1 * 65536 / z, z)
      | .error _ => (e.1, 65536))).dedup).length
  match egoPre s c, probe s f (pTotal f) 0 [] with
  | some _, _ => 0
  | none, .ok m => count m
  | none, .error e => count e.pages

/-- The program that `ego` hands over (R250), under the name `id`. -/
def egoProg (s : State) (c id : Nat) : CopyProg :=
  let f := (chanOf (cur s) c).shadow
  { id := id, chan := c, f := f, slack := if bit (pf f 3) 12 then fld (pf f 3) 0 12 else rslk s, gen := (ctx s (cur s).ctx).gen
    ltag := (cur s).ltag, ctx := (cur s).ctx, frame := (cur s).trec.w1, off := repOff s (cur s), prio := (cur s).trec.prio
    map := match probe s f (pTotal f) 0 [] with
      | .ok m => m
      | .error _ => [] }

def opEcfg (c : BitVec 2) (f a : BitVec 6) (g : BitVec 4) : SlotOp :=
  { slot := 7, guard := g, legal := fun _ => f.toNat ≤ 4 || (8 ≤ f.toNat && f.toNat ≤ 25)
    eff := fun pre s => modCur s (fun k =>
      let x := chanOf k c.toNat
      setChan k c.toNat { x with shadow := tset 0 x.shadow f.toNat (rx6 pre a) }) }

/-- JOIN of the shadow program names the task's own frame (R36). -/
def egoOwn (s : State) (c : Nat) : Bool :=
  let f := (chanOf (cur s) c).shadow
  pf f 4 ≠ 0 && pJoin s f = (cur s).trec.w1

def opEgo (c : BitVec 2) (g : BitVec 4) : SlotOp :=
  { slot := 7, guard := g
    reqs := fun s => (b2n (egoOwn s c.toNat), 0)
    probe := fun s => egoPages s c.toNat
    admits := fun s => (chanOf (cur s) c.toNat).pend.isNone &&
      !s.reqs.any (fun r => r.core = s.cur && r.acq && r.stage = .out)
    check := fun s _ => egoCheck s c.toNat
    issued := fun s => b2n (egoOwn s c.toNat)
    commits := fun s => pf (chanOf (cur s) c.toNat).shadow 4 ≠ 0
    eff := fun pre s =>
      let n := newId s
      modCur n.2 (fun k =>
      let x := chanOf k c.toNat
      let p := egoProg pre c.toNat n.1
      setChan k c.toNat (if x.live.isNone then { x with live := some p, done := 0 } else { x with pend := some p })) }

def opEstat (d : BitVec 6) (c : BitVec 2) (g : BitVec 4) : SlotOp :=
  { slot := 7, guard := g, eff := fun pre s => wx s 2 d.toNat (estatWord (chanOf (cur pre) c.toNat)) }

/-! ## Steps of the generators (R106, R251, R255, R256) -/

/-- Bytes of a range as the generator of core k reads them: through the probe's translations in space 0x0, free values for another
package, a walk on this package for its own coordinates. `none`: a translation fails. -/
def copyLoc (s : State) (k : Nat) (p : CopyProg) (a : Word) (write : Bool) : Except WFail (Option Nat) :=
  match spc a with
  | 0 =>
    let b := tget 0 p.map (fld a 16 32)
    if b = 0 then .error ⟨.pgnp, 1, 0⟩ else .ok (some (b - 1 + a.toNat % 65536))
  | 5 =>
    if offPackage s p.ctx a then .ok none
    else match asidCtx s (fld (ctxD s p.ctx 0) 0 16) with
      | none => .error ⟨.pgnp, 3, 0⟩
      | some n => match xlate s noTlb n (ctxD s n 5) (fld a 0 48) write with
        | .error f => .error f
        | .ok l => .ok (some l)
  | _ => .ok (some (chipLoc k a))

/-- n bytes from `a`, byte by byte (a range may span pages); those of another package from the replies `own`. The failure is that of the
first byte that fails in translation or holds an uncorrectable error. -/
def copyRead (s : State) (k : Nat) (p : CopyProg) (own : List Req) (free : Nat) : Nat → Word → Nat × Option WFail
  | 0, _ => (0, none)
  | n + 1, a =>
    let t := copyRead s k p own (free + 1) n (a + 1)
    match copyLoc s k p a false with
    | .ok (some l) => ((rdB s l).toNat + 256 * t.1, ((errIn s l 1).map (ueccFail 0)).or t.2)
    | .ok none => ((farByte own a).getD (freeN s free % 256) + 256 * t.1, t.2)
    | .error f => (freeN s free % 256 + 256 * t.1, some f)

/-- n bytes of a number to `a`; those of another package go as requests of their own. -/
def copyWrite (s : State) (k : Nat) (p : CopyProg) : Nat → Word → Nat → State × Option WFail
  | 0, _, _ => (s, none)
  | n + 1, a, v =>
    let t := copyWrite s k p n (a + 1) (v / 256)
    match copyLoc s k p a true with
    | .ok (some l) => (wrB t.1 l (BitVec.ofNat 8 v), t.2)
    | .ok none => t
    | .error f => (t.1, some f)

/-- The request of a copy for a piece at location l of this package is answered: how long it has waited is a free value (R114, R115, R119; log
entry 49). -/
def copyAck (s : State) (k : Nat) (p : CopyProg) (l acc : Nat) : State := exhWaited s k p.slack (freeN s (2 ^ 85 + 2 * l + acc))

/-- What follows the writes of a copy to n bytes at `a` on this package (R30, R347, R410). -/
def copySoft (s : State) (k : Nat) (p : CopyProg) (a : Word) (n : Nat) : State :=
  (cutLines n a n).foldl (fun s e => match copyLoc s k p e.1 true with
    | .ok (some l) => copyAck (softDone (errClear s l e.2) l e.2) k p l 1
    | _ => s) s

/-- What follows its reads of n bytes at `a` on this package (R302). -/
def copySeen (s : State) (k : Nat) (p : CopyProg) (a : Word) (n : Nat) : State :=
  (cutLines n a n).foldl (fun s e => match copyLoc s k p e.1 false with
    | .ok (some l) => copyAck (softTouch s l e.2) k p l 0
    | _ => s) s

/-- The value that a copy writes, undefined in every byte where a part of it has failed (R251). -/
def copyVal (s : State) (i : Nat) (f : Option WFail) (v : Nat) : Nat := if f = none then v else freeN s (2 ^ 78 + i)

/-- A failed copy is reported, and the program goes on (R251). -/
def copyFault (s : State) (k c : Nat) (p : CopyProg) (i : Nat) (a : Word) (acc : Nat) (f : Option WFail) : State :=
  match f with
  | none => s
  | some f =>
    reportLate (countErr s f.code) k p.ctx p.ltag p.frame p.off
      { code := f.code, prec := 1, slot := 7, engine := 6, ecmd := i, estat := estatWord (chanOf (core s k) c)
        addr := a, acc := acc, space := spc a, wlvl := f.lvl, pa := f.pa } []

/-- The copy may perform, or go on: it has not performed, what it must follow has, its requests to another package have their replies,
and a queue end is its next with room or elements. -/
def copyReady (s : State) (k : Nat) (p : CopyProg) (i : Nat) : Bool :=
  let inOrder := pSqe p.f || pDqe p.f
  decide (i < pTotal p.f) && decide (p.next ≤ i) && !p.ahead.contains i && (!inOrder || i = p.next) && performed s p.deps &&
    p.far.all (fun f => decide (f.i ≠ i) || performed s f.ids) &&
    (!pSqe p.f || p.far.any (fun f => f.i = i) || decide ((queueOf (core s k) (pSq p.f)).outPer ≤ (queueOf (core s k) (pSq p.f)).elems)) &&
    (!pDqe p.f || decide ((queueOf (core s k) (pDq p.f)).ents.length < 16))

/-- The performed copies of a program after copy i: the lowest unperformed one moves up. -/
def absorb : Nat → Nat → List Nat → Nat × List Nat
  | 0, n, l => (n, l)
  | k + 1, n, l => if l.contains n then absorb k (n + 1) (l.erase n) else (n, l)

/-- The live program of channel c changed. -/
def setLive (s : State) (k c : Nat) (f : CopyProg → CopyProg) : State :=
  modCore s k (fun k => setChan k c { chanOf k c with live := (chanOf k c).live.map f })

/-- Copy i has performed. -/
def copyDone (s : State) (k c i : Nat) : State :=
  bump (modCore s k (fun k =>
    let x := chanOf k c
    setChan k c { x with
      done := x.done + 1
      live := x.live.map (fun p =>
        let n := absorb (p.ahead.length + 1) p.next (i :: p.ahead)
        { p with next := n.1, ahead := n.2, far := p.far.filter (fun f => f.i ≠ i) }) }))

/-- Copy i reads or writes at another package: requests for the lines of the range, under the program's slack (R115, R250, R396). -/
def copyFar (s : State) (k c : Nat) (p : CopyProg) (i : Nat) (writing : Bool) (a : Word) (v : Nat) : State :=
  let b : Req :=
    { id := 0, core := 1024 + k, kind := if writing then .store else .load, addr := 0, loc := none, n := 0, slack := p.slack
      prio := p.prio, ltag := p.ltag, ctx := p.ctx, gen := p.gen, dst := .gen, slot := 7, eng := 6, frame := p.frame, off := p.off }
  let r := farReqs b (cutVal (cutLines (pBytes p.f) a (pBytes p.f)) v) s
  bump (setLive r.1 k c (fun p => { p with far := p.far.filter (fun f => f.i ≠ i) ++ [⟨i, writing, r.2⟩] }))

/-- Copy i writes its destination. -/
def copyPut (s : State) (k c : Nat) (p : CopyProg) (i v : Nat) : State :=
  if pDqe p.f then
    copyDone (modCore s k (fun c => setQueue c (pDq p.f) ((queueOf c (pDq p.f)).push [BitVec.ofNat 1024 v]))) k c i
  else if offPackage s p.ctx (pDst p.f i) then copyFar s k c p i true (pDst p.f i) v
  else
    let n := pBytes p.f
    let w := copyWrite s k p n (pDst p.f i) v
    let t := if w.2 = none then w.1 else (copyWrite s k p n (pDst p.f i) (copyVal s i w.2 v)).1
    copyDone (copyFault (copySoft t k p (pDst p.f i) n) k c p i (pDst p.f i) 1 w.2) k c i

/-- Copy i of the live program of channel c performs (R106, R251): at once, or in steps where an end lies in another package. -/
def copyPerform (s : State) (k c i : Nat) : State :=
  match (chanOf (core s k) c).live with
  | none => s
  | some p =>
    if copyReady s k p i = false then s else
    match p.far.find? (fun f => f.i = i) with
    | some f =>
      let own := s.reqs.filter (fun r => f.ids.contains r.id)
      let s := dropReqs s f.ids
      if f.writing then copyDone s k c i
      else copyPut s k c p i (copyVal s i (if own.any (·.bad) then some ⟨.pgnp, 3, 0⟩ else none) (copyRead s k p own 0 (pBytes p.f) (pSrc p.f i)).1)
    | none =>
      if pSqe p.f then
        let q := (queueOf (core s k) (pSq p.f)).pop ⟨0, []⟩
        copyPut (modCore s k (fun c => setQueue c (pSq p.f) q.2.2.1)) k c p i q.1.toNat
      else if offPackage s p.ctx (pSrc p.f i) then copyFar s k c p i false (pSrc p.f i) 0
      else
        let r := copyRead s k p [] 0 (pBytes p.f) (pSrc p.f i)
        copyPut (copyFault (copySeen s k p (pSrc p.f i) (pBytes p.f)) k c p i (pSrc p.f i) 0 r.2) k c p i (copyVal s i r.2 r.1)

/-- The live program of channel c has performed every copy: its join decrement, then the pending program becomes live (R106,
R250). DESIGN CHOICE (log entry 73): with no program live, DONE of `estat` keeps the count of the last one. -/
def copyComplete (s : State) (k c : Nat) : State :=
  let x := chanOf (core s k) c
  match x.live with
  | none => s
  | some p =>
    if x.done < pTotal p.f then s else
    let s := modCore s k (fun k => setChan k c { x with live := x.pend, pend := none, done := if x.pend.isSome then 0 else x.done })
    if pf p.f 4 = 0 then s else joinDec s p.ctx (dieOf k) (frameCanon k (pf p.f 4))

/-! ## Queues (R253 to R257) -/

/-- The reserved values of `qcfg` (R253). -/
def qcfgBad (snk : Bool) (x : Word) : Bool :=
  let ec := fld x 0 6
  let who := fld x 6 3
  let chan := decide (2 ≤ who ∧ who ≤ 5)
  34 ≤ ec || (decide (ec < 32) && fmtB ec) || 6 ≤ who ||
    (if snk then fld x 24 40 ≠ 0 || who = 1 || (chan && (bit x 17 || fld x 9 2 = 3)) else fld x 9 55 ≠ 0)

def opQcfgSrc (a : BitVec 6) (q g : BitVec 4) : SlotOp :=
  { slot := 7, guard := g, check := fun s _ => if qcfgBad false (rx6 s a) then some (eFault .qfmt (rx6 s a)) else none
    eff := fun pre s => modCur s (fun c => setQueue c q.toNat ({ queueOf c q.toNat with src := rx6 pre a }.advance 0)) }
def opQcfgSnk (a : BitVec 6) (q g : BitVec 4) : SlotOp :=
  { slot := 7, guard := g, check := fun s _ => if qcfgBad true (rx6 s a) then some (eFault .qfmt (rx6 s a)) else none
    eff := fun pre s => modCur s (fun c => setQueue c q.toNat { queueOf c q.toNat with snk := rx6 pre a }) }

def opQenq (v : BitVec 5) (q g : BitVec 4) : SlotOp :=
  { slot := 7, guard := g
    admits := fun s => (queueOf (cur s) q.toNat).ents.length + 4 ≤ 16
    check := fun s _ => if (queueOf (cur s) q.toNat).prod ≠ 0 then some (eFault .qbind) else none
    eff := fun pre s => modCur s (fun c => setQueue c q.toNat ((queueOf c q.toNat).push
      ((List.range 4).map (fun k => (rv pre v.toNat).extractLsb' (1024 * k) 1024)))) }

/-- The shared parts of the two `qdeq` forms: n sink entries, put by f. -/
def opPop (q : BitVec 4) (g : BitVec 4) (n : Nat) (res : List Res) (f : State → State → List Line → State) : SlotOp :=
  let qu := fun (s : State) => queueOf (cur s) q.toNat
  { slot := 7, guard := g
    res := fun s => res ++ (if (qu s).cnt then [.sc (qu s).sci] else [])
    admits := fun s => n * (qu s).outPer ≤ (qu s).elems
    check := fun s _ => if (qu s).cons ≠ 0 then some (eFault .qbind) else none
    effu := fun pre s =>
      let r := (qu pre).pops n (rlanes s)
      let used := r.2.2.1
      let s := modCur s (fun c =>
        let q' := queueOf c q.toNat
        setQueue c q.toNat { used with ents := used.ents ++ q'.ents.drop (qu pre).ents.length })
      (f pre (putLanes s (some r.2.2.2)) r.1,
        if (qu pre).cnt then
          [{ sc := (qu pre).sci, bound := 2, addS := r.2.1.countP (·.clamped), addP := r.2.1.countP (·.nai) }]
        else []) }

def opQdeq (v : BitVec 5) (q g : BitVec 4) : SlotOp :=
  opPop q g 4 [] (fun _ s es => wv s 2 v.toNat (BitVec.ofNat 4096 (packE 1024 (es.map (·.toNat)))))
def opQdeqTile (d q : BitVec 4) (a : BitVec 6) (g : BitVec 4) : SlotOp :=
  opPop q g 1 [.tile d.toNat] (fun pre s es =>
    let row := fld (rx6 pre a) 0 7
    busyFor (modCur s (fun c =>
      { c with t := tset 0 c.t d.toNat (setFld (tget 0 c.t d.toNat) (1024 * row) 1024 ((es.headD 0).toNat)) }))
      [.tile d.toNat] 2)

def opQreset (q g : BitVec 4) : SlotOp :=
  { slot := 7, guard := g
    eff := fun _ s => modCur s (fun c => setQueue c q.toNat { queueOf c q.toNat with ents := [], pos := 0 }) }
def opQstat (d : BitVec 6) (q g : BitVec 4) : SlotOp :=
  { slot := 7, guard := g
    eff := fun pre s =>
      let x := queueOf (cur pre) q.toNat
      wx s 2 d.toNat (BitVec.ofNat 64 (x.ents.length + x.elems * 256)) }

/-! ## Scale registers and lane states (R258 to R260) -/

/-- Entry j of the scale table (R71). -/
def sctAddr (s : State) (j : Nat) : Word := entD (cur s) 4 + BitVec.ofNat 64 (16 * j)

def opScld (n a : BitVec 6) (t g : BitVec 4) : SlotOp :=
  let addr := fun (s : State) => sctAddr s (fld (rx6 s a) 0 12)
  { slot := 7, guard := g, res := fun _ => [.sc n.toNat], reqs := fun _ => (1, 16), admits := fun s => ownFree s (addr s)
    check := fun s _ => match chk s (addr s) 16 16 false with
      | .error f => some (addrFault 7 5 0 (addr s) f)
      | .ok _ => if fld (rx6 s a) 12 52 ≠ 0 then some (eFault .scidx (rx6 s a)) else none
    eff := fun pre s => match chk pre (addr pre) 16 16 false with
      | .error _ => s
      | .ok w => startLoad pre s (addr pre) w 16 4 16 (.scale n.toNat (BitVec.ofNat 12 (fld (rx6 pre a) 0 12))) t.toNat 7 }

def opScst (n : BitVec 6) (g : BitVec 4) : SlotOp :=
  let addr := fun (s : State) => sctAddr s (fld (rsc s n.toNat) 64 12)
  { slot := 7, guard := g, res := fun _ => [.sc n.toNat], reqs := fun _ => (1, 0), admits := fun s => ownFree s (addr s)
    check := fun s _ => match chk s (addr s) 16 16 true with
      | .error f => some (addrFault 7 5 1 (addr s) f)
      | .ok _ => none
    eff := fun pre s => match chk pre (addr pre) 16 16 true with
      | .error _ => s
      | .ok w => startStore pre s (addr pre) w 16 (fld (rsc pre n.toNat) 0 64) (rslk pre) 7 false }

/-- The update of `scset` (R259). -/
def scsetUpd (n f : Nat) (x : Word) : ScUpd :=
  match f with
  | 0 => { sc := n, bound := 2, exp := some (fld x 0 8) }
  | 1 => { sc := n, bound := 2, cen := some (fld x 0 6, bit x 6) }
  | 2 => { sc := n, bound := 2, marg := some (fld x 0 2) }
  | 3 => { sc := n, bound := 2, fmt := some (fld x 0 5) }
  | 4 => { sc := n, bound := 2, satc := some (fld x 0 16) }
  | 5 => { sc := n, bound := 2, pois := some (fld x 0 16) }
  | 6 => { sc := n, bound := 2, tidx := some (fld x 0 12) }
  | _ => { sc := n, bound := 2, exp := some (fld x 0 8), cen := some (scCen x, scCenv x), marg := some (scMarg x)
           fmt := some (scFmt x), satc := some (scSatc x), pois := some (scPois x) }

def opScset (n a : BitVec 6) (f : BitVec 3) (g : BitVec 4) : SlotOp :=
  { slot := 7, guard := g, res := fun _ => [.sc n.toNat]
    check := fun s _ =>
      if (f = 1 ∧ fld (rx6 s a) 0 6 > 31) ∨ (f = 7 ∧ fld (rx6 s a) 22 10 ≠ 0) then some (eFault .scarg (rx6 s a)) else none
    effu := fun pre s => (s, [scsetUpd n.toNat f.toNat (rx6 pre a)]) }

/-- `srseed`: the lane states are new from c + 1 on (R260), SRSEED reads anew from its bound of 2 on (R264). -/
def opSrseed (a : BitVec 6) (g : BitVec 4) : SlotOp :=
  { slot := 7, guard := g
    eff := fun pre s =>
      let v := BitVec.ofNat 32 (rx6 pre a).toNat
      modCur s (fun c => putAt { c with lseed := v, lanes := [] } 2 (.seed v)) }

/-! ## Events, group barriers, slack, status (R246, R261 to R263) -/

def opEvset (a : BitVec 6) (w : BitVec 3) (g : BitVec 4) : SlotOp :=
  { slot := 7, guard := g, commits := fun _ => true
    eff := fun pre s => evSet s (cluOf pre.cur) w.toNat (BitVec.ofNat 32 (rx6 pre a).toNat) }
def opEvclr (a : BitVec 6) (w : BitVec 3) (g : BitVec 4) : SlotOp :=
  { slot := 7, guard := g, commits := fun _ => true
    eff := fun pre s => evClr s (cluOf pre.cur) w.toNat (BitVec.ofNat 32 (rx6 pre a).toNat) }

/-- Entry g of the groups loaded at launch (R49). -/
def groupOf (s : State) (cx g : Nat) : Group := tget {} (ctx s cx).groups g

def opGbar (c : BitVec 6) (e : BitVec 8) (g : BitVec 4) : SlotOp :=
  { slot := 7, guard := g, issued := fun _ => 1, commits := fun _ => true, reqs := fun _ => (1, 0)
    check := fun s _ =>
      let own := bit (groupOf s (cur s).ctx e.toNat).members s.cur
      match pairFault none (.ok .far) s (rx6 s c) 8 .framebad with
      | some f => some (addrFault 7 5 1 (rx6 s c) f.2)
      | none =>
        if own = false then some (eFault .groupmem)
        else match slotOwn s (rx6 s c) 8 with
          | .error x => some (eFault x (rx6 s c))
          | .ok _ => none
    eff := fun pre s =>
      let p := newId s
      let me := cur pre
      { p.2 with comps := p.2.comps ++
        [{ id := p.1, what := .gbar pre.cur me.ctx e.toNat, loc := slotLoc pre (rx6 pre c) 8, n := 8, v := 0
           frame := me.trec.w1, die := dieOf pre.cur, owner := some pre.cur, deps := packageSet s, ltag := me.ltag, ctx := me.ctx
           slack := rslk pre }] } }

def opSlk (i : BitVec 12) (g : BitVec 4) : SlotOp :=
  { slot := 7, guard := g, eff := fun _ s => modCur s (putAt · 2 (.slk (i.setWidth 64))) }
def opSlkReg (a : BitVec 6) (g : BitVec 4) : SlotOp :=
  { slot := 7, guard := g
    eff := fun pre s => modCur s (putAt · 2 (.slk (BitVec.ofNat 64 (Nat.min (rx6 pre a).toNat 4095)))) }

/-- ANSTAT (R246, Table 12). -/
def anstatWord (c : Core) : Word :=
  BitVec.ofNat 64 (c.debt % 2 ^ 24 + c.al % 2 ^ 16 * 2 ^ 24 + c.denies % 2 ^ 16 * 2 ^ 40 + c.gang % 2 ^ 7 * 2 ^ 56)

def opAnstat (d : BitVec 6) (x : BitVec 3) (g : BitVec 4) : SlotOp :=
  { slot := 7, guard := g, legal := fun _ => x.toNat ≤ 3
    eff := fun pre s => wx s 2 d.toNat (match x.toNat with
      | 0 => anstatWord (cur pre)
      | 1 => (cur pre).ancfg
      | 2 => (cur pre).smstat
      | _ => (cur pre).mxstat) }

/-! ## Meanings -/

def execCopyPerform (k c i : Nat) (s : State) : Host.Outcome State Fault Refusal := .next (copyPerform s k c i)
def execCopyProgramComplete (k c : Nat) (s : State) : Host.Outcome State Fault Refusal := .next (copyComplete s k c)
def execEcfg (c : BitVec 2) (f a : BitVec 6) (g : BitVec 4) (s : State) : Host.Outcome State Fault Refusal :=
  issue1 (opEcfg c f a g) s
def execEgo (c : BitVec 2) (g : BitVec 4) (s : State) : Host.Outcome State Fault Refusal := issue1 (opEgo c g) s
def execEstat (d : BitVec 6) (c : BitVec 2) (g : BitVec 4) (s : State) : Host.Outcome State Fault Refusal :=
  issue1 (opEstat d c g) s
def execQcfgSrc (a : BitVec 6) (q g : BitVec 4) (s : State) : Host.Outcome State Fault Refusal := issue1 (opQcfgSrc a q g) s
def execQcfgSnk (a : BitVec 6) (q g : BitVec 4) (s : State) : Host.Outcome State Fault Refusal := issue1 (opQcfgSnk a q g) s
def execQenq (v : BitVec 5) (q g : BitVec 4) (s : State) : Host.Outcome State Fault Refusal := issue1 (opQenq v q g) s
def execQdeq (v : BitVec 5) (q g : BitVec 4) (s : State) : Host.Outcome State Fault Refusal := issue1 (opQdeq v q g) s
def execQdeqTile (d q : BitVec 4) (a : BitVec 6) (g : BitVec 4) (s : State) : Host.Outcome State Fault Refusal :=
  issue1 (opQdeqTile d q a g) s
def execQreset (q g : BitVec 4) (s : State) : Host.Outcome State Fault Refusal := issue1 (opQreset q g) s
def execQstat (d : BitVec 6) (q g : BitVec 4) (s : State) : Host.Outcome State Fault Refusal := issue1 (opQstat d q g) s
def execScld (s a : BitVec 6) (t g : BitVec 4) (st : State) : Host.Outcome State Fault Refusal := issue1 (opScld s a t g) st
def execScst (s : BitVec 6) (g : BitVec 4) (st : State) : Host.Outcome State Fault Refusal := issue1 (opScst s g) st
def execScset (s a : BitVec 6) (f : BitVec 3) (g : BitVec 4) (st : State) : Host.Outcome State Fault Refusal :=
  issue1 (opScset s a f g) st
def execSrseed (a : BitVec 6) (g : BitVec 4) (s : State) : Host.Outcome State Fault Refusal := issue1 (opSrseed a g) s
def execEvset (a : BitVec 6) (w : BitVec 3) (g : BitVec 4) (s : State) : Host.Outcome State Fault Refusal :=
  issue1 (opEvset a w g) s
def execEvclr (a : BitVec 6) (w : BitVec 3) (g : BitVec 4) (s : State) : Host.Outcome State Fault Refusal :=
  issue1 (opEvclr a w g) s
def execGbar (c : BitVec 6) (e : BitVec 8) (g : BitVec 4) (s : State) : Host.Outcome State Fault Refusal :=
  issue1 (opGbar c e g) s
def execSlk (i : BitVec 12) (g : BitVec 4) (s : State) : Host.Outcome State Fault Refusal := issue1 (opSlk i g) s
def execSlkReg (a : BitVec 6) (g : BitVec 4) (s : State) : Host.Outcome State Fault Refusal := issue1 (opSlkReg a g) s
def execAnstat (d : BitVec 6) (s : BitVec 3) (g : BitVec 4) (st : State) : Host.Outcome State Fault Refusal :=
  issue1 (opAnstat d s g) st

end Sys2Proof.Machine
end

