-- ==== Sys2Proof/Machine/TileArith.lean ====
section
/-! DEFINITION. Tile words, first part (chapter 10): the fields of a word and of a descriptor, tensors as they are read, and the
arithmetic of the operations (R265 to R273, R280 to R291). -/
namespace Sys2Proof.Machine

/-! ## Fields (Tables 1 and 2) -/

def twOp (w : Bundle) : Nat := fld w 0 8
def twMod (w : Bundle) : Nat := fld w 8 8
def twLevel (w : Bundle) : Nat := fld w 16 3
def twKsplit (w : Bundle) : Bool := bit w 19
def twAsync (w : Bundle) : Bool := bit w 20
def twCircuit (w : Bundle) : Bool := bit w 21
def twGrouped (w : Bundle) : Bool := bit w 22
def twProbe (w : Bundle) : Bool := bit w 23
def twGroup (w : Bundle) : Nat := fld w 24 8
def twSlack (w : Bundle) : Nat := fld w 32 12
def twRound (w : Bundle) : Nat := fld w 44 4
def twParam (w : Bundle) : Word := w.extractLsb' 192 64
/-- Operand offset j: D, A, B, C. -/
def twOff (w : Bundle) (j : Nat) : Nat := fld w (64 + 32 * j) 32

/-- Doubleword j of a descriptor. -/
def dscW (d : BitVec 512) (j : Nat) : Word := d.extractLsb' (64 * j) 64
def dscBase (d : BitVec 512) : Word := dscW d 0
def dscFmt (d : BitVec 512) : Nat := fld (dscW d 1) 0 5
def dscRank (d : BitVec 512) : Nat := fld (dscW d 1) 5 3 + 1
def dscSci (d : BitVec 512) : Nat := fld (dscW d 1) 8 12
def dscI32 (d : BitVec 512) : Bool := bit (dscW d 1) 24
def dscDim (d : BitVec 512) (j : Nat) : Nat := fld d (128 + 32 * j) 32
def dscStr (d : BitVec 512) (j : Nat) : Int := sextI (fld d (256 + 32 * j) 32) 32
def dscBs (d : BitVec 512) : Word := dscW d 6
def dscSm (d : BitVec 512) : Word := dscW d 7
/-- Width, signedness and block scaling of the elements. -/
def dscWid (d : BitVec 512) : Nat := if dscI32 d then 32 else fmtW (dscFmt d)
def dscUns (d : BitVec 512) : Bool := !dscI32 d && fmtU (dscFmt d)
def dscBlk (d : BitVec 512) : Bool := !dscI32 d && fmtB (dscFmt d)
def dscDims (d : BitVec 512) : List Nat := (List.range 4).map (dscDim d)
/-- Rows, elements, bytes of a row, blocks of a row (R57, R58, R270). -/
def dscRows (d : BitVec 512) : Nat := dscDim d 1 * dscDim d 2 * dscDim d 3
def dscElems (d : BitVec 512) : Nat := dscDim d 0 * dscRows d
def dscRowB (d : BitVec 512) : Nat := (dscDim d 0 * dscWid d + 7) / 8
def dscBpr (d : BitVec 512) : Nat := (dscDim d 0 + 31) / 32
/-- The first byte of row r (R268, R270). -/
def dscRow (d : BitVec 512) (r : Nat) : Word :=
  let i1 := r % dscDim d 1
  let i2 := r / dscDim d 1 % dscDim d 2
  let i3 := r / (dscDim d 1 * dscDim d 2)
  dscBase d + BitVec.ofInt 64 (i1 * dscStr d 1 + i2 * dscStr d 2 + i3 * dscStr d 3)

/-- The field rules of Table 2 (R269). -/
def dscBad (d : BitVec 512) : Bool :=
  4 < dscRank d || fld (dscW d 1) 20 4 ≠ 0 || fld (dscW d 1) 25 39 ≠ 0 || (dscI32 d && dscFmt d ≠ 0) ||
    (dscDims d).any (fun x => x = 0) || ((dscDims d).drop (dscRank d)).any (fun x => x ≠ 1) || fld d 256 32 ≠ 0 ||
    (dscBlk d ≠ decide (dscBs d ≠ 0)) || fld (dscSm d) 0 6 ≠ 0

/-! ## Tensors as they are read (R271) -/

/-- A source: descriptor, EXP of its snapshot, codes in linear order, block-scale bytes in block order. -/
structure Ten where
  d : BitVec 512
  exp : Int
  codes : Array Nat
  bs : Array Nat
  deriving DecidableEq, Repr

/-- Al(V, e_el, E) with the output element's state (R271). -/
def alT (v el e : Int) (m : Rnd) (lane : Nat) (L : Lanes) : Int × Lanes :=
  if el ≥ e then (v * (2 : Int) ^ (el - e).toNat, L) else shrL v (e - el).toNat m lane L

/-- Element i, brought to the tensor's exponent (R271, R58). -/
def Ten.val (t : Ten) (m : Rnd) (lane i : Nat) (L : Lanes) : Option Int × Lanes :=
  match decE (dscWid t.d) (dscUns t.d) (t.codes.getD i 0) with
  | none => (none, L)
  | some v =>
    if dscBlk t.d then
      let n := dscDim t.d 0
      let b := t.bs.getD (i / n * dscBpr t.d + i % n / 32) 127
      if b = 255 then (none, L)
      else
        let r := alT v ((b : Int) - 127) 0 m lane L
        (some r.1, r.2)
    else (some v, L)

/-- Element i of a per-tensor operand. -/
def Ten.at_ (t : Ten) (i : Nat) : Option Int := (t.val .rne 0 i ⟨0, []⟩).1

/-- Coordinate j of linear index i, and the linear index of coordinates (R270). -/
def coord (dims : List Nat) (i j : Nat) : Nat := i / ((dims.take j).foldl (· * ·) 1) % dims.getD j 1
def linear : List Nat → List Nat → Nat
  | d :: ds, c :: cs => c + d * linear ds cs
  | _, _ => 0
def coords (dims : List Nat) (i : Nat) : List Nat := (List.range 4).map (coord dims i)

/-! ## Output elements -/

/-- An output element before its write: the value, and whether an earlier write-back point clamped it (R63). -/
structure OutV where
  lane : Nat
  v : Option Int
  hit : Bool := false
  deriving DecidableEq, Repr

/-- Output elements formed in order, with their states. -/
def formAll (f : Nat → Lanes → OutV × Lanes) : List Nat → Lanes → List OutV × Lanes
  | [], L => ([], L)
  | i :: t, L =>
    let r := f i L
    let k := formAll f t r.2
    (r.1 :: k.1, k.2)

/-! ## Products (R280, R281, R297) -/

/-- A B element after smoothing (R181), and whether it was clamped. -/
def smoothB (u : Bool) (sh b : Int) : Int × Bool :=
  let x := if sh ≥ 0 then b * (2 : Int) ^ sh.toNat else shrP b (-sh).toNat .rne
  let c := clampE 8 u x
  (c, decide (c ≠ x))

/-- The terms of an output element: row r of A, column n of group b of B. -/
def tmTerms (ta tb : Ten) (sm : Option (BitVec 512)) (r b n : Nat) : List (Option Int × Option Int × Int) × Bool :=
  let kk := dscDim ta.d 0
  let nn := dscDim tb.d 0
  let ts := (List.range kk).map (fun k =>
    let a := ta.at_ (r * kk + k)
    let x := tb.at_ ((b * kk + k) * nn + n)
    match sm, x with
    | some v, some x =>
      let sh := sextI (fld v (4 * (k % 128)) 4) 4
      let y := smoothB (dscUns tb.d) sh x
      ((a, some y.1, sh), y.2)
    | some v, none => ((a, none, sextI (fld v (4 * (k % 128)) 4) 4), false)
    | none, x => ((a, x, 0), false))
  (ts.map (·.1), ts.any (·.2))

/-- Part(L, R, q): first element and length (R295). -/
def part (l r q : Nat) : Nat × Nat := (q * (l / r) + Nat.min q (l % r), l / r + b2n (decide (q < l % r)))

/-- The parts of a K split, added in order (R297). -/
def ksWalk (nb kp : Nat) (ts : List (Option Int × Option Int × Int)) : List Nat → Int → Bool → Bool → Int × Bool × Bool
  | [], c, nai, cl => (c, nai, cl)
  | p :: t, c, nai, cl =>
    let x := part nb kp p
    let r := mmaBlocks x.2 ((ts.drop (128 * x.1)).take (128 * x.2)) 0 false false
    let nai := nai || r.2.1
    let y := c + r.1
    let z := sat y 32
    if nai then ksWalk nb kp ts t c nai (cl || r.2.2)
    else ksWalk nb kp ts t z nai (cl || r.2.2 || decide (z ≠ y))

/-- One element of a product: `c` the old value (`none` is NaI), `kp` the parts of a K split. -/
def tmEl (lane : Nat) (c : Option Int) (ts : List (Option Int × Option Int × Int) × Bool) (kp : Option Nat) : OutV :=
  let nb := (ts.1.length + 127) / 128
  let r := match kp with
    | none => mmaBlocks nb ts.1 (c.getD 0) c.isNone false
    | some kp => ksWalk nb kp ts.1 (List.range kp) (c.getD 0) c.isNone false
  ⟨lane, if r.2.1 then none else some r.1, r.2.2 || ts.2⟩

/-- The rows of the groups of `tmmag` with their group numbers (R281). -/
def ragRows : Nat → Nat → List Nat → List (Nat × Nat)
  | _, _, [] => []
  | j, r0, n :: t => (List.range n).map (fun i => (r0 + i, j)) ++ ragRows (j + 1) (r0 + n) t

/-! ## Reductions and scans (R287, R288) -/

/-- Values read in order for one output element: `none` when a NaI stands among them. DESIGN CHOICE (log entry 74): where block-scaled sources are
aligned with stochastic rounding, they step the element's state in ascending linear index. -/
def readAll (t : Ten) (m : Rnd) (lane : Nat) : List Nat → Lanes → Option (List Int) × Lanes
  | [], L => (some [], L)
  | i :: is, L =>
    let r := t.val m lane i L
    let k := readAll t m lane is r.2
    (match r.1, k.1 with
      | some v, some vs => some (v :: vs)
      | _, _ => none, k.2)

/-- The block-saturated sum (R287). -/
def ssum : Nat → List Int → Int → Bool → Int × Bool
  | 0, _, c, h => (c, h)
  | n + 1, vs, c, h =>
    let y := c + (vs.take 128).sum
    let z := sat y 32
    ssum n (vs.drop 128) z (h || decide (z ≠ y))

/-- The function of `tred` on the values of the axis. -/
def redFn (fn : Nat) (vs : List Int) : Int × Bool :=
  match fn with
  | 0 => (vs.sum, false)
  | 1 => ((vs.drop 1).foldl max (vs.headD 0), false)
  | 2 => ((vs.drop 1).foldl min (vs.headD 0), false)
  | _ => ssum ((vs.length + 127) / 128) vs 0 false

def redEl (t : Ten) (m : Rnd) (dd : List Nat) (ax fn i : Nat) (L : Lanes) : OutV × Lanes :=
  let ad := dscDims t.d
  let c := coords dd i
  let r := readAll t m i ((List.range (ad.getD ax 1)).map (fun j => linear ad (c.set ax j))) L
  match r.1 with
  | none => (⟨i, none, false⟩, r.2)
  | some vs => (⟨i, some (redFn fn vs).1, (redFn fn vs).2⟩, r.2)

/-- The sources of element i of a scan. -/
def scanSrc (ad : List Nat) (x : Nat) (excl : Bool) (i : Nat) : List Nat :=
  (List.range (ad.foldl (· * ·) 1)).filter (fun j => (List.range 4).all (fun a =>
    let ja := coord ad j a
    let ia := coord ad i a
    if x.testBit a then (if excl then decide (ja < ia) else decide (ja ≤ ia)) else decide (ja = ia)))

def scanEl (t : Ten) (m : Rnd) (x : Nat) (excl : Bool) (i : Nat) (L : Lanes) : OutV × Lanes :=
  let r := readAll t m i (scanSrc (dscDims t.d) x excl i) L
  (⟨i, r.1.map List.sum, false⟩, r.2)

/-! ## Elementwise (R285) -/

/-- The index of B under broadcast. -/
def bcast (ad bd : List Nat) (i : Nat) : Nat :=
  linear bd ((List.range 4).map (fun j => if bd.getD j 1 = 1 then 0 else coord ad i j))

/-- The exponent of the result (Table 5). -/
def ewExp (fn : Nat) (p : Word) (ea eb : Int) : Int :=
  match fn with
  | 0 => min ea eb
  | 1 => min ea eb
  | 2 => ea + eb
  | 3 => min ea eb
  | 4 => min ea eb
  | 8 => ea + sextI (fld p 0 8) 8
  | 9 => 0
  | 10 => -15
  | _ => ea

def sgn (a : Int) : Int := if a > 0 then 1 else if a < 0 then -1 else 0

/-- The function on values aligned where it aligns, and whether the routine saturated (Table 5). -/
def ewFn (fn : Nat) (ea eb a b : Int) : Int × Bool :=
  let e := min ea eb
  let a' := a * (2 : Int) ^ (ea - e).toNat
  let b' := b * (2 : Int) ^ (eb - e).toNat
  match fn with
  | 0 => (a' + b', false)
  | 1 => (a' - b', false)
  | 2 => (a * b, false)
  | 3 => (max a' b', false)
  | 4 => (min a' b', false)
  | 5 => (max a 0, false)
  | 6 => (a.natAbs, false)
  | 7 => (-a, false)
  | 9 => (sgn a, false)
  | 10 => let r := vexpR a ea; (r.1, r.2)
  | _ => (a, false)

def ewEl (ta : Ten) (tb : Option Ten) (m : Rnd) (fn i : Nat) (L : Lanes) : OutV × Lanes :=
  let a := ta.val m i i L
  match tb with
  | none =>
    (match a.1 with
      | none => ⟨i, none, false⟩
      | some x => ⟨i, some (ewFn fn ta.exp ta.exp x 0).1, (ewFn fn ta.exp ta.exp x 0).2⟩, a.2)
  | some tb =>
    let b := tb.val m i (bcast (dscDims ta.d) (dscDims tb.d) i) a.2
    (match a.1, b.1 with
      | some x, some y => ⟨i, some (ewFn fn ta.exp tb.exp x y).1, (ewFn fn ta.exp tb.exp x y).2⟩
      | _, _ => ⟨i, none, false⟩, b.2)

/-! ## Softmax and normalisation (R289, R290) -/

/-- The values of a softmax row. -/
def smaxRow (e : Int) (vs : List Int) : List Int :=
  let mx := (vs.drop 1).foldl max (vs.headD 0)
  let ps := vs.map (fun a => (vexpR (a - mx) e).1)
  ps.map (fun (p : Nat) => ((p * 2 ^ 15 / ps.sum : Nat) : Int))

/-- The values of a normalised row. -/
def normRow (rms : Bool) (vs : List Int) : List Int :=
  let n : Int := vs.length
  let s1 := vs.sum
  let s2 := (vs.map (fun a => a * a)).sum
  let v := if rms then n * s2 else n * s2 - s1 * s1
  if v = 0 then vs.map (fun _ => 0)
  else
    let t := (Nat.log2 v.toNat - 30 + 1) / 2
    let r := vrsqrtR (v.toNat / 4 ^ t) 0
    vs.map (fun a => shrP ((if rms then n * a else n * a - s1) * r.1) (14 + (t : Int) - r.2).toNat .rne)

/-- The rows of a row operation: sources aligned under the state of the element of the same index. -/
def rowsForm (t : Ten) (m : Rnd) (f : List Int → List Int) : List Nat → Lanes → List OutV × Lanes
  | [], L => ([], L)
  | r :: rs, L =>
    let n := dscDim t.d 0
    let k := formAll (fun i L => let x := t.val m i i L; (⟨i, x.1, false⟩, x.2)) ((List.range n).map (fun j => r * n + j)) L
    let vs := k.1.filterMap (·.v)
    let out := if vs.length < n then k.1.map (fun o => { o with v := none })
      else (k.1.zip (f vs)).map (fun e => { e.1 with v := some e.2 })
    let rest := rowsForm t m f rs k.2
    (out ++ rest.1, rest.2)

/-! ## Optimiser steps (R291) -/

/-- One element of `topt`: the new weight, first moment and second moment. -/
def optEl (kind : Nat) (p : Word) (td ta tb : Ten) (tc : Option Ten) (m : Rnd) (i : Nat) (L : Lanes) :
    (OutV × OutV × OutV) × Lanes :=
  let al : Int := fld p 0 6
  let b1 := fld p 6 6
  let b2 := fld p 12 6
  let wd := fld p 18 6
  let g := ta.val m i i L
  let w := td.val m i i g.2
  let mo := tb.at_ i
  let vo := match tc with
    | none => some 0
    | some t => t.at_ i
  let ev := (tc.map (·.exp)).getD 0
  match g.1, w.1, mo, vo with
  | some g0, some w0, some mo, some vo =>
    let gm := alT g0 ta.exp tb.exp m i w.2
    let y1 := if kind = 2 then mo - shrP mo b1 .rne + shrP gm.1 b1 .rne else mo - shrP mo b1 .rne + gm.1
    let mo' := sat y1 32
    let st : Int × Int × Bool × Lanes :=
      match kind with
      | 0 => let r := alT mo' (tb.exp - al) td.exp m i gm.2; (r.1, 0, false, r.2)
      | 1 => let r := alT (sgn mo') (-al) td.exp m i gm.2; (r.1, 0, false, r.2)
      | _ =>
        let g2 := alT (g0 * g0) (2 * ta.exp) ev m i gm.2
        let y2 := vo - shrP vo b2 .rne + shrP g2.1 b2 .rne
        let vo' := sat y2 32
        if vo' ≤ 0 then (0, vo', decide (vo' ≠ y2), g2.2)
        else
          let r := vrsqrtR vo'.toNat ev
          let x := alT (mo' * r.1) (tb.exp + r.2 - 30 - al) td.exp m i g2.2
          (x.1, vo', decide (vo' ≠ y2), x.2)
    let s := if wd ≠ 0 then st.1 + shrP w0 wd .rne else st.1
    ((⟨i, some (w0 - s), false⟩, ⟨i, some mo', decide (mo' ≠ y1)⟩, ⟨i, some st.2.1, st.2.2.1⟩), st.2.2.2)
  | _, _, _, _ => ((⟨i, none, false⟩, ⟨i, none, false⟩, ⟨i, none, false⟩), w.2)

def optAll (f : Nat → Lanes → (OutV × OutV × OutV) × Lanes) : List Nat → Lanes → List (OutV × OutV × OutV) × Lanes
  | [], L => ([], L)
  | i :: t, L =>
    let r := f i L
    let k := optAll f t r.2
    (r.1 :: k.1, k.2)

/-! ## Writing through the snapshot (R272) -/

/-- Runs of n elements of a list. -/
def runs {α : Type} (n : Nat) : Nat → List α → List (List α)
  | 0, _ => []
  | k + 1, l => if l = [] then [] else l.take n :: runs n k (l.drop n)

/-- A write of rows through an entry snapshot into descriptor d; the values come row by row, `n` to a row. -/
def tileWrite (d : BitVec 512) (ent : Word) (m : Rnd) (esrc : Int) (n : Nat) (vs : List OutV) (L : Lanes) : ScRes :=
  let xs := vs.map (fun o => (o.lane, o.v))
  let r :=
    if dscI32 d then scWrite ent 32 false m esrc (some 0) xs L
    else if dscBlk d then
      scWriteBlk (dscWid d) (dscUns d) m esrc ((runs n xs.length xs).map (fun row => runs 32 row.length row)).flatten L
    else scWrite ent (dscWid d) (dscUns d) m esrc (some 0) xs L
  { r with outs := (r.outs.zip vs).map (fun e => { e.1 with clamped := e.1.clamped || e.2.hit }) }

/-- The update of an entry by a write (R74). -/
def updOf (sci : Nat) (r : ScRes) : EntUpd :=
  { sci := sci, exp := r.exp, cen := r.cen.getD 0, cenv := r.cen.isSome, satc := r.outs.countP (·.clamped)
    poison := r.outs.countP (·.nai) }

/-- The update of an entry by a move from a source with snapshot `ent` (R282, R283). -/
def updMove (sci : Nat) (ent : Word) (satc poison : Nat) : EntUpd :=
  { sci := sci, exp := scExp ent, cen := scCen ent, cenv := scCenv ent, satc := satc, poison := poison, move := true }

/-- The entry after an update (R74). -/
def entAfter (e : Word) (u : EntUpd) : Word :=
  let a := setFld e 0 8 (u.exp % 256).toNat
  let b := if u.move ∨ u.cenv then setFld (setFld a 8 6 u.cen) 14 1 (b2n u.cenv) else a
  scCount b u.satc u.poison

/-! ## Degraded wire precision (R293) -/

/-- One payload of up to 32 partials: the values received, and which were sent with a shift or clamped as they were sent (R63). -/
def degradeRun (cs : List (Option Int)) : List (Option Int × Bool) :=
  let q := ((cs.filterMap id).map bitsOf).foldl Nat.max 0
  let f := q - 16
  cs.map (fun c => match c with
    | none => (none, decide (0 < f))
    | some c =>
      let x := shrP c f .rne
      (some (sat x 16 * (2 : Int) ^ f), decide (0 < f) || decide (sat x 16 ≠ x)))

def degrade (cs : List (Option Int)) : List (Option Int × Bool) := ((runs 32 cs.length cs).map degradeRun).flatten

end Sys2Proof.Machine
end

