-- ==== Sys2Proof/Machine/Tile.lean ====
section
/-! DEFINITION. Tile words, second part (chapter 10): operands in memory, the decode checks, staging, acceptance, execution, faults
and completion (R265 to R306, R430). -/
namespace Sys2Proof.Machine

/-! ## Bytes of operands -/

/-- The TLB through which a word seen from core k translates: that of its cluster; a launch word has none (R382). -/
def tileTlb (k : Nat) : Nat := if k < 512 then cluTlb (cluOf k) else noTlb

/-- Where a byte of an operand stands as core k of context cx sees it (R430): a location, or `none` in another package. -/
def tileLoc (s : State) (cx k : Nat) (a : Word) (write : Bool) : Except WFail (Option Nat) :=
  match addrRows s k cx (ctxD s cx) a 1 1 with
  | some c => .error ⟨c, 0, 0⟩
  | none => match spc a with
    | 0 => (xlate s (tileTlb k) cx (ctxD s cx 5) (fld a 0 48) write).map some
    | 5 =>
      if offPackage s cx a then .ok none
      else match asidCtx s (fld (ctxD s cx 0) 0 16) with
        | none => .error ⟨.pgnp, 3, 0⟩
        | some n => (xlate s noTlb n (ctxD s n 5) (fld a 0 48) write).map some
    | _ => .ok (some (chipLoc k a))

/-- A failed access: address, failure, access kind, and the row of the operand it belongs to. -/
structure TFail where
  a : Word
  f : WFail
  acc : Nat
  row : Nat := 0
  deriving DecidableEq, Repr

/-- n bytes from `a` on; bytes of another package from the replies `own`, else free values. A byte in a word with an uncorrectable error and
one whose reply reports a failure fail. -/
def vRead (s : State) (cx k : Nat) (n : Nat) (a : Word) (own : List Req := []) : Nat × Option TFail :=
  match n with
  | 0 => (0, none)
  | n + 1 =>
    let t := vRead s cx k n (a + 1) own
    match tileLoc s cx k a false with
    | .ok (some l) => ((rdB s l).toNat + 256 * t.1, ((errIn s l 1).map (fun w => (⟨a, ueccFail 0 w, 0, 0⟩ : TFail))).or t.2)
    | .ok none => ((farByte own a).getD (freeN s a.toNat % 256) + 256 * t.1,
        (((farReply own a).filter (·.bad)).map (fun r => (⟨a, failOf r.op, 0, 0⟩ : TFail))).or t.2)
    | .error f => (256 * t.1, some { a := a, f := f, acc := 0 })

/-- n bytes of a number written from `a` on; those of another package go as requests of their own (`farOut`). -/
def vWrite (s : State) (cx k : Nat) : Nat → Word → Nat → State × Option TFail
  | 0, _, _ => (s, none)
  | n + 1, a, v =>
    let t := vWrite s cx k n (a + 1) (v / 256)
    match tileLoc s cx k a true with
    | .ok (some l) => (wrB t.1 l (BitVec.ofNat 8 v), t.2)
    | .ok none => t
    | .error f => (t.1, some { a := a, f := f, acc := 1 })

/-- n bytes of a number written from `a` on, with what follows a write (R30, R49, R347, R410). -/
def tileStore (cx k n : Nat) (a : Word) (v : Nat) (s : State) : State × Option TFail :=
  let x := vWrite s cx k n a v
  ((cutLines n a n).foldl (fun s e => match tileLoc s cx k e.1 true with
    | .ok (some l) => madeDone (errClear s l e.2) l e.2
    | _ => s) x.1, x.2)

/-- The first failing byte of n from `a` on (R278). -/
def vProbe (s : State) (cx k : Nat) (write : Bool) : Nat → Word → Option TFail
  | 0, _ => none
  | n + 1, a =>
    match tileLoc s cx k a write with
    | .error f => some { a := a, f := f, acc := b2n write }
    | .ok _ => vProbe s cx k write n (a + 1)

/-- The same at decode, as `ego` probes (R250): space 0x5 is translated on its target, once the word runs (R381, R391). -/
def decProbe (s : State) (cx k : Nat) (write : Bool) (n : Nat) (a : Word) : Option TFail :=
  if spc a = 5 then
    (List.range n).findSome? (fun i => (addrRows s k cx (ctxD s cx) (a + BitVec.ofNat 64 i) 1 1).map (fun c =>
      (⟨a + BitVec.ofNat 64 i, ⟨c, 0, 0⟩, b2n write, 0⟩ : TFail)))
  else vProbe s cx k write n a

/-- The rows of a tensor, and its first failing row. -/
def loadRows (s : State) (cx k : Nat) (own : List Req) (d : BitVec 512) : List Nat → List Nat × Option TFail
  | [] => ([], none)
  | r :: t =>
    let x := vRead s cx k (dscRowB d) (dscRow d r) own
    let y := loadRows s cx k own d t
    (x.1 :: y.1, match x.2 with
      | some f => some { f with row := r }
      | none => y.2)

/-- A source tensor (R271). -/
def loadTen (s : State) (cx k : Nat) (own : List Req) (d : BitVec 512) (ent : Word) : Ten × Option TFail :=
  let rows := loadRows s cx k own d (List.range (dscRows d))
  let nb := if dscBlk d then dscRows d * dscBpr d else 0
  let b := vRead s cx k nb (dscBs d) own
  let w := dscWid d
  ({ d := d, exp := scExp ent
     codes := (rows.1.map (fun v => (List.range (dscDim d 0)).map (fun i => nfld v (i * w) w))).flatten.toArray
     bs := ((List.range nb).map (fun i => nfld b.1 (8 * i) 8)).toArray },
    match rows.2 with
    | some f => some f
    | none => b.2)

/-- The bytes of codes from the first element of a row on; a row given in part keeps its other elements (R57). -/
def rowVal (s : State) (cx k : Nat) (d : BitVec 512) (r : Nat) (cs : List Nat) : Nat × Nat :=
  let w := dscWid d
  let v := packE w cs
  let n := (cs.length * w + 7) / 8
  let old := (vRead s cx k n (dscRow d r)).1
  (n, if cs.length < dscDim d 0 then old - old % 2 ^ (cs.length * w) + v else v)

/-- Rows of codes written. -/
def storeRows (cx k : Nat) (d : BitVec 512) : List (Nat × List Nat) → State → State × Option TFail
  | [], s => (s, none)
  | (r, cs) :: t, s =>
    let v := rowVal s cx k d r cs
    let x := tileStore cx k v.1 (dscRow d r) v.2 s
    let y := storeRows cx k d t x.1
    (y.1, match x.2 with
      | some f => some { f with row := r }
      | none => y.2)

/-- Block-scale bytes written from block n on. -/
def storeBs (cx k : Nat) (d : BitVec 512) (n : Nat) (bs : List Nat) (s : State) : State × Option TFail :=
  if dscBlk d then tileStore cx k bs.length (dscBs d + BitVec.ofNat 64 n) (packE 8 bs) s else (s, none)

/-- Every element of a written operand holds an undefined value, its block scales with it (R274, R305); what fills up the last byte of a row
stays. -/
def scramble (cx k : Nat) (d : BitVec 512) (salt : Nat) (s : State) : State :=
  let free := fun (i : Nat) => freeN s (2 ^ 70 + 2 ^ 40 * salt + i)
  let s := (List.range (dscRows d)).foldl (fun s r =>
    let e := 2 ^ (dscDim d 0 * dscWid d)
    let old := (vRead s cx k (dscRowB d) (dscRow d r)).1
    (vWrite s cx k (dscRowB d) (dscRow d r) (old - old % e + free r % e)).1) s
  if dscBlk d then (vWrite s cx k (dscRows d * dscBpr d) (dscBs d) (free (2 ^ 39))).1 else s

/-! ## Overlap (R274) -/

/-- The location ranges of n bytes from `a` on. -/
def rangeLocs (s : State) (cx k : Nat) (a : Word) (n : Nat) : List (Nat × Nat) :=
  (cutLines n a n).filterMap (fun p =>
    match tileLoc s cx k p.1 false with
    | .ok (some l) => some (l, p.2)
    | _ => none)

/-- The location ranges of a tensor's rows and block scales. -/
def tenRanges (s : State) (cx k : Nat) (d : BitVec 512) : List (Nat × Nat) :=
  ((List.range (dscRows d)).map (fun r => rangeLocs s cx k (dscRow d r) (dscRowB d))).flatten ++
    (if dscBlk d then rangeLocs s cx k (dscBs d) (dscRows d * dscBpr d) else [])

def rangesMeet (a b : List (Nat × Nat)) : Bool := a.any (fun x => b.any (fun y => meets x.1 x.2 y.1 y.2))

/-- The same tensor: base, dimensions, strides and format (R274). -/
def sameTen (d e : BitVec 512) : Bool :=
  dscBase d = dscBase e && dscDims d = dscDims e && (List.range 4).all (fun j => decide (dscStr d j = dscStr e j)) &&
    dscFmt d = dscFmt e && dscI32 d = dscI32 e

/-! ## Operands of a word (Table 4) -/

/-- Which of D, A, B, C a word uses. -/
def usesOp (op md j : Nat) : Bool :=
  match op with
  | 1 => j < 3 || md.testBit 0
  | 2 => j < 3 || md.testBit 0
  | 7 => j < 2 || (j = 2 && md ≤ 4)
  | 0xB => j < 3 || md % 4 = 2
  | 0xD => j = 0
  | 0xE => j < 3
  | 0xF => j < 3
  | 0x10 => false
  | _ => j < 2

/-- Operands of a word that are read as sources. -/
def twUses (w : Bundle) (j : Nat) : Bool := usesOp (twOp w) (twMod w) j

/-- MOD bits that Table 4 gives a meaning. -/
def modBits (op : Nat) : Nat :=
  match op with
  | 1 => 3 | 2 => 1 | 5 => 0xF | 6 => 0x1F | 7 => 0xFF | 0xA => 1 | 0xB => 3 | 0xC => 7 | 0xD => 1 | 0x10 => 7 | _ => 0

/-- PARAM bits that the word uses. -/
def paramBits (w : Bundle) : Nat :=
  match twOp w with
  | 1 => if twKsplit w then 0x1F else 0
  | 2 => 2 ^ 64 - 1
  | 7 => if twMod w = 8 then 0xFF else 0
  | 0xB => 0xFFFFFF
  | 0xC => 2 ^ 32 - 1
  | 0xD => 2 ^ 40 - 1
  | _ => 0

/-- The least scope of a barrier by LEVEL (R294). -/
def barMin (l : Nat) : Nat := if l ≤ 1 then 0 else l - 1

/-- What faults TIWBAD in the word alone (R265, R266, R285, R288, R291, R292, R294, R297). -/
def twBad (w : Bundle) : Bool :=
  let op := twOp w
  let md := twMod w
  fld w 48 16 ≠ 0 || 4 ≤ twRound w || md &&& modBits op ≠ md || (twParam w).toNat &&& paramBits w ≠ (twParam w).toNat ||
    (twGroup w ≠ 0 && !twGrouped w && op ≠ 0xC) ||
    (List.range 4).any (fun j => if twUses w j then twOff w j % 64 ≠ 0 else twOff w j ≠ 0) ||
    (op = 1 && twKsplit w && (decide (fld (twParam w) 0 5 < 2) || decide (16 < fld (twParam w) 0 5))) ||
    (op = 6 && md % 16 = 0) || (op = 7 && 10 < md) || (op = 0xB && md = 3) || (op = 0xC && md % 4 = 3) ||
    (op = 0x10 && (md < barMin (twLevel w) || 4 < md))

/-- What faults TIWFLAG (R266, R292, R298). -/
def twFlag (w : Bundle) : Bool :=
  let op := twOp w
  (twKsplit w && op ≠ 1) || (twCircuit w && !(op = 0xC && (twMod w).testBit 2)) ||
    (op = 0xC && !(twGrouped w && twLevel w = 4)) || (twGrouped w && op ≠ 0xC && op ≠ 0x10 && twLevel w ≠ 4)

/-! ## Shapes, formats, exponents (R280 to R292) -/

/-- Equal dimensions from j on. -/
def dimsFrom (j : Nat) (d e : BitVec 512) : Bool := (dscDims d).drop j = (dscDims e).drop j

/-- Shapes disagree (DESCDIM). -/
def twDim (w : Bundle) (d a b c : BitVec 512) (p : Nat) : Bool :=
  let md := twMod w
  match twOp w with
  | 1 => dscDim a 0 ≠ dscDim b 1 || dscDim a 1 ≠ dscDim d 1 || dscDim b 0 ≠ dscDim d 0 || !dimsFrom 2 a d || !dimsFrom 2 b d ||
      (md.testBit 0 && !dimsFrom 0 c d)
  | 2 => dscRank b ≠ 3 || dscDim a 0 ≠ dscDim b 1 || !dimsFrom 1 a d || dscDim b 0 ≠ dscDim d 0 ||
      (md.testBit 0 && !dimsFrom 0 c d)
  | 3 => !dimsFrom 0 a d
  | 4 => dscRank a < 2 || dscRank d < 2 || dscDim d 0 ≠ dscDim a 1 || dscDim d 1 ≠ dscDim a 0 || !dimsFrom 2 a d
  | 5 => dscDims d ≠ (dscDims a).set (md % 4) 1
  | 6 => !dimsFrom 0 a d
  | 7 => !dimsFrom 0 a d ||
      (md ≤ 4 && (List.range 4).any (fun j => dscDim b j ≠ dscDim a j && dscDim b j ≠ 1))
  | 8 => !dimsFrom 0 a d
  | 9 => !dimsFrom 0 a d
  | 0xA => !dimsFrom 0 a d
  | 0xB => !dimsFrom 0 a d || !dimsFrom 0 b d || (md = 2 && !dimsFrom 0 c d)
  | 0xC => dscRank a ≠ 1 || dscRank d ≠ 1 ||
      (match md % 4 with
       | 0 => dscDim a 0 ≠ dscDim d 0
       | 1 => decide (dscDim d 0 < (part (dscDim a 0) p 0).2)
       | _ => decide (dscDim a 0 < (part (dscDim d 0) p 0).2))
  | 0xE => dscRank a ≠ 2 || dscRank d ≠ 2 || dscRank b ≠ 1 || dscDim a 0 ≠ dscDim d 0 || dscDim d 1 ≠ dscDim b 0
  | 0xF => dscRank a ≠ 2 || dscRank d ≠ 2 || dscRank b ≠ 1 || dscDim a 0 ≠ dscDim d 0 || dscDim a 1 ≠ dscDim b 0
  | _ => false

/-- A word that forms a summed-area table, as the program of chapter 13 does (R288, R328). -/
def satWord (w : Bundle) : Bool := decide (twOp w = 6) && decide (twMod w = 3)

/-- Formats that the operation does not allow (DESCFMT). DEDUCED (log entry 68): a summed-area table is I32 (R330), another `tscan` takes any
format. -/
def twFmt (w : Bundle) (d a b c : BitVec 512) : Bool :=
  let md := twMod w
  let same := dscFmt a = dscFmt d && dscI32 a = dscI32 d
  let prod := dscI32 a || dscI32 b || dscBlk a || dscBlk b || (md.testBit 0 && !dscI32 c)
  let index := dscI32 b || dscBlk b || !dscUns b
  match twOp w with
  | 1 => prod || (md.testBit 1 && (dscWid b ≠ 8 || dscSm b = 0))
  | 2 => prod
  | 3 => !same
  | 4 => !same || dscBlk a
  | 6 => satWord w && !dscI32 d
  | 0xB => !dscI32 b || (md = 2 && !dscI32 c)
  | 0xE => !same || index
  | 0xF => !same || index
  | _ => false

/-- Exponent conditions (TIWEXP); the snapshots of D, A, B, C. -/
def twExp (w : Bundle) (es : List Word) : Bool :=
  let e := fun j => scExp (es.getD j 0)
  let range := decide (e 1 < -24) || decide (0 < e 1)
  match twOp w with
  | 1 => (twMod w).testBit 0 && decide (e 3 ≠ e 1 + e 2)
  | 2 => (twMod w).testBit 0 && decide (e 3 ≠ e 1 + e 2)
  | 7 => twMod w = 10 && range
  | 9 => range
  | _ => false

/-! ## Decomposition (R295 to R298) -/

/-- A range of the output: first row, rows, first column, columns. -/
structure Reg where
  r0 : Nat
  nr : Nat
  c0 : Nat
  nc : Nat
  deriving DecidableEq, Repr

/-- Columns of lane group q: columns 16q to 16q + 15 of each block of 128 (Table 6). -/
def laneCols (nc q : Nat) : Nat := (List.range nc).countP (fun c => c % 128 / 16 = q)

/-- The dies that a word of context cx reaches: those of its partition (R345). -/
def tileDies (s : State) (cx : Nat) : List Nat := (List.range 4).filter (inPart s (fld (ctxD s cx 0) 25 2))

/-- The children of a parent at a level with their ranges, none of them empty (Table 6, R296). A package has the dies `ds` as children,
among which it splits as among four. -/
def kids (ds : List Nat) (op lv : Nat) (g : Reg) : List (Nat × Reg) :=
  let rowOnly := op = 9 ∨ op = 0xA
  let colOnly := op = 0xF
  let n := if rowOnly then 1 else g.nc
  let m := if colOnly then 1 else g.nr
  let put := fun (r c : Nat × Nat) =>
    (⟨g.r0 + (if colOnly then 0 else r.1), if colOnly then (if r.2 = 0 then 0 else g.nr) else r.2,
      g.c0 + (if rowOnly then 0 else c.1), if rowOnly then (if c.2 = 0 then 0 else g.nc) else c.2⟩ : Reg)
  let all := match lv with
    | 4 => ds.zipIdx.map (fun (e : Nat × Nat) => (e.1, if n ≥ m then put (0, m) (part n ds.length e.2) else put (part m ds.length e.2) (0, n)))
    | 3 => (List.range 16).map (fun q => (q, put (part m 4 (q / 4)) (part n 4 (q % 4))))
    | 2 => (List.range 8).map (fun q => (q, put (part m 2 (q / 4)) (part n 4 (q % 4))))
    | _ => (List.range 8).map (fun q => (q, if rowOnly then put (part m 8 q) (0, 1)
        else (⟨g.r0, g.nr, g.c0 + 16 * q, laneCols g.nc q⟩ : Reg)))
  all.filter (fun e => e.2.nr ≠ 0 && e.2.nc ≠ 0)

/-- The ranges of the members of a group (R296, R298). -/
def ringRegs (op p : Nat) (g : Reg) : List (Nat × Reg) :=
  let rowOnly := decide (op = 9) || decide (op = 0xA)
  ((List.range p).map (fun k => (k, if op = 0xF ∨ (rowOnly = false ∧ g.nc ≥ g.nr) then
      (⟨g.r0, g.nr, g.c0 + (part g.nc p k).1, (part g.nc p k).2⟩ : Reg)
    else ⟨g.r0 + (part g.nr p k).1, (part g.nr p k).2, g.c0, g.nc⟩))).filter (fun e => e.2.nr ≠ 0 && e.2.nc ≠ 0)

/-- The whole output (R270). -/
def wholeReg (d : BitVec 512) : Reg := ⟨0, dscRows d, 0, dscDim d 0⟩

/-! ## Staging (R301 to R303) -/

/-- Bytes of staged rows (R302). -/
def stageB (rows cols w : Nat) : Nat := rows * 128 * (((cols * w + 7) / 8 + 127) / 128)

/-- Batches that a range of rows touches. -/
def batches (d : BitVec 512) (g : Reg) : Nat := (g.r0 + g.nr - 1) / dscDim d 1 - g.r0 / dscDim d 1 + 1

/-- The rows of a range by batch: how many of each batch that it touches. -/
def batchRows (d : BitVec 512) (g : Reg) : List Nat :=
  ((List.range (dscRows d / dscDim d 1)).map (fun b =>
    Nat.min (g.r0 + g.nr) ((b + 1) * dscDim d 1) - Nat.max g.r0 (b * dscDim d 1))).filter (· ≠ 0)

/-- The rows of B that a range of rows reads under broadcast (R285). -/
def bcastRows (a b : BitVec 512) (g : Reg) : Nat :=
  (((List.range g.nr).map (fun r => bcast (dscDims a) (dscDims b) ((g.r0 + r) * dscDim a 0) / dscDim b 0)).dedup).length

/-- The need of a child with range g (R302); `kp` the K-terms of a part of a K split. Partials stand in it with their plain size, as chapter 13
calculates. -/
def need (w : Bundle) (ds : List (BitVec 512)) (rc : List Nat) (g : Reg) (kp : Option Nat) : Nat :=
  let d := ds.getD 0 0
  let a := ds.getD 1 0
  let b := ds.getD 2 0
  let out := stageB g.nr g.nc (dscWid d)
  let acc := if (twMod w).testBit 0 then stageB g.nr g.nc 32 else 0
  let sm := if (twMod w).testBit 1 then 128 else 0
  match kp with
  | some kp => g.nr * g.nc * 4 + stageB g.nr kp (dscWid a) + stageB (kp * batches d g) g.nc (dscWid b) + sm
  | none =>
    match twOp w with
    | 1 => out + stageB g.nr (dscDim a 0) (dscWid a) + stageB (dscDim b 1 * batches d g) g.nc (dscWid b) + acc + sm
    | 2 =>
      let hits := ((ragRows 0 0 rc).filter (fun e => g.r0 ≤ e.1 && decide (e.1 < g.r0 + g.nr))).map (·.2)
      out + stageB g.nr (dscDim a 0) (dscWid a) + stageB (dscDim b 1 * hits.dedup.length) g.nc (dscWid b) + acc +
        stageB 1 rc.length 32
    | 4 => out + ((batchRows d g).map (fun n => stageB g.nc n (dscWid a))).sum
    | 5 =>
      let ax := twMod w % 4
      out + stageB (g.nr * (if ax = 0 then 1 else dscDim a ax)) (if ax = 0 then dscDim a 0 else g.nc) (dscWid a)
    | 6 => out + stageB g.nr g.nc (dscWid a) + g.nr * g.nc * 8
    | 7 => out + stageB g.nr g.nc (dscWid a) +
        (if twMod w ≤ 4 then stageB (bcastRows a b g) (if dscDim b 0 = 1 then 1 else g.nc) (dscWid b) else 0)
    | 0xB => out + stageB g.nr g.nc (dscWid a) + stageB g.nr g.nc 32 + (if twMod w = 2 then stageB g.nr g.nc 32 else 0)
    | 0xD => out
    | 0xE => out + stageB (dscRows a) g.nc (dscWid a) + stageB 1 g.nr (dscWid b)
    | 0xF => out + stageB (dscRows a) g.nc (dscWid a) + stageB 1 (dscDim b 0) (dscWid b)
    | _ => out + stageB g.nr g.nc (dscWid a)

/-- Every child's need fits the share of its level, all the way down (R301 to R303); `sh` gives the share of a child of a parent
at a level. -/
def stageOk (dies : List Nat) (w : Bundle) (ds : List (BitVec 512)) (rc : List Nat) (sh : Nat → Nat) : Nat → Nat → Option Nat → Reg → Bool
  | 0, _, _, _ => true
  | n + 1, lv, kp, g =>
    (kids dies (twOp w) lv g).all (fun e => decide (need w ds rc e.2 kp ≤ sh lv) && (lv ≤ 1 || stageOk dies w ds rc sh n (lv - 1) kp e.2))

/-- The K-terms of the parts of a K split (R297). -/
def kpTerms (kk kp : Nat) : List Nat :=
  ((List.range kp).map (fun p =>
    let x := part ((kk + 127) / 128) kp p
    Nat.min kk (128 * (x.1 + x.2)) - Nat.min kk (128 * x.1))).filter (· ≠ 0)

/-- The launch of a tag. -/
def launchOf (s : State) (tag : BitVec 16) : Option Launch := s.hub.launches.find? (fun l => l.tag = tag)

/-- The shares by level of the parent (Table 8, R303); `own` is the core of a `tix`. -/
def shareOf (s : State) (tag : BitVec 16) (own : Option Nat) (lv : Nat) : Nat :=
  let f := fun (g : Launch → Word) => ((launchOf s tag).map g).getD 0
  match lv with
  | 4 => fld (f (·.l5)) 28 28
  | 3 => fld (f (·.l6)) 24 25
  | 2 => fld (f (·.l7)) 21 22
  | _ => 1310720 + 2048 * (match own with
    | none => 128
    | some k => (List.range 128).countP (fun b => !bit (core s k).accAl b))

/-- The staging check of a word (R302). -/
def stageFits (s : State) (t : TileW) : Bool :=
  let w := t.word
  let op := twOp w
  let own := if t.src = .tix then some t.core else none
  let sh := shareOf s t.ltag own
  let g := wholeReg (t.desc.getD 0 0)
  let ok := stageOk (tileDies s t.ctx) w t.desc t.rc sh
  if op = 0xC ∨ op = 0x10 ∨ twLevel w = 0 then true
  else if twGrouped w then
    (ringRegs op t.grp.count g).all (fun e => decide (need w t.desc t.rc e.2 none ≤ sh 2) && ok 1 1 none e.2)
  else if twKsplit w then
    (kpTerms (dscDim (t.desc.getD 1 0) 0) (fld (twParam w) 0 5)).all (fun kp =>
      decide (need w t.desc t.rc g (some kp) ≤ sh (twLevel w)) &&
        (twLevel w ≤ 1 || ok 4 (twLevel w - 1) (some kp) g))
  else ok 4 (twLevel w) none g

/-! ## Acceptance (R275, R304) -/

/-- The core from which a word's operands are seen (R430); a launch word has none. -/
def tileView (t : TileW) : Nat := match t.src with | .launch => noTlb | _ => t.core

/-- A fault of a word: precise at `tix`, reported at completion otherwise (R304, R306). -/
def tileInfo (t : TileW) (c : Code) : FaultInfo :=
  match t.src with
  | .tix => { code := c, slot := t.slot, engine := 2, level := twLevel t.word }
  | .tpost _ _ => { code := c, prec := 3, slot := t.slot, engine := 8, level := twLevel t.word }
  | .launch => { code := c, prec := 3, engine := 8, level := twLevel t.word }

def tileAddr (t : TileW) (f : TFail) : FaultInfo :=
  { tileInfo t f.f.code with addr := f.a, acc := f.acc, space := spc f.a, wlvl := f.f.lvl }

/-- The address of entry sci (R71). -/
def entAddr (s : State) (cx sci : Nat) : Word := ctxD s cx 4 + BitVec.ofNat 64 (16 * sci)

/-- The descriptors of the used operands, in the order D, A, B, C, or the first failure. -/
def readDescs (s : State) (t : TileW) : List Nat → Except FaultInfo (List (BitVec 512))
  | [] => .ok []
  | j :: js =>
    if twUses t.word j = false then (readDescs s t js).map (0 :: ·)
    else
      let x := vRead s t.ctx (tileView t) 64 (ctxD s t.ctx 3 + BitVec.ofNat 64 (twOff t.word j))
      match x.2 with
      | some f => .error (tileAddr t f)
      | none =>
        let d := BitVec.ofNat 512 x.1
        let near := fun (a : Word) => spc a = 1 || spc a = 2 || spc a = 3 || spc a = 6
        let launchBad := t.src = .launch && twOp t.word ≠ 0xC && (near (dscBase d) || near (dscBs d) || near (dscSm d))
        if dscBad d ∨ launchBad then .error (tileInfo t .descbad) else (readDescs s t js).map (d :: ·)

/-- The entry snapshots of the used operands (R74). -/
def readEnts (s : State) (t : TileW) : List (Nat × BitVec 512) → Except FaultInfo (List Word)
  | [] => .ok []
  | (j, d) :: r =>
    if twUses t.word j = false then (readEnts s t r).map (0 :: ·)
    else
      let x := vRead s t.ctx (tileView t) 8 (entAddr s t.ctx (dscSci d))
      match x.2 with
      | some f => .error (tileAddr t f)
      | none => (readEnts s t r).map (BitVec.ofNat 64 x.1 :: ·)

/-- The row counts of `tmmag` (R281). -/
def readRc (s : State) (t : TileW) (g : Nat) : Except FaultInfo (List Nat) :=
  if twOp t.word ≠ 2 then .ok []
  else if t.src = .launch ∧ (let p := spc (twParam t.word); p = 1 ∨ p = 2 ∨ p = 3 ∨ p = 6) then .error (tileInfo t .descbad)
  else if (twParam t.word).toNat % 4 ≠ 0 then
    .error (tileAddr t { a := twParam t.word, f := ⟨.align, 0, 0⟩, acc := 0 })
  else
    let x := vRead s t.ctx (tileView t) (4 * g) (twParam t.word)
    match x.2 with
    | some f => .error (tileAddr t f)
    | none => .ok ((List.range g).map (fun j => nfld x.1 (32 * j) 32))

/-- Operands a word writes: D, and the moments of `topt`. -/
def writtenOps (w : Bundle) : List Nat :=
  if twOp w = 0x10 then [] else if twOp w = 0xB then (if twMod w = 2 then [0, 2, 3] else [0, 2]) else [0]

/-- The descriptor of a member of a collective at ring position k (R292). -/
def memberDesc (w : Bundle) (d : BitVec 512) (k : Nat) : BitVec 512 :=
  setFld d 0 64 (dscBase d + BitVec.ofInt 64 ((k : Int) * sextI (fld (twParam w) 0 32) 32)).toNat

/-- The elements of operand j that the member at ring position k reads or writes in a collective: its chunk of A in an all-gather and of D in a
reduce-scatter, else all of them (R292). -/
def memberLen (t : TileW) (j k : Nat) : Nat :=
  let n := fun (j : Nat) => dscDim (t.desc.getD j 0) 0
  match twMod t.word % 4, j with
  | 2, 1 => (part (n 0) t.grp.count k).2
  | 1, 0 => (part (n 1) t.grp.count k).2
  | _, _ => n j

/-- Operands as view core and descriptor: one of each, or what each member of a collective touches. -/
def placesOf (t : TileW) (j : Nat) : List (Nat × BitVec 512) :=
  if twOp t.word = 0xC then
    t.grp.order.zipIdx.map (fun e => (e.1, setFld (memberDesc t.word (t.desc.getD j 0) e.2) 128 32 (memberLen t j e.2)))
  else [(tileView t, t.desc.getD j 0)]

/-- Row r of operand j belongs to what a word touches: a ragged product has no part in the rows outside its groups, nor in the B of a group
without rows (R281). -/
def rowUsed (t : TileW) (j r : Nat) : Bool :=
  decide (twOp t.word ≠ 2) ||
    (if j = 2 then decide (t.rc.getD (r / dscDim (t.desc.getD 2 0) 1) 0 ≠ 0) else decide (r < t.rc.sum))

/-- The first failing page of the rows and block scales of operand j. -/
def probeTen (s : State) (t : TileW) (j k : Nat) (d : BitVec 512) (write : Bool) : Option TFail :=
  match ((List.range (dscRows d)).filter (rowUsed t j)).findSome? (fun r => decProbe s t.ctx k write (dscRowB d) (dscRow d r)) with
  | some f => some f
  | none => if dscBlk d then decProbe s t.ctx k write (dscRows d * dscBpr d) (dscBs d) else none

/-- The failure of the entries that a word writes: at its decode, and again at each child's (R304). -/
def entFail (s : State) (t : TileW) : Option TFail :=
  (writtenOps t.word).findSome? (fun j => vProbe s t.ctx (tileView t) true 8 (entAddr s t.ctx (dscSci (t.desc.getD j 0))))

/-- The first failing page among all that the word touches (R278, Table 9). -/
def probeWord (s : State) (t : TileW) : Option TFail :=
  let w := t.word
  let ops := (List.range 4).filter (twUses w)
  let wr := writtenOps w
  match ops.findSome? (fun j => (placesOf t j).findSome? (fun p =>
      match (if wr.contains j then probeTen s t j p.1 p.2 true else none) with
      | some f => some f
      | none => if j = 0 ∧ twOp w ≠ 0xB then none else probeTen s t j p.1 p.2 false)) with
  | some f => some f
  | none =>
    let d := t.desc.getD 2 0
    match (if twOp w = 1 ∧ (twMod w).testBit 1 then vProbe s t.ctx (tileView t) false 64 (dscSm d) else none) with
    | some f => some f
    | none => entFail s t

/-- Levels that the source of a word allows (R200, R201, R275). -/
def levelOk (t : TileW) : Bool :=
  match t.src with
  | .tix => twLevel t.word ≤ 1
  | .tpost _ _ => 2 ≤ twLevel t.word && twLevel t.word ≤ 4
  | .launch => twLevel t.word = 4

/-- What the plan forbids: a pod collective without a plan, a circuit for which no port has an entry of its id for injection (R400, R402). -/
def planFlag (s : State) (t : TileW) : Bool :=
  let w := t.word
  (twOp w = 0xC && (twMod w).testBit 2 && ((ctx s t.ctx).plan).isNone) ||
    (twCircuit w && !s.hub.slots.any (fun e => decide (fld e.2 1 3 = 6) && decide (fld e.2 4 8 = twGroup w)))

/-- The checks of the word and of the group entry, before any descriptor is read. -/
def wordCheck (s : State) (t : TileW) : Option Code :=
  let w := t.word
  let g := groupOf s t.ctx (twGroup w)
  if t.src = .launch ∧ levelOk t = false then some .tiwlevel
  else if twOp w = 0 ∨ 0x10 < twOp w then some .tiwop
  else if levelOk t = false then some .tiwlevel
  else if twBad w then some .tiwbad
  else if twFlag w ∨ (t.src = .tix ∧ twAsync w) ∨ planFlag s t then some .tiwflag
  else if twGrouped w ∧ (g.count = 0 ∨ (twOp w = 0x10 ∧ (t.src = .launch ∨ bit g.members t.core = false))) then some .tiwgrp
  else none

/-- The checks of shapes, formats, exponents, entries, row counts and staging, with the snapshots taken. -/
def shapeCheck (s : State) (t : TileW) : Option Code :=
  let w := t.word
  let d := fun j => t.desc.getD j 0
  let wr := writtenOps w
  if twLevel w = 0 ∧ (List.range 4).any (fun j => twUses w j && spc (dscBase (d j)) ≠ 1) then some .tiwlevel
  else if ((wr.map (fun j => dscSci (d j))).dedup).length < wr.length then some .descbad
  else if twDim w (d 0) (d 1) (d 2) (d 3) t.grp.count then some .descdim
  else if twFmt w (d 0) (d 1) (d 2) (d 3) then some .descfmt
  else if twExp w t.ents then some .tiwexp
  else if twUses w 0 ∧ dscI32 (d 0) = false ∧ scFmt (t.ents.getD 0 0) ≠ dscFmt (d 0) then some .scfmt
  else if twOp w = 2 ∧ dscRows (d 0) < t.rc.sum then some .ragged
  else if stageFits s t = false then some .stage
  else none

/-- A word that has passed its decode checks, with its snapshots; or the first failing check of Table 9, in the table's order but
for the reads, which fail where they are made. -/
def tileDecode (s : State) (t : TileW) : Except FaultInfo TileW :=
  let w := t.word
  match wordCheck s t with
  | some c => .error (tileInfo t c)
  | none =>
    let grp := if twGrouped w then groupOf s t.ctx (twGroup w) else {}
    match readDescs s t [0, 1, 2, 3] with
    | .error i => .error i
    | .ok ds => match readEnts s t ((List.range 4).zip ds) with
      | .error i => .error i
      | .ok es => match readRc s t (dscDim (ds.getD 2 0) 2) with
        | .error i => .error i
        | .ok rc =>
          let t := { t with desc := ds, ents := es, rc := rc, grp := grp }
          match shapeCheck s t with
          | some c => .error (tileInfo t c)
          | none => match probeWord s t with
            | some f => .error (tileAddr t f)
            | none =>
              let v := (vRead s t.ctx (tileView t) 64 (dscSm (ds.getD 2 0))).1
              .ok { t with wire := (planOf s t.ctx).degr, smv := if twOp w = 1 ∧ (twMod w).testBit 1 = true then BitVec.ofNat 512 v else 0 }

/-! ## Order (R276, R294) -/

/-- Words of one source go to one sequencer each: the same level, lane groups with their core. -/
def sameSeq (t u : TileW) : Bool :=
  (match t.src, u.src with
   | .launch, .launch => true
   | .launch, _ => false
   | _, .launch => false
   | _, _ => true) && t.core = u.core && Nat.max 1 (twLevel t.word) = Nat.max 1 (twLevel u.word)

/-- Sequencer of u lies within scope sc of the sequencer that accepts t (R294). -/
def withinScope (t u : TileW) (sc : Nat) : Bool :=
  let l := Nat.max 1 (twLevel u.word)
  u.ctx = t.ctx && (3 ≤ sc || (l ≤ sc + 1 && u.src ≠ .launch &&
    (match sc with
     | 0 => u.core = t.core
     | 1 => cluOf u.core = cluOf t.core
     | _ => dieOf u.core = dieOf t.core)))

/-- A word that has been accepted and has not completed. -/
def TileW.live (t : TileW) : Bool := t.stage ≠ .posted

/-- The words that a newly accepted word starts after. -/
def tileDeps (s : State) (t : TileW) : List Nat :=
  let acc := s.tiles.filter (fun u => u.live && u.id ≠ t.id)
  if twOp t.word = 0x10 then (acc.filter (fun u => withinScope t u (twMod t.word))).map (·.id)
  else if twAsync t.word then []
  else (acc.filter (sameSeq t)).map (·.id)

/-- A grouped barrier of the same group (R294). -/
def sameBar (t u : TileW) : Bool :=
  twOp u.word = 0x10 && twGrouped u.word && !twProbe u.word && u.ctx = t.ctx && twGroup u.word = twGroup t.word

/-- The arrival of t counts in a later epoch: one of its core already counts in this one (R262, R294). -/
def barHeld (s : State) (t : TileW) : Bool :=
  s.tiles.any (fun u => u.live && u.id ≠ t.id && sameBar t u && u.core = t.core && !u.freed)

/-- When every member has arrived the epoch completes, and the next held arrival of each member counts (R262, R294). -/
def barEpoch (s : State) (t : TileW) : State :=
  let arr := s.tiles.filter (fun u => u.live && sameBar t u && !u.held && !u.freed)
  if (List.range 512).all (fun k => !bit t.grp.members k || arr.any (fun u => u.core = k)) then
    let ids := arr.map (·.id)
    let next := fun (u : TileW) => (s.tiles.find? (fun v => v.live && sameBar t v && v.held && v.core = u.core)).map (·.id) = some u.id
    { s with tiles := s.tiles.map (fun u =>
        if ids.contains u.id then { u with freed := true } else if next u then { u with held := false } else u) }
  else s

def setTile (s : State) (id : Nat) (f : TileW → TileW) : State :=
  { s with tiles := s.tiles.map (fun t => if t.id = id then f t else t) }

/-- A word accesses ranges of bytes: every other word in whose staging regions they fall ends with undefined values (R302). -/
def wordTouch (s : State) (id : Nat) (ls : List (Nat × Nat)) : State :=
  { s with tiles := s.tiles.map (fun u => if u.id ≠ id ∧ ls.any (fun e => stageHit s e.1 e.2 u) then { u with spoilt := true } else u) }

/-- What a word reads at its acceptance: descriptors, entries, row counts, smoothing vector. -/
def decRanges (s : State) (t : TileW) : List (Nat × Nat) :=
  let at_ := fun (a : Word) (n : Nat) => rangeLocs s t.ctx (tileView t) a n
  (((List.range 4).filter (twUses t.word)).map (fun j =>
      at_ (ctxD s t.ctx 3 + BitVec.ofNat 64 (twOff t.word j)) 64 ++ at_ (entAddr s t.ctx (dscSci (t.desc.getD j 0))) 8)).flatten ++
    (if twOp t.word = 2 then at_ (twParam t.word) (4 * t.rc.length) else []) ++
    (if twOp t.word = 1 ∧ (twMod t.word).testBit 1 = true then at_ (dscSm (t.desc.getD 2 0)) 64 else [])

/-- The elements of a word's operands. -/
def opRanges (s : State) (t : TileW) : List (Nat × Nat) :=
  ((((List.range 4).filter (twUses t.word)).map (placesOf t)).flatten.map (fun p => tenRanges s t.ctx p.1 p.2)).flatten
def findTile (s : State) (id : Nat) : Option TileW := s.tiles.find? (fun t => t.id = id)

/-- TILE_WORD_ACCEPT: the decode checks and the snapshots, once (R275, R304). -/
def tileAccept (s : State) (id : Nat) : State :=
  match findTile s id with
  | none => s
  | some t =>
    if t.stage ≠ .posted then s
    else
      let r : TileW := match tileDecode s t with
        | .error i => { t with stage := .failed i [] }
        | .ok u => { u with stage := .accepted, deps := tileDeps s t, held := barHeld s t }
      let s := bump (setTile (match r.stage with | .failed i _ => countErr s i.code | _ => wordTouch s id (decRanges s r)) id (fun _ => r))
      if r.stage = .accepted ∧ sameBar r r then barEpoch s r else s

/-! ## Execution -/

/-- The unit that is child q of unit u at a level: dies of the package, clusters of a die, cores of a cluster, numbered package-wide. -/
def kidUnit (lv u q : Nat) : Nat := if lv = 4 then q else if lv = 3 then 16 * u + q else 8 * u + q

/-- The unit whose sequencer has accepted a word (R275). -/
def tileUnit (t : TileW) : Nat :=
  match twLevel t.word with
  | 4 => 0
  | 3 => dieOf t.core
  | 2 => cluOf t.core
  | _ => t.core

/-- The cores at which a word over range g runs, from unit u of level n + 1 down (R295). -/
def coresAt (ds : List Nat) (op : Nat) : Nat → Nat → Reg → List Nat
  | 0, u, _ => [u]
  | n + 1, u, g => ((kids ds op (n + 2) g).map (fun e => coresAt ds op n (kidUnit (n + 2) u e.1) e.2)).flatten

/-- The children of a parent at level lv, in their order. -/
def kidNums (ds : List Nat) (lv : Nat) : List Nat := if lv = 4 then ds else if lv = 3 then List.range 16 else List.range 8

/-- The parts of a K split: K-terms before it, K-terms, and the child that it goes to; a part without terms goes nowhere (R297). -/
def ksParts (ds : List Nat) (w : Bundle) (kk : Nat) : List (Nat × Nat × Nat) :=
  let ch := kidNums ds (twLevel w)
  let kp := fld (twParam w) 0 5
  ((List.range kp).map (fun p =>
    let x := part ((kk + 127) / 128) kp p
    (128 * x.1, Nat.min kk (128 * (x.1 + x.2)) - Nat.min kk (128 * x.1), ch.getD (p % ch.length) 0))).filter (fun e => e.2.1 ≠ 0)

/-- The cores that children of a word run at (R295, R297, R298, R303). -/
def childCores (s : State) (t : TileW) : List Nat :=
  let w := t.word
  let op := twOp w
  let g := wholeReg (t.desc.getD 0 0)
  let ds := tileDies s t.ctx
  let lv := twLevel w
  if op = 0xC ∨ op = 0x10 ∨ lv ≤ 1 then []
  else if twGrouped w then (ringRegs op t.grp.count g).map (fun e => t.grp.order.getD e.1 0)
  else if twKsplit w then
    ((ksParts ds w (dscDim (t.desc.getD 1 0) 0)).map (fun e => coresAt ds op (lv - 2) (kidUnit lv (tileUnit t) e.2.2) g)).flatten.dedup
  else coresAt ds op (lv - 1) (tileUnit t) g

/-- The pod-ring transfers of a context (R292). -/
def podBusy (s : State) (cx : Nat) : Bool := s.reqs.any (fun r => r.ctx = cx && r.h = 38 && r.kind = .store)

/-- A word may start: its source's order allows it, no STOP holds it (R374), its children's cores are idle, a grouped barrier's epoch is
complete, a barrier of pod scope finds every transfer acknowledged. -/
def tileCan (s : State) (t : TileW) : Bool :=
  (t.stage = .accepted || (t.stage = .fetch && performed s t.far)) && !s.tiles.any (fun u => t.deps.contains u.id) &&
    (!(ctx s t.ctx).stopped || t.stage = .fetch) &&
    (twProbe t.word || t.stage = .fetch ||
      ((childCores s t).all (fun k => decide ((core s k).run = .idle) && decide ((core s k).pre = .none) && !childBusy s k) &&
        (!sameBar t t || t.freed) && !(twOp t.word = 0x10 && twMod t.word = 4 && podBusy s t.ctx)))

/-- Words of different sources at one sequencer. -/
def rivals (t u : TileW) : Bool :=
  Nat.max 1 (twLevel t.word) = Nat.max 1 (twLevel u.word) && tileUnit t = tileUnit u &&
    !((t.src = .launch) = (u.src = .launch) && t.core = u.core)

/-- A word may start, and no word of another source goes before it: the least SLACK does, then the oldest (R366). -/
def tileReady (s : State) (t : TileW) : Bool :=
  tileCan s t && (t.stage = .fetch || !s.tiles.any (fun u =>
    u.stage = .accepted && rivals t u && (decide (twSlack u.word < twSlack t.word) || (twSlack u.word = twSlack t.word && decide (u.id < t.id))) &&
      tileCan s u))

/-- One fault link (Table 10). -/
def faultLink (lv : Nat) (ring : Bool) (child code more r0 c0 : Nat) : BitVec 128 :=
  BitVec.ofNat 128 (lv + 8 * b2n ring + 256 * child + 2 ^ 32 * code + 2 ^ 48 * more + 2 ^ 64 * r0 + 2 ^ 96 * c0)

/-- nc columns from c0 on of a row of operand j, which a range reads or writes. -/
structure Seg where
  j : Nat
  row : Nat
  c0 : Nat
  nc : Nat
  wr : Bool := false
  deriving DecidableEq, Repr

/-- The rows of an operand of three outer coordinates. -/
def rowAt (d : BitVec 512) (i1 i2 i3 : Nat) : Nat := i1 + dscDim d 1 * (i2 + dscDim d 2 * i3)

/-- What the leaf that runs range g of the output touches, sources first (Table 4, R271, R280 to R291): `ks` the K-terms of a part of a
K split, whose result goes to staging; `tb` the indices of a gather or a scatter. -/
def leafSegs (t : TileW) (tb : Ten) (ks : Option (Nat × Nat)) (g : Reg) : List Seg :=
  let w := t.word
  let md := twMod w
  let d := t.desc.getD 0 0
  let a := t.desc.getD 1 0
  let b := t.desc.getD 2 0
  let rows := (List.range g.nr).map (g.r0 + ·)
  let same := fun (j : Nat) => rows.map (fun r => (⟨j, r, g.c0, g.nc, false⟩ : Seg))
  let out := fun (j : Nat) => rows.map (fun r => (⟨j, r, g.c0, g.nc, true⟩ : Seg))
  let all := fun (j : Nat) (d : BitVec 512) (rs : List Nat) => rs.map (fun r => (⟨j, r, 0, dscDim d 0, false⟩ : Seg))
  match twOp w with
  | 1 =>
    let k := ks.getD (0, dscDim a 0)
    let bs := (rows.map (· / dscDim d 1)).dedup
    rows.map (fun r => (⟨1, r, k.1, k.2, false⟩ : Seg)) ++
      (bs.map (fun n => (List.range k.2).map (fun i => (⟨2, n * dscDim a 0 + k.1 + i, g.c0, g.nc, false⟩ : Seg)))).flatten ++
      (if ks.isSome then [] else (if md.testBit 0 then same 3 else []) ++ out 0)
  | 2 =>
    let rs := (ragRows 0 0 t.rc).filter (fun e => g.r0 ≤ e.1 && decide (e.1 < g.r0 + g.nr))
    let mine := fun (j : Nat) (wr : Bool) => rs.map (fun e => (⟨j, e.1, g.c0, g.nc, wr⟩ : Seg))
    all 1 a (rs.map (·.1)) ++
      (((rs.map (·.2)).dedup).map (fun n => (List.range (dscDim a 0)).map (fun i => (⟨2, n * dscDim a 0 + i, g.c0, g.nc, false⟩ : Seg)))).flatten ++
      (if md.testBit 0 then mine 3 false else []) ++ mine 0 true
  | 4 => ((rows.map (fun r => (List.range g.nc).map (fun c =>
      let x := coords (dscDims d) (r * dscDim d 0 + g.c0 + c)
      (⟨1, rowAt a (x.getD 0 0) (x.getD 2 0) (x.getD 3 0), x.getD 1 0, 1, false⟩ : Seg)))).flatten) ++ out 0
  | 5 =>
    let ax := md % 4
    (if ax = 0 then all 1 a rows
     else ((rows.map (fun r => (List.range (dscDim a ax)).map (fun i =>
        let x := (coords (dscDims d) (r * dscDim d 0)).set ax i
        (⟨1, rowAt a (x.getD 1 0) (x.getD 2 0) (x.getD 3 0), g.c0, g.nc, false⟩ : Seg)))).flatten)) ++ out 0
  | 7 => same 1 ++ (if md ≤ 4 then rows.map (fun r =>
      (⟨2, bcast (dscDims a) (dscDims b) (r * dscDim a 0) / dscDim b 0, if dscDim b 0 = 1 then 0 else g.c0, if dscDim b 0 = 1 then 1 else g.nc,
        false⟩ : Seg)) else []) ++ out 0
  | 0xB => same 0 ++ same 1 ++ same 2 ++ (if md = 2 then same 3 else []) ++ out 0 ++ out 2 ++ (if md = 2 then out 3 else [])
  | 0xD => out 0
  | 0xE =>
    rows.map (fun r => (⟨2, 0, r, 1, false⟩ : Seg)) ++
      rows.filterMap (fun r => match tb.at_ r with
        | some v => if v.toNat < dscDim a 1 then some (⟨1, v.toNat, g.c0, g.nc, false⟩ : Seg) else none
        | none => none) ++ out 0
  | 0xF =>
    all 2 b [0] ++ (List.range (dscRows a)).map (fun r => (⟨1, r, g.c0, g.nc, false⟩ : Seg)) ++
      (List.range (dscRows a)).filterMap (fun r => match tb.at_ r with
        | some v => if v.toNat < dscDim d 1 then some (⟨0, v.toNat, g.c0, g.nc, true⟩ : Seg) else none
        | none => none)
  | _ => same 1 ++ out 0

/-- The failure of an access to n bytes at `a`, seen from core k: a write to another package fails by its acknowledgement among `own`. -/
def segBytes (s : State) (cx k : Nat) (own : List Req) (wr : Bool) (a : Word) (n : Nat) : Option TFail :=
  if wr then
    (vProbe s cx k true n a).or ((own.find? (fun r => r.kind = .store && r.bad && meets r.addr.toNat r.n a.toNat n)).map (fun r =>
      (⟨r.addr, failOf r.op, 1, 0⟩ : TFail)))
  else (vRead s cx k n a own).2

/-- The failure of a segment: its elements, then its block scales. -/
def segFail (s : State) (cx k : Nat) (own : List Req) (d : BitVec 512) (x : Seg) : Option TFail :=
  let lo := x.c0 * dscWid d / 8
  let hi := ((x.c0 + x.nc) * dscWid d + 7) / 8
  let b := if dscBlk d then segBytes s cx k own x.wr (dscBs d + BitVec.ofNat 64 (x.row * dscBpr d + x.c0 / 32)) ((x.c0 + x.nc + 31) / 32 - x.c0 / 32)
    else none
  ((segBytes s cx k own x.wr (dscRow d x.row + BitVec.ofNat 64 lo) (hi - lo)).or b).map (fun f => { f with row := x.row })

/-- What the failing children of a parent at a level leave: the chain of the lowest-numbered with its link, which counts the others
(R305, R306). -/
def failAbove (lv : Nat) (ring : Bool) (xs : List ((Nat × Reg) × Option (TFail × List (BitVec 128)))) : Option (TFail × List (BitVec 128)) :=
  match xs.filterMap (fun x => x.2.map (fun f => (x.1, f))) with
  | [] => none
  | (e, f) :: t => some (f.1, f.2 ++ [faultLink lv ring e.1 f.1.f.code.num (Nat.min 255 t.length) e.2.r0 e.2.c0])

/-- The chain of the first failing leaf under a parent of level n + 1 with range g, nearest level first. -/
def failUnder (ds : List Nat) (op : Nat) (leaf : Reg → Option TFail) : Nat → Reg → Option (TFail × List (BitVec 128))
  | 0, g => (leaf g).map (fun f => (f, []))
  | n + 1, g => failAbove (n + 2) false ((kids ds op (n + 2) g).map (fun e => (e, failUnder ds op leaf n e.2)))

/-- The failing leaf of a word and the links above it; no links for a fault of the parent itself, which reduces the partials of a K split and
writes the elements of a `tscan` (R296, R297). Every child checks the word's entries again (R304). DESIGN CHOICE (log entry 61): every child
is in flight when one fails. -/
def wordFail (s : State) (t : TileW) (own : List Req) (tb : Ten) : Option (TFail × List (BitVec 128)) :=
  let w := t.word
  let op := twOp w
  let lv := twLevel w
  let g := wholeReg (t.desc.getD 0 0)
  let ds := tileDies s t.ctx
  let mine := decide (2 ≤ lv) && decide (op = 6)
  let seg := fun (x : Seg) => segFail s t.ctx (tileView t) own (t.desc.getD x.j 0) x
  let leaf := fun (ks : Option (Nat × Nat)) (g : Reg) =>
    (entFail s t).or (((leafSegs t tb ks g).filter (fun x => !(mine && x.wr))).findSome? seg)
  let kids :=
    if op = 0xC then
      let sides := fun (j : Nat) => placesOf t j
      failAbove 4 true (((sides 1).zip (sides 0)).zipIdx.map (fun e =>
        ((e.2, (⟨0, 1, 0, dscDim e.1.2.2 0⟩ : Reg)),
          ((entFail s t).or ((segFail s t.ctx e.1.1.1 own e.1.1.2 ⟨1, 0, 0, dscDim e.1.1.2 0, false⟩).or
            (segFail s t.ctx e.1.2.1 own e.1.2.2 ⟨0, 0, 0, dscDim e.1.2.2 0, true⟩))).map (fun f => (f, [])))))
    else if twGrouped w then failAbove 4 true ((ringRegs op t.grp.count g).map (fun e => (e, (leaf none e.2).map (fun f => (f, [])))))
    else if twKsplit w ∧ 2 ≤ lv then
      let ps := ksParts ds w (dscDim (t.desc.getD 1 0) 0)
      let kid := fun (q : Nat) => (ps.filter (fun e => e.2.2 = q)).findSome? (fun e => failUnder ds op (leaf (some (e.1, e.2.1))) (lv - 2) g)
      failAbove lv false ((kidNums ds lv).map (fun q => ((q, g), kid q)))
    else failUnder ds op (leaf none) (lv - 1) g
  kids.or (((leafSegs t tb none g).findSome? seg).map (fun f => (f, [])))

/-- The leaf record of a failed access (R305, R306, R390): the level of the leaf, which is the word's own where no link stands above it, its
element row, and the link of the first child. What is found on a target or in the data is no decode fault (R388, R391). -/
def leafInfo (t : TileW) (f : TFail) (ls : List (BitVec 128)) : FaultInfo :=
  { tileAddr t f with
    engine := 8, prec := if t.src = .tix ∨ f.f.code = .uecc ∨ spc f.a = 5 then 1 else 3
    level := if ls.isEmpty then twLevel t.word else 1, ecmd := f.row, pa := f.f.pa, estat := (ls.headD 0).extractLsb' 0 64 }

/-- What an execution writes: rows of codes and block scales per (view core, descriptor), and the entry updates. -/
structure TOut where
  rows : List (Nat × BitVec 512 × List (Nat × List Nat) × Nat × List Nat)
  upd : List EntUpd
  degr : Bool := false
  /-- Partials that go on to the next package of the pod ring: payloads of 64 bytes (R292, R293). -/
  send : List Nat := []

/-- The rows of a full write. -/
def outRows (d : BitVec 512) (r : ScRes) : List (Nat × List Nat) :=
  ((runs (dscDim d 0) r.outs.length (r.outs.map (·.code))).zipIdx).map (fun e => (e.2, e.1))

/-- A full write of one operand. -/
def outFull (t : TileW) (j : Nat) (esrc : Int) (vs : List OutV) (L : Lanes) : (Nat × BitVec 512 × List (Nat × List Nat) × Nat × List Nat) × EntUpd × Lanes :=
  let d := t.desc.getD j 0
  let r := tileWrite d (t.ents.getD j 0) (rndOf (twRound t.word)) esrc (dscDim d 0) vs L
  ((tileView t, d, outRows d r, 0, r.bytes), updOf (dscSci d) r, r.lanes)

def oneOut (t : TileW) (esrc : Int) (r : List OutV × Lanes) : TOut :=
  let x := outFull t 0 esrc r.1 r.2
  { rows := [x.1], upd := [x.2.1] }

/-- The output of a move of whole rows: (row, codes), block bytes of all rows from the source's. -/
def moveOut (t : TileW) (rows : List (Nat × List Nat)) (bs : List (Nat × List Nat)) (satc pois : Nat) : TOut :=
  let d := t.desc.getD 0 0
  { rows := (tileView t, d, rows, 0, []) :: bs.map (fun e => (tileView t, d, [], e.1, e.2))
    upd := [updMove (dscSci d) (t.ents.getD 1 0) satc pois] }

/-- A row of a tensor's codes, and the block bytes of a row. -/
def Ten.row (t : Ten) (r : Nat) : List Nat :=
  (List.range (dscDim t.d 0)).map (fun i => t.codes.getD (r * dscDim t.d 0 + i) 0)
def Ten.rowBs (t : Ten) (r : Nat) : List Nat :=
  if dscBlk t.d then (List.range (dscBpr t.d)).map (fun i => t.bs.getD (r * dscBpr t.d + i) 127) else []

/-- The result of an operation other than a collective, from its sources. DEDUCED (log entry 68): a summed-area table without a live element
leaves the census of an empty set, as R329 has it for every table. -/
def tileOut (t : TileW) (td ta tb tc : Ten) : TOut :=
  let w := t.word
  let md := twMod w
  let d := t.desc.getD 0 0
  let m := rndOf (twRound w)
  let L : Lanes := ⟨t.seed, []⟩
  let all := List.range (dscElems d)
  let dd := dscDims d
  let n := dscDim d 0
  match twOp w with
  | 1 =>
    let sm := if md.testBit 1 then some t.smv else none
    let kp := if twKsplit w then some (fld (twParam w) 0 5) else none
    oneOut t (ta.exp + tb.exp) (all.map (fun i =>
      tmEl i (if md.testBit 0 then tc.at_ i else some 0) (tmTerms ta tb sm (i / n) (i / n / dscDim d 1) (i % n)) kp), L)
  | 2 =>
    let rs := ragRows 0 0 t.rc
    let vs := (rs.map (fun e => (List.range n).map (fun c =>
      tmEl (e.1 * n + c) (if md.testBit 0 then tc.at_ (e.1 * n + c) else some 0) (tmTerms ta tb none e.1 e.2 c) none))).flatten
    let r := tileWrite d (t.ents.getD 0 0) m (ta.exp + tb.exp) n vs L
    let codes := (runs n r.outs.length (r.outs.map (·.code)))
    { rows := [(tileView t, d, (rs.map (·.1)).zip codes, 0, r.bytes)], upd := [updOf (dscSci d) r] }
  | 3 => moveOut t ((List.range (dscRows d)).map (fun r => (r, ta.row r)))
      ((List.range (dscRows d)).map (fun r => (r * dscBpr d, ta.rowBs r))) 0 0
  | 4 =>
    let ad := dscDims ta.d
    moveOut t ((List.range (dscRows d)).map (fun r => (r, (List.range n).map (fun c =>
      let x := coords dd (r * n + c)
      ta.codes.getD (linear ad [x.getD 1 0, x.getD 0 0, x.getD 2 0, x.getD 3 0]) 0)))) [] 0 0
  | 5 => oneOut t ta.exp (formAll (redEl ta m dd (md % 4) (md / 4 % 4)) all L)
  | 6 =>
    let o := oneOut t ta.exp (formAll (scanEl ta m (md % 16) (md.testBit 4)) all L)
    { o with upd := o.upd.map (fun u => if satWord w ∧ u.cenv = false then { u with cen := 31, cenv := true } else u) }
  | 7 =>
    let b := if md ≤ 4 then some tb else none
    oneOut t (ewExp md (twParam w) ta.exp tb.exp) (formAll (ewEl ta b m md) all L)
  | 8 => oneOut t ta.exp (formAll (fun i L => let x := ta.val m i i L; (⟨i, x.1, false⟩, x.2)) all L)
  | 9 => oneOut t (-15) (rowsForm ta m (smaxRow ta.exp) (List.range (dscRows d)) L)
  | 0xA => oneOut t (-16) (rowsForm ta m (normRow (md.testBit 0)) (List.range (dscRows d)) L)
  | 0xB =>
    let r := optAll (optEl md (twParam w) td ta tb (if md = 2 then some tc else none) m) all L
    let x := outFull t 0 td.exp (r.1.map (·.1)) r.2
    let y := outFull t 2 tb.exp (r.1.map (·.2.1)) x.2.2
    let z := outFull t 3 tc.exp (r.1.map (·.2.2)) y.2.2
    if md = 2 then { rows := [x.1, y.1, z.1], upd := [x.2.1, y.2.1, z.2.1] }
    else { rows := [x.1, y.1], upd := [x.2.1, y.2.1] }
  | 0xD =>
    let v := sextI (fld (twParam w) 0 32) 32
    oneOut t (sextI (fld (twParam w) 32 8) 8) (all.map (fun i => ⟨i, some (if md.testBit 0 then v + i else v), false⟩), L)
  | 0xE =>
    let src := fun (r : Nat) => match tb.at_ r with
      | some v => if v.toNat < dscDim ta.d 1 then some v.toNat else none
      | none => none
    let nai := List.replicate n (naiCode (dscWid d) (dscUns d))
    let rs := List.range (dscRows d)
    moveOut t (rs.map (fun r => (r, ((src r).map ta.row).getD nai)))
      (rs.map (fun r => (r * dscBpr d, ((src r).map ta.rowBs).getD (if dscBlk d then List.replicate (dscBpr d) 127 else []))))
      0 (n * rs.countP (fun r => (src r).isNone))
  | _ =>
    let dst := fun (r : Nat) => match tb.at_ r with
      | some v => if v.toNat < dscDim d 1 then some v.toNat else none
      | none => none
    let rs := List.range (dscRows ta.d)
    moveOut t (rs.filterMap (fun r => (dst r).map (fun q => (q, ta.row r))))
      (rs.filterMap (fun r => (dst r).map (fun q => (q * dscBpr d, ta.rowBs r)))) (n * rs.countP (fun r => (dst r).isNone)) 0

/-! ## Collectives (R292, R293) -/

/-- The hops of element i of chunk j, from ring position (j + 1) mod P on (R292). -/
def hops : List (Option Int) → Int → Bool → Option Int × Bool
  | [], c, h => (some c, h)
  | none :: _, _, h => (none, h)
  | some a :: t, c, h =>
    let y := c + a
    let z := sat y 32
    hops t z (h || decide (z ≠ y))

def collSum (as : List (Option Int)) : Option Int × Bool :=
  match as with
  | [] => (some 0, false)
  | none :: _ => (none, false)
  | some a :: t => hops t (sat a 32) (decide (sat a 32 ≠ a))

/-- One element of a chunk: its value, whether it was clamped at a hop, and whether it was sent with a shift or clamped as it was sent. -/
structure CollEl where
  v : Option Int
  hit : Bool := false
  sent : Bool := false
  deriving DecidableEq, Repr

/-- This package's turn at the pod ring for the chunk results `cs` of chunk j (R292, R293): the ring has `rl` packages and this one
stands at `me`. What comes from other packages are free values. Second: the partials that it sends on. -/
def podRing (s : State) (salt rl me j : Nat) (degr : Bool) (cs : List (Option Int × Bool)) : List CollEl × List (Option Int) :=
  let start := (j % rl + 1) % rl
  let pos := (me + rl - start) % rl
  let free := fun i => decE 32 false (freeN s (2 ^ 71 + 2 ^ 32 * salt + i))
  let add := cs.zipIdx.map (fun e => if pos = 0 then e.1 else
    match e.1.1, free e.2 with
    | some c, some f => let y := f + c; (some (sat y 32), e.1.2 || decide (sat y 32 ≠ y))
    | _, _ => (none, e.1.2))
  let sent := if degr then (degrade (add.map (·.1))).map (·.2) else []
  (add.zipIdx.map (fun e => ⟨if pos + 1 = rl then e.1.1 else free (2 ^ 31 + e.2), e.1.2, sent.getD e.2 false⟩), add.map (·.1))

/-- An all-gather's turn at the pod ring for chunk j: the package at which the chunk starts has it, the others receive it (R292). -/
def podGather (s : State) (salt rl me j : Nat) (cs : List (Option Int × Bool)) : List CollEl × List (Option Int) :=
  let start := (j % rl + 1) % rl
  let vs := cs.zipIdx.map (fun e => if me = start then e.1.1 else decE 32 false (freeN s (2 ^ 72 + 2 ^ 32 * salt + e.2)))
  (vs.map (fun v => ⟨v, false, false⟩), if (me + 1) % rl = start then [] else vs)

/-- Partials as they cross the fabric: payloads of sixteen INT32, or of 32 shifted 16-bit values (R293). -/
def wirePayloads (degr : Bool) (cs : List (Option Int)) : List Nat :=
  if degr then (runs 32 cs.length cs).map (fun r =>
    let f := ((r.filterMap id).map bitsOf).foldl Nat.max 0 - 16
    packE 16 (r.map (fun c => encE 16 false (c.map (fun x => sat (shrP x f .rne) 16)))))
  else (runs 16 cs.length cs).map (fun r => packE 32 (r.map (encE 32 false)))

/-- The ring position of this package in the plan of a context: ring length and position (R400). -/
def podPos (s : State) (cx : Nat) : Nat × Nat :=
  let p := planOf s cx
  let me := BitVec.ofNat 12 (myCoord p)
  (Nat.max 1 p.ring.length, (p.ring.findIdx? (· = me)).getD 0)

/-- The terms of one element of a collective: element i of the sources at ring positions `ks`, read in that order with the state of
output element `lane` (R271, R273). -/
def collTerms (as : List Ten) (m : Rnd) (lane i : Nat) : List Nat → Lanes → List (Option Int) × Lanes
  | [], L => ([], L)
  | k :: ks, L =>
    let x := (as.getD k ⟨0, 0, #[], #[]⟩).val m lane i L
    let r := collTerms as m lane i ks x.2
    (x.1 :: r.1, r.2)

/-- Elements of chunk j, which starts after c0 elements, over p members (R292). A reduce-scatter writes them to elements 0 and up of
the member's D. -/
def collEls (as : List Ten) (m : Rnd) (kind p j c0 : Nat) : List Nat → Lanes → List (Option Int × Bool) × Lanes
  | [], L => ([], L)
  | i :: t, L =>
    let r := if kind = 2 then collTerms as m (c0 + i) i [j] L
      else collTerms as m (if kind = 1 then i else c0 + i) (c0 + i) ((List.range p).map (fun h => (j + 1 + h) % p)) L
    let k := collEls as m kind p j c0 t r.2
    ((if kind = 2 then (r.1.headD none, false) else collSum r.1) :: k.1, k.2)

/-- The chunks in order with the states after each; a reduce-scatter has its own elements per member (R273, R292). -/
def collChunks (as : List Ten) (m : Rnd) (kind p n : Nat) (L0 : Lanes) : List Nat → Lanes → List (List (Option Int × Bool) × Lanes)
  | [], _ => []
  | j :: js, L =>
    let c := part n p j
    let r := collEls as m kind p j c.1 (List.range c.2) (if kind = 1 then L0 else L)
    r :: collChunks as m kind p n L0 js r.2

/-- The result of a collective from the members' sources, in ring order. DESIGN CHOICE (log entry 72): an element that a hop has clamped counts
once for each member's D that it is written to, one sent degraded once. -/
def collOut (s : State) (t : TileW) (as : List Ten) : TOut :=
  let w := t.word
  let kind := twMod w % 4
  let d := t.desc.getD 0 0
  let p := t.grp.count
  let n := if kind = 2 then dscDim d 0 else dscDim (t.desc.getD 1 0) 0
  let m := rndOf (twRound w)
  let pod := podPos s t.ctx
  let ring := (twMod w).testBit 2 && decide (1 < pod.1)
  let degr := ring && kind ≠ 2 && t.wire
  let L0 : Lanes := ⟨t.seed, []⟩
  let raw := collChunks as m kind p n L0 (List.range p) L0
  let chunks := raw.zipIdx.map (fun e =>
    if ring then (if kind = 2 then podGather s e.2 pod.1 pod.2 e.2 e.1.1 else podRing s e.2 pod.1 pod.2 e.2 degr e.1.1)
    else (e.1.1.map (fun x => ⟨x.1, x.2, false⟩), []))
  let whole := (chunks.map (·.1)).flatten
  let last := (raw.getLastD ([], L0)).2
  let esrc := (as.headD ⟨0, 0, #[], #[]⟩).exp
  let writes := (List.range p).map (fun k =>
    let vs := if kind = 1 then (chunks.getD k ([], [])).1 else whole
    let L := if kind = 1 then (raw.getD k ([], L0)).2 else last
    let r := tileWrite d (t.ents.getD 0 0) m esrc vs.length (vs.zipIdx.map (fun e => ⟨e.2, e.1.v, e.1.hit⟩)) L
    -- an element sent with a shift counts once, where nothing else has counted it (R63, R293)
    let sent := if kind = 1 ∨ k = 0 then (r.outs.zip vs).countP (fun e => e.2.sent && !e.1.clamped) else 0
    let u := updOf (dscSci d) r
    ((t.grp.order.getD k 0, memberDesc w d k, [(0, r.outs.map (·.code))], 0, r.bytes), { u with satc := u.satc + sent }))
  let us := writes.map (·.2)
  let live := us.filter (·.cenv)
  { rows := writes.map (·.1)
    upd := [{ sci := dscSci d, exp := (us.map (·.exp)).headD 0, cen := (live.map (·.cen)).foldl Nat.min 63, cenv := live ≠ []
              satc := (us.map (·.satc)).sum, poison := (us.map (·.poison)).sum }]
    degr := degr
    send := (chunks.map (fun c => wirePayloads degr c.2)).flatten }

/-! ## Running a word -/

/-- The sources of a word, read (R271), with the first failure. -/
def readSrc (s : State) (t : TileW) (j : Nat) : List Ten × Option TFail :=
  if twUses t.word j then
    let own := s.reqs.filter (fun r => t.far.contains r.id)
    let xs := (placesOf t j).map (fun p => loadTen s t.ctx p.1 own p.2 (t.ents.getD j 0))
    (xs.map (·.1), xs.findSome? (·.2))
  else ([], none)

/-- The writes of a word. -/
def putOut (cx : Nat) : List (Nat × BitVec 512 × List (Nat × List Nat) × Nat × List Nat) → State → State × Option TFail
  | [], s => (s, none)
  | (k, d, rows, n, bs) :: t, s =>
    let x := storeRows cx k d rows s
    let y := storeBs cx k d n bs x.1
    let z := putOut cx t y.1
    (z.1, match x.2 with
      | some f => some f
      | none => match y.2 with
        | some f => some f
        | none => z.2)

/-- The requests of a word to other packages (R396). -/
def farReq (s : State) (t : TileW) (k : ReqKind) : Req :=
  { id := 0, core := 1024 + t.core, kind := k, addr := 0, loc := none, n := 0, slack := twSlack t.word, ltag := t.ltag, ctx := t.ctx
    gen := (ctx s t.ctx).gen, dst := .gen, slot := t.slot, off := t.off, eng := 8 }

/-- The pieces of a range, where it lies in another package. -/
def farRange (s : State) (cx : Nat) (a : Word) (n v : Nat) : List (Word × Nat × Nat) :=
  if offPackage s cx a then cutVal (cutLines n a n) v else []

/-- What a word must read in other packages. -/
def farSrc (s : State) (t : TileW) : List (Word × Nat × Nat) :=
  let js := [0, 1, 2, 3].filter (fun j => twUses t.word j && (decide (j ≠ 0) || decide (twOp t.word = 0xB)))
  ((js.map (placesOf t)).flatten.map (fun p =>
    ((List.range (dscRows p.2)).map (fun r => farRange s t.ctx (dscRow p.2 r) (dscRowB p.2) 0)).flatten ++
      (if dscBlk p.2 then farRange s t.ctx (dscBs p.2) (dscRows p.2 * dscBpr p.2) 0 else []))).flatten

/-- What a word writes in other packages. -/
def farOut (s : State) (t : TileW) (rows : List (Nat × BitVec 512 × List (Nat × List Nat) × Nat × List Nat)) : List (Word × Nat × Nat) :=
  (rows.map (fun o =>
    let d := o.2.1
    (o.2.2.1.map (fun e =>
      let v := rowVal s t.ctx o.1 d e.1 e.2
      farRange s t.ctx (dscRow d e.1) v.1 v.2)).flatten ++
      (if dscBlk d then farRange s t.ctx (dscBs d + BitVec.ofNat 64 o.2.2.2.1) o.2.2.2.2.length (packE 8 o.2.2.2.2) else []))).flatten

/-- The partials of a collective leave for the next package of the ring, as circuit flits where the word says so; the address names that
package (R292, R293, R402). -/
def podSend (t : TileW) (ps : List Nat) (s : State) : State :=
  let p := planOf s t.ctx
  let x := podPos s t.ctx
  let c := p.ring.getD ((x.2 + 1) % x.1) 0
  let a : Word := BitVec.ofNat 64 (5 * 2 ^ 60 + fld c 0 4 * 2 ^ 56 + fld c 4 4 * 2 ^ 52 + fld c 8 4 * 2 ^ 48)
  ps.foldl (fun s v =>
    addReq { s with nextId := s.nextId + 1 }
      { farReq s t .store with
        id := s.nextId, addr := a, n := 64, wr := bytesOf 0 64 v, h := 38, dst := .none
        op := BitVec.ofNat 64 (if twCircuit t.word then twGroup t.word + 1 else 0) }) s

/-- The sources in other packages are asked for. -/
def tileFetch (s : State) (t : TileW) : State :=
  let r := farReqs (farReq s t .load) (farSrc s t) s
  bump (setTile r.1 t.id (fun u => { u with stage := .fetch, far := r.2, cores := childCores s t }))

/-- Written operands whose elements end undefined because of an overlap (R274). DESIGN CHOICE (log entry 75): where `topt` takes D and a moment
that are one tensor under different entries, both are written and the later operand's write stands. -/
def overlapped (s : State) (t : TileW) : List (Nat × BitVec 512) :=
  let w := t.word
  let op := twOp w
  let ops := ((List.range 4).filter (twUses w)).map (fun j => (placesOf t j).zipIdx.map (fun p => (j, p.2, p.1.1, p.1.2)))
  let all := ops.flatten
  let pairOk := fun (i j : Nat) (d e : BitVec 512) => sameTen d e &&
    (op = 7 || op = 8 || op = 0xB || (op = 1 && ((i = 0 && j = 3) || (i = 3 && j = 0))))
  ((all.filter (fun x => (writtenOps w).contains x.1)).filter (fun x => all.any (fun y =>
    !(x.1 = y.1 && x.2.1 = y.2.1) && !pairOk x.1 y.1 x.2.2.2 y.2.2.2 &&
      rangesMeet (tenRanges s t.ctx x.2.2.1 x.2.2.2) (tenRanges s t.ctx y.2.2.1 y.2.2.2)))).map (·.2.2)

/-- The staging regions of a word's launch hold undefined values afterwards (R302). -/
def stageFree (s : State) (t : TileW) : State :=
  match launchOf s t.ltag with
  | none => s
  | some l =>
    let lv := twLevel t.word
    if lv < 2 ∨ twOp t.word = 0xC ∨ twOp t.word = 0x10 then s else
    let fill := fun (s : State) (n : Nat) (loc : Nat → Nat) =>
      (List.range n).foldl (fun s i => wrB s (loc i) (BitVec.ofNat 8 (freeN s (loc i)))) s
    let cs := t.cores
    let s := cs.foldl (fun s k => fill s (fld l.l7 21 22) (fun i => spLoc k (fld l.l7 0 21 + i))) s
    let s := if lv < 3 ∨ twGrouped t.word then s else
      ((cs.map cluOf).dedup).foldl (fun s c => fill s (fld l.l6 24 25) (fun i => winLoc (c / 16) (c % 16) (fld l.l6 0 24 + i))) s
    if lv < 4 ∨ twGrouped t.word then s else
      ((cs.map dieOf).dedup).foldl (fun s d => fill s (fld l.l5 28 28) (fun i => ringLoc d (fld l.l5 0 28 + i))) s

/-- The word runs: its elements are written, those of another package by requests; or an access fails in a child (R277, R305). -/
def tileRun (s : State) (t : TileW) : State :=
  let cs := if t.stage = .fetch then t.cores else childCores s t
  let done := fun (s : State) (u : List EntUpd) (g : Bool) (far cs : List Nat) =>
    bump (setTile s t.id (fun t => { t with stage := .done, upd := u, degr := g, far := far, cores := cs }))
  if twProbe t.word ∨ twOp t.word = 0x10 then done s [] false [] []
  else if t.stage = .accepted ∧ (farSrc s t).isEmpty = false then tileFetch s t
  else
    let rd := fun j => readSrc s t j
    let own := s.reqs.filter (fun r => t.far.contains r.id)
    let fail := fun (f : TFail) =>
      let x := (wordFail s t own ((rd 2).1.headD ⟨t.desc.getD 2 0, 0, #[], #[]⟩)).getD (f, [])
      bump (setTile (countErr (dropReqs s t.far) x.1.f.code) t.id (fun t =>
        { t with stage := .child (leafInfo t x.1 x.2) x.2, far := [], cores := cs }))
    let s := dropReqs s t.far
    match (entFail s t).or ([0, 1, 2, 3].findSome? (fun j => if j = 0 ∧ twOp t.word ≠ 0xB then none else (rd j).2)) with
    | some f => fail f
    | none =>
      let hit := opRanges s t
      let ten := fun j => (rd j).1.headD ⟨t.desc.getD j 0, scExp (t.ents.getD j 0), #[], #[]⟩
      let o := if twOp t.word = 0xC then collOut s t (rd 1).1 else tileOut t (ten 0) (ten 1) (ten 2) (ten 3)
      let x := putOut t.ctx o.rows s
      match x.2 with
      | some f => fail f
      | none =>
        let r := farReqs (farReq s t .store) (farOut s t o.rows) x.1
        let s := (overlapped s t).zipIdx.foldl (fun s p => scramble t.ctx p.1.1 p.1.2 p.2 s) (podSend t o.send r.1)
        done (stageFree (wordTouch s t.id hit) { t with cores := cs }) o.upd o.degr r.2 cs

/-- One of the sixteen operations: the word of that OP runs when it may start. -/
def tileStep (op id : Nat) (s : State) : State :=
  match findTile s id with
  | some t => if twOp t.word = op ∧ tileReady s t then tileRun s t else s
  | none => s

/-- The elements of every operand that a word writes become undefined (R302, R305). -/
def spoilAll (s : State) (t : TileW) : State :=
  (((writtenOps t.word).map (placesOf t)).flatten).zipIdx.foldl (fun s p => scramble t.ctx p.1.1 p.1.2 p.2 s) s

/-- CHILD_FAULT: the parent fails with the chain; the written operands' elements are undefined (R305). -/
def childFault (s : State) (id : Nat) : State :=
  match findTile s id with
  | some t =>
    match t.stage with
    | .child i ls => bump (setTile (stageFree (spoilAll s t) t) id (fun t => { t with stage := .failed i ls }))
    | _ => s
  | none => s

/-! ## Completion (R277, R200, R201, R306) -/

/-- EXP, CEN, CENV, SATC and POISON of an entry become undefined (R49). -/
def entFree (v : Nat) (e : Word) : Word := setFld (setFld e 0 15 (v % 2 ^ 15)) 32 32 (v / 2 ^ 15 % 2 ^ 32)

/-- The entry updates of a word, each one atomic update at the entry's home (R74); `bad`: their results are undefined (R49). -/
def putEnts (s : State) (t : TileW) (bad : Bool) : State :=
  t.upd.foldl (fun s u =>
    let a := entAddr s t.ctx u.sci
    let e := BitVec.ofNat 64 (vRead s t.ctx (tileView t) 8 a).1
    let v := if bad then entFree (freeN s (2 ^ 76 + u.sci)) e else entAfter e u
    wordTouch (tileStore t.ctx (tileView t) 8 a v.toNat s).1 t.id (rangeLocs s t.ctx (tileView t) a 8)) s

/-- What a word run by `tix` leaves of the task's tile files, as long as the task waits for it (R303); a probe writes nothing (R278). -/
def tixFiles (s : State) (t : TileW) : State :=
  if twProbe t.word ∨ (core s t.core).mwait ≠ .tix t.id then s else
  modCore s t.core (fun c =>
    { c with
      t := (List.range 16).foldl (fun x i => tset 0 x i (BitVec.ofNat 131072 (freeN s (2 ^ 73 + i)))) c.t
      bt := (List.range 64).foldl (fun x i => tset 0 x i (BitVec.ofNat 131072 (freeN s (2 ^ 74 + i)))) c.bt
      smv := if twOp t.word = 1 ∧ (twMod t.word).testBit 1 then BitVec.ofNat 512 (freeN s (2 ^ 75)) else c.smv })

/-- The report-only record of a failed posted or launched word (R306). -/
def tileReport (s : State) (t : TileW) (i : FaultInfo) (ls : List (BitVec 128)) : State :=
  match t.src with
  | .tpost _ f => reportLate s t.core t.ctx t.ltag f t.off i ls
  | _ => reportCtx s t.ctx i t.ltag 0 0 ls

/-- A word with degraded partials marks its launch (R293, R363). -/
def markDegr (s : State) (t : TileW) : State :=
  if t.degr then
    { s with hub := { s.hub with launches := s.hub.launches.map (fun l => if l.tag = t.ltag then { l with degr := true } else l) } }
  else s

/-- How a word that has run ends: with the failure of a write to another package, in the chain of the children that the failing bytes belong
to; or with that of an entry, which is the parent's own (R277, R305). -/
def doneFail (s : State) (t : TileW) : Option (FaultInfo × List (BitVec 128)) :=
  let own := s.reqs.filter (fun r => t.far.contains r.id)
  let f : Option (TFail × List (BitVec 128)) := match own.find? (·.bad) with
    | some r =>
      some ((wordFail s t own ((readSrc s t 2).1.headD ⟨t.desc.getD 2 0, 0, #[], #[]⟩)).getD (⟨r.addr, failOf r.op, 1, 0⟩, []))
    | none => if t.upd.isEmpty then none else (entFail s t).map (fun f => (f, []))
  f.map (fun x => (leafInfo t x.1 x.2, x.2))

/-- The trap that the failure of a word run by `tix` leaves: at the next bundle, an SVI instruction at itself (R201, R306, R318). -/
def tixTrap (t : TileW) (i : FaultInfo) (ls : List (BitVec 128)) : Trap :=
  { info := { i with prec := if t.slot = 0 then 0 else 1, slot := t.slot }, next := decide (t.slot = 0), off := t.off, links := ls }

/-- TILE_WORD_COMPLETION. -/
def tileComplete (s : State) (id : Nat) : State :=
  match findTile s id with
  | none => s
  | some t =>
    let out : Option (Option (FaultInfo × List (BitVec 128))) := match t.stage with
      | .done => if performed s t.far = false then none else some (doneFail s t)
      | .failed i ls => some (some (i, ls))
      | _ => none
    match out with
    | none => s
    | some bad =>
      let grpFree := twGrouped t.word && (ctx s t.ctx).grpBroken
      let s := if t.spoilt ∨ grpFree ∨ (t.stage = .done ∧ bad.isSome) then spoilAll (dropReqs s t.far) t else dropReqs s t.far
      let s := match bad with
        | none => putEnts s t grpFree
        | some f => if t.src = TFrom.tix then s else tileReport s t f.1 f.2
      let s := { s with tiles := s.tiles.filter (fun u => u.id ≠ id) }
      bump (match t.src with
        | .tpost loc f =>
          addComp (markDegr s t) loc 8 (BitVec.ofNat 1024 (b2n bad.isSome)) f (dieOf t.core) (some t.core) t.ctx t.ltag (twSlack t.word) false
        | .tix =>
          let s := tixFiles s t
          match bad, decide ((core s t.core).mwait = .tix id) with
          | some f, true =>
            lateTrap (modCore s t.core (fun c =>
              { c with mwait := .none, resume := if t.slot = 0 ∧ c.trap = none then t.npc else c.resume })) t.core (tixTrap t f.1 f.2)
          | none, true => modCore s t.core (fun c => { c with mwait := .none })
          | some f, false => let r := tixTrap t f.1 f.2; report s t.core r.info true r.off r.links
          | none, false => s
        | .launch =>
          { s with hub := { s.hub with launches := s.hub.launches.map (fun l =>
              if l.word = some id then { l with word := none, degr := l.degr || t.degr } else l) } })

/-! ## Pushing and posting from the M slot (R199 to R202) -/

/-- n bytes at a location, or the uncorrectable error among them (R428). -/
def postData (s : State) (l n : Nat) : Except WFail Nat :=
  match errIn s l n with
  | some w => .error (ueccFail 0 w)
  | none => .ok (rd s l n)

/-- What the read of n bytes at step 4 returns (R199, R202): the core's own scratchpad answers at once (R91), every other home by a reply to the
request that the core sends; `none` while there is none. -/
def postRead (s : State) (a : Word) (n : Nat) : Except WFail (Option Nat) :=
  match chk s a n n false with
  | .error f => .error f
  | .ok w =>
    match spc a, w with
    | 1, .loc l => (postData s l n).map some
    | _, _ => match (cur s).prd with
      | some (_, some (.data d)) => .ok (some (d.toNat % 2 ^ (8 * n)))
      | some (_, some (.fail c lvl pa)) => .error ⟨c, lvl, pa⟩
      | _ => .ok none

/-- The core's own scratchpad is free of earlier writes that are still to land. -/
def postAdmit (s : State) (a : Word) : Bool := ownFree s a

/-- The read must be asked for, or its reply awaited. -/
def postFar (s : State) (a : Word) (n : Nat) : Option (Word × Nat) :=
  match postRead s a n with
  | .ok none => some (a, n)
  | _ => none

/-- The read of the core's own scratchpad is an access of software (R302). -/
def postTouch (pre : State) (a : Word) (n : Nat) (s : State) : State :=
  match spc a, chk pre a n n false with
  | 1, .ok (.loc l) => softTouch s l n
  | _, _ => s

/-- A record of 512 bits (R25). -/
def recOf (v : Nat) : Rec :=
  let w := fun i => BitVec.ofNat 64 (v / 2 ^ (64 * i))
  ⟨w 0, w 1, w 2, w 3, w 4, w 5, w 6, w 7⟩

/-- The record of a `qpush` with its FRAME canonical (R28). -/
def pushedRec (s : State) (a : Word) : Rec :=
  let r := match postRead s a 64 with
    | .ok (some v) => recOf v
    | _ => {}
  { r with w1 := frameCanon s.cur r.w1 }

def opQpush (a : BitVec 6) (g : BitVec 4) : SlotOp :=
  { slot := 3, guard := g, reqs := fun _ => (1, 0), commits := fun _ => true
    admits := fun s => postAdmit s (rx6 s a)
    pread := fun s => postFar s (rx6 s a) 64
    check := fun s _ => match postRead s (rx6 s a) 64 with
      | .error f => some (addrFault 3 2 0 (rx6 s a) f)
      | .ok _ =>
        let c := cur s
        let r := pushedRec s (rx6 s a)
        match recCheck (entNow s c) (dieOf s.cur) (!sysLevel c) r with
        | some e => some (mFault e (rx6 s a))
        | none => match pushOk s c.ctx (dieOf s.cur) s.cur c.ltag r with
          | .ok _ => none
          | .fail e => some (mFault e (rx6 s a))
    eff := fun pre s =>
      let c := cur pre
      let s := postTouch pre (rx6 pre a) 64 s
      match pushOk s c.ctx (dieOf pre.cur) pre.cur c.ltag (pushedRec pre (rx6 pre a)) with
      | .ok s => s
      | .fail _ => s }

/-- The tile word at an address. -/
def postedWord (s : State) (a : Word) : Bundle :=
  match postRead s a 32 with
  | .ok (some v) => BitVec.ofNat 256 v
  | _ => 0

/-- A word of the current core as it is posted or run. -/
def newWord (pre s : State) (a : Word) (src : TFrom) : TileW :=
  let c := cur pre
  { id := s.nextId, word := postedWord pre a, src := src, core := pre.cur, ctx := c.ctx, ltag := c.ltag, seed := rseed pre
    stage := .posted, off := repOff pre c, slot := if (sviOf pre c).isSome then 0 else 3, npc := c.pc }

def opTpost (c a : BitVec 6) (g : BitVec 4) : SlotOp :=
  { slot := 3, guard := g, reqs := fun _ => (1, 0), commits := fun _ => true, issued := fun _ => 1
    admits := fun s => postAdmit s (rx6 s a)
    pread := fun s => postFar s (rx6 s a) 32
    check := fun s _ => match pairFault (chkRows s (rx6 s a) 32 32) (chkXl s (rx6 s a) false) s (rx6 s c) 8 .framebad with
      | some e => some (mPairFault (rx6 s a) (rx6 s c) 0 e)
      | none => match postRead s (rx6 s a) 32 with
        | .error f => some (addrFault 3 2 0 (rx6 s a) f)
        | .ok _ =>
          let l := twLevel (postedWord s (rx6 s a))
          if l < 2 ∨ 4 < l then some (mFault .tiwlevel (rx6 s a))
          else match slotOwn s (rx6 s c) 8 with
            | .error e => some (mFault e (rx6 s c))
            | .ok _ => none
    eff := fun pre s =>
      let s := postTouch pre (rx6 pre a) 32 s
      let t := newWord pre s (rx6 pre a) (.tpost (slotLoc pre (rx6 pre c) 8) (cur pre).trec.w1)
      { s with nextId := s.nextId + 1, tiles := s.tiles ++ [t] } }

def opTix (a : BitVec 6) (g : BitVec 4) : SlotOp :=
  { slot := 3, guard := g, reqs := fun _ => (1, 0), commits := fun _ => true
    admits := fun s => postAdmit s (rx6 s a)
    pread := fun s => postFar s (rx6 s a) 32
    check := fun s _ => match postRead s (rx6 s a) 32 with
      | .error f => some (addrFault 3 2 0 (rx6 s a) f)
      | .ok _ =>
        let w := postedWord s (rx6 s a)
        if 1 < twLevel w then some (mFault .tiwlevel (rx6 s a))
        else if twAsync w then some (mFault .tiwflag (rx6 s a))
        else match tileDecode s (newWord s s (rx6 s a) .tix) with
          | .error i => some i
          | .ok _ => none
    eff := fun pre s =>
      let s := postTouch pre (rx6 pre a) 32 s
      let t := newWord pre s (rx6 pre a) .tix
      let t' := match tileDecode pre t with
        | .ok u => { u with stage := .accepted, deps := tileDeps pre t, held := barHeld pre t }
        | .error _ => t
      let s := wordTouch { s with nextId := s.nextId + 1, tiles := s.tiles ++ [t'] } t.id (decRanges pre t')
      let s := modCur s (fun c => { c with mwait := .tix t.id })
      if sameBar t' t' then barEpoch s t' else s }

/-! ## Meanings -/

def execQpush (a : BitVec 6) (g : BitVec 4) (s : State) : Host.Outcome State Fault Refusal := issue1 (opQpush a g) s
def execTpost (c a : BitVec 6) (g : BitVec 4) (s : State) : Host.Outcome State Fault Refusal := issue1 (opTpost c a g) s
def execTix (a : BitVec 6) (g : BitVec 4) (s : State) : Host.Outcome State Fault Refusal := issue1 (opTix a g) s
def execTileWordAccept (id : Nat) (s : State) : Host.Outcome State Fault Refusal := .next (tileAccept s id)
def execTileWordCompletion (id : Nat) (s : State) : Host.Outcome State Fault Refusal := .next (tileComplete s id)
def execChildFault (id : Nat) (s : State) : Host.Outcome State Fault Refusal := .next (childFault s id)
def execTmma (id : Nat) (s : State) : Host.Outcome State Fault Refusal := .next (tileStep 1 id s)
def execTmmag (id : Nat) (s : State) : Host.Outcome State Fault Refusal := .next (tileStep 2 id s)
def execTcopy (id : Nat) (s : State) : Host.Outcome State Fault Refusal := .next (tileStep 3 id s)
def execTtrans (id : Nat) (s : State) : Host.Outcome State Fault Refusal := .next (tileStep 4 id s)
def execTred (id : Nat) (s : State) : Host.Outcome State Fault Refusal := .next (tileStep 5 id s)
def execTscan (id : Nat) (s : State) : Host.Outcome State Fault Refusal := .next (tileStep 6 id s)
def execTew (id : Nat) (s : State) : Host.Outcome State Fault Refusal := .next (tileStep 7 id s)
def execTqnt (id : Nat) (s : State) : Host.Outcome State Fault Refusal := .next (tileStep 8 id s)
def execTsmax (id : Nat) (s : State) : Host.Outcome State Fault Refusal := .next (tileStep 9 id s)
def execTnorm (id : Nat) (s : State) : Host.Outcome State Fault Refusal := .next (tileStep 0xA id s)
def execTopt (id : Nat) (s : State) : Host.Outcome State Fault Refusal := .next (tileStep 0xB id s)
def execTcoll (id : Nat) (s : State) : Host.Outcome State Fault Refusal := .next (tileStep 0xC id s)
def execTfill (id : Nat) (s : State) : Host.Outcome State Fault Refusal := .next (tileStep 0xD id s)
def execTgath (id : Nat) (s : State) : Host.Outcome State Fault Refusal := .next (tileStep 0xE id s)
def execTscat (id : Nat) (s : State) : Host.Outcome State Fault Refusal := .next (tileStep 0xF id s)
def execTbar (id : Nat) (s : State) : Host.Outcome State Fault Refusal := .next (tileStep 0x10 id s)

end Sys2Proof.Machine
end

