-- ==== Sys2Proof/Machine/Svi.lean ====
section
/-! DEFINITION. SVI but for its vector instructions (chapter 11): RV64I, M, Zicsr, the transfers and Xagael. An SVI word stands for 32
bytes of its translation, so that the PC of a task names the SVI word it is at. -/
namespace Sys2Proof.Machine

/-- The issue of one SVI instruction: an SVI load gives its value to the next SVI instruction, so that one waits for every result
in flight (R311). Faults are those of slot 0 (R318). -/
def sviIssue (o : SlotOp) (s : State) : Host.Outcome State Fault Refusal :=
  .next (if (cur s).land.isEmpty && (cur s).pend.isEmpty then issue [{ o with guard := 0 }] s else setCur s (tick (cur s)))

/-- The image and the SVI PC that the current core is at (R309); outside an image both are empty. -/
def sviImg (s : State) : SviImg := (sviOf s (cur s)).getD {}
def sviAt (s : State) : Nat := sviPc (sviImg s) (cur s)

/-- An integer register of SVI (R308). -/
def rx5n (s : State) (d : BitVec 5) : Word := rx s d.toNat

/-- A fault of an SVI instruction. -/
def sFault (c : Code) (a : Word := 0) : FaultInfo := { code := c, slot := 0, engine := 0, addr := a }

/-! ## RV64I arithmetic (R307, Table 1) -/

/-- A 32-bit result, sign-extended. -/
def w32 (x : Word) : Word := (x.setWidth 32).signExtend 64

/-- The functions of RV64I; the W forms work on the low words. -/
def sviAlu (f : SviAlu) (w : Bool) (a b : Word) : Word :=
  let sh := if w then fld b 0 5 else fld b 0 6
  match f, w with
  | .add, _ => if w then w32 (a + b) else a + b
  | .sub, _ => if w then w32 (a - b) else a - b
  | .sll, _ => if w then w32 (a <<< sh) else a <<< sh
  | .srl, false => a >>> sh
  | .srl, true => ((a.setWidth 32) >>> sh).signExtend 64
  | .sra, false => a.sshiftRight sh
  | .sra, true => ((a.setWidth 32).sshiftRight sh).signExtend 64
  | .slt, _ => if a.slt b then 1 else 0
  | .sltu, _ => if a.ult b then 1 else 0
  | .xor, _ => a ^^^ b
  | .or, _ => a ||| b
  | .and, _ => a &&& b

/-- A result in rd, there for the next SVI instruction. -/
def opX5 (rd : BitVec 5) (v : State → Word) : SlotOp := opS 1 0 1 rd.toNat v

def opSviInt : SviInt → SlotOp
  | .lui rd imm => opX5 rd (fun _ => ((imm ++ (0 : BitVec 12)) : Word32).signExtend 64)
  | .auipc rd imm => opX5 rd (fun s => BitVec.ofNat 64 (sviAt s) + ((imm ++ (0 : BitVec 12)) : Word32).signExtend 64)
  | .opImm f w rd rs1 imm => opX5 rd (fun s => sviAlu f w (rx5n s rs1) (imm.signExtend 64))
  | .opReg f w rd rs1 rs2 => opX5 rd (fun s => sviAlu f w (rx5n s rs1) (rx5n s rs2))

/-! ## Transfers (R309) -/

/-- A target starts an instruction of the image, or PCALIGN. -/
def sviTarget (s : State) (t : Word) : Option FaultInfo :=
  if t.toNat % 4 ≠ 0 ∨ (sviImg s).size ≤ t.toNat then some { sFault .pcalign t with acc := 2 } else none

/-- The arena offset of an SVI PC. -/
def sviGo (s : State) (t : Word) : Word := BitVec.ofNat 64 ((sviImg s).off + 8 * t.toNat)

def sviCond (c : SviCond) (a b : Word) : Bool :=
  match c with
  | .eq => a = b
  | .ne => a ≠ b
  | .lt => a.slt b
  | .ge => !a.slt b
  | .ltu => a.ult b
  | .geu => !a.ult b

/-- Where a transfer goes, `none` for a branch not taken. -/
def sviJumpTo (s : State) : SviJump → Option Word
  | .jal _ off => some (BitVec.ofNat 64 (sviAt s) + (off.signExtend 64) * 2)
  | .jalr _ rs1 imm => some ((rx5n s rs1 + imm.signExtend 64) &&& 0xFFFFFFFFFFFFFFFE#64)
  | .branch c rs1 rs2 off =>
    if sviCond c (rx5n s rs1) (rx5n s rs2) then some (BitVec.ofNat 64 (sviAt s) + (off.signExtend 64) * 2) else none

/-- The link register of a transfer. -/
def sviLink : SviJump → Nat
  | .jal rd _ => rd.toNat
  | .jalr rd _ _ => rd.toNat
  | .branch _ _ _ _ => 0

def opSviJump (j : SviJump) : SlotOp :=
  { slot := 0, guard := 0
    check := fun s _ => (sviJumpTo s j).bind (sviTarget s)
    eff := fun pre s => wx s 1 (sviLink j) (BitVec.ofNat 64 (sviAt pre + 4))
    ctl := fun s => match sviJumpTo s j with
      | some t => .jump (sviGo s t)
      | none => .seq }

/-! ## Loads, stores, fences (R311) -/

/-- The landing class of the translator's choice: one whose delay is zero (late data then freezes the core, R90). -/
def sviLt : Nat := 16

def opSviMem : SviMem → SlotOp
  | .load z uns rd rs1 imm =>
    opLoad (rd.setWidth 6) (fun s => rx5n s rs1 + imm.signExtend 64) (2 ^ z.toNat) (!uns) sviLt 0
  | .store z rs1 rs2 imm => opStore (rs2.setWidth 6) (fun s => rx5n s rs1 + imm.signExtend 64) (2 ^ z.toNat) 0

def opSviFence (f : SviFence) : SlotOp := if f.pred ≠ 0 ∧ f.succ ≠ 0 then opFence 4 0 else opNop 3

/-! ## Multiplication and division (R307, R170) -/

def sviMulFn (f : SviMulFn) (a b : Word) : Word :=
  match f with
  | .mul => a * b
  | .mulh => mulHi a.toInt b.toInt
  | .mulhsu => mulHi a.toInt b.toNat
  | .mulhu => mulHi a.toNat b.toNat
  | .div => divS a b
  | .divu => divU a b
  | .rem => remS a b
  | .remu => remU a b

/-- The W forms divide the low words, extended by their signedness. -/
def sviMulW (f : SviMulFn) (a b : Word) : Word :=
  let u := fun (x : Word) => (x.setWidth 32).setWidth 64
  match f with
  | .mul => w32 (a * b)
  | .divu => if u b = 0 then BitVec.allOnes 64 else w32 (divU (u a) (u b))
  | .remu => if u b = 0 then w32 a else w32 (remU (u a) (u b))
  | .div => w32 (divS (w32 a) (w32 b))
  | .rem => w32 (remS (w32 a) (w32 b))
  | _ => w32 (a * b)

def opSviMul (m : SviMul) : SlotOp :=
  opX5 m.rd (fun s => if m.w then sviMulW m.f (rx5n s m.rs1) (rx5n s m.rs2) else sviMulFn m.f (rx5n s m.rs1) (rx5n s m.rs2))

/-! ## Status registers (R312, Table 2) -/

/-- vxsat in bit 0 and vxrm in bits 2 and 1, as vcsr holds them. -/
def rvx (s : State) : BitVec 3 := tget 0 s.vx s.cur
def wvx (s : State) (v : BitVec 3) : State := { s with vx := tset 0 s.vx s.cur v }

/-- VTYPE in the RISC-V layout, vill in bit 63 (R312). -/
def rvVtype (c : Core) : Word :=
  let t := c.vtype
  if bit t 31 then BitVec.ofNat 64 (2 ^ 63) else BitVec.ofNat 64 (fld t 2 3 + 8 * fld t 0 2 + 64 * fld t 5 2)

/-- The CSR numbers of Table 2. -/
def sviCsrOk (n : Nat) : Bool :=
  n = 0x008 || n = 0x009 || n = 0x00A || n = 0x00F || n = 0xC00 || n = 0xC01 || n = 0xC20 || n = 0xC21 || n = 0xC22 ||
    (0x800 ≤ n && n < 0x880 && csrUser (n - 0x800))

def sviCsrRead (s : State) (n : Nat) : Word :=
  if n = 0x008 then 0
  else if n = 0x009 then BitVec.ofNat 64 (fld (rvx s) 0 1)
  else if n = 0x00A then BitVec.ofNat 64 (fld (rvx s) 1 2)
  else if n = 0x00F then (rvx s).setWidth 64
  else if n = 0xC00 then BitVec.ofNat 64 (cur s).ctime
  else if n = 0xC01 then BitVec.ofNat 64 (cur s).wtime
  else if n = 0xC20 then (cur s).vl.setWidth 64
  else if n = 0xC21 then rvVtype (cur s)
  else if n = 0xC22 then 512
  else csrRead s (n - 0x800)

/-- The value a Zicsr instruction writes; `none` when it writes nothing: the set and clear forms with a zero field. -/
def sviCsrNew (s : State) (o : SviCsr) : Option Word :=
  let x : Word := if o.imm then o.src.setWidth 64 else rx5n s o.src
  let old := sviCsrRead s o.csr.toNat
  match o.f with
  | .rw => some x
  | .rs => if o.src = 0 then none else some (old ||| x)
  | .rc => if o.src = 0 then none else some (old &&& ~~~x)

/-- The faults of a CSR access (R312). -/
def sviCsrCheck (s : State) (o : SviCsr) : Option FaultInfo :=
  let n := o.csr.toNat
  if sviCsrOk n = false then some (sFault .sviill (((encode (.sviCsrAccess o)).getD 0).setWidth 64))
  else match sviCsrNew s o with
  | none => none
  | some v =>
    if n = 0x008 then (if v = 0 then none else some (sFault .sviill (((encode (.sviCsrAccess o)).getD 0).setWidth 64)))
    else if n = 0x009 ∨ n = 0x00A ∨ n = 0x00F then none
    else if 0xC00 ≤ n then some (sFault .priv)
    else csrWrCheck s (n - 0x800) (o.f = .rc)

/-- The write of a CSR. -/
def sviCsrPut (pre s : State) (o : SviCsr) (v : Word) : State :=
  let n := o.csr.toNat
  if n = 0x009 then wvx s (setFld (rvx s) 0 1 (fld v 0 1))
  else if n = 0x00A then wvx s (setFld (rvx s) 1 2 (fld v 0 2))
  else if n = 0x00F then wvx s (BitVec.ofNat 3 v.toNat)
  else if 0x800 ≤ n ∧ n < 0xC00 then
    (if o.f = .rc then csrClear pre s (n - 0x800) (if o.imm then o.src.setWidth 64 else rx5n pre o.src) else csrPut s (n - 0x800) v)
  else s

def opSviCsr (o : SviCsr) : SlotOp :=
  { slot := 0, guard := 0, check := fun s _ => sviCsrCheck s o
    eff := fun pre s =>
      let s := match sviCsrNew pre o with
        | some v => sviCsrPut pre s o v
        | none => s
      wx s 1 o.rd.toNat (sviCsrRead pre o.csr.toNat) }

/-! ## Excluded words (R310) -/

def opSviill (w : BitVec 32) : SlotOp :=
  { slot := 0, guard := 0, check := fun _ _ => some (sFault .sviill (w.setWidth 64)) }

/-! ## Xagael (R315 to R317) -/

/-- The operands of `ag.amo` (R316). -/
def agIn (h b a d : BitVec 5) (s : State) : AmoIn :=
  { h := h.toNat, a := rx5n s a, at_ := rx s (a.toNat + 1), op := rx5n s b, op2 := rx s (b.toNat + 1), op3 := rx s (b.toNat + 2)
    op4 := rx s (b.toNat + 3), d := d.toNat }

/-- The native target of `ag.cont` (R317). -/
def agTarget (s : State) (i : BitVec 20) : Word := BitVec.ofNat 64 (sviAt s) + (i.signExtend 64) * 4

def opAgCont (i : BitVec 20) : SlotOp :=
  { slot := 0, guard := 0
    check := fun s n => match sviTarget s (agTarget s i) with
      | some f => some f
      | none => endCheck s n false
    ctl := fun s => .cont (sviGo s (agTarget s i)) }

/-! ## Meanings -/

def execSviIntegerOp (o : SviInt) (s : State) : Host.Outcome State Fault Refusal := sviIssue (opSviInt o) s
def execSviTransfer (o : SviJump) (s : State) : Host.Outcome State Fault Refusal := sviIssue (opSviJump o) s
def execSviLoadStore (o : SviMem) (s : State) : Host.Outcome State Fault Refusal := sviIssue (opSviMem o) s
def execSviFence (o : SviFence) (s : State) : Host.Outcome State Fault Refusal := sviIssue (opSviFence o) s
def execEcall (s : State) : Host.Outcome State Fault Refusal := sviIssue (opSysc 0x7FFF 0) s
def execEbreak (s : State) : Host.Outcome State Fault Refusal := sviIssue (opBkpt 0 0) s
def execSviMOp (o : SviMul) (s : State) : Host.Outcome State Fault Refusal := sviIssue (opSviMul o) s
def execSviCsrAccess (o : SviCsr) (s : State) : Host.Outcome State Fault Refusal := sviIssue (opSviCsr o) s
def execSviill (w : BitVec 32) (s : State) : Host.Outcome State Fault Refusal := sviIssue (opSviill w) s
def execAgTpost (b a : BitVec 5) (s : State) : Host.Outcome State Fault Refusal :=
  sviIssue (opTpost (b.setWidth 6) (a.setWidth 6) 0) s
def execAgTix (a : BitVec 5) (s : State) : Host.Outcome State Fault Refusal := sviIssue (opTix (a.setWidth 6) 0) s
def execAgAmo (h b a d : BitVec 5) (s : State) : Host.Outcome State Fault Refusal :=
  sviIssue (opAtomic true (agIn h b a d) (.land sviLt) 0) s
def execAgAmoF (h b a : BitVec 5) (s : State) : Host.Outcome State Fault Refusal :=
  sviIssue (opAtomic true (agIn h b a 0) .slot 0) s
def execAgAmoN (h b a : BitVec 5) (s : State) : Host.Outcome State Fault Refusal :=
  sviIssue (opAtomic true (agIn h b a 0) .posted 0) s
def execAgDrainR (s : State) : Host.Outcome State Fault Refusal := sviIssue (opDrainR 0) s
def execAgDrainScope (f : BitVec 7) (s : State) : Host.Outcome State Fault Refusal :=
  sviIssue (opFence (BitVec.ofNat 3 (f.toNat - 1)) 0) s
def execAgSlk (a : BitVec 5) (s : State) : Host.Outcome State Fault Refusal := sviIssue (opSlkReg (a.setWidth 6) 0) s
def execAgSlki (i : BitVec 12) (s : State) : Host.Outcome State Fault Refusal := sviIssue (opSlk i 0) s
def execAgIcinv (s : BitVec 2) (st : State) : Host.Outcome State Fault Refusal := sviIssue (opIcinv (s.setWidth 3) 0) st
def execAgCont (i : BitVec 20) (s : State) : Host.Outcome State Fault Refusal := sviIssue (opAgCont i) s
def execAgExit (s : State) : Host.Outcome State Fault Refusal := sviIssue (opExit 0) s

end Sys2Proof.Machine
end

