-- ==== Sys2Proof/Machine/Vector.lean ====
section
/-! DEFINITION. The vector slots V0 and V1 (chapter 08). Each instruction is an operation of its slot; its meaning issues it in
V0. -/
namespace Sys2Proof.Machine

/-! ## Configuration (R213) -/

/-- The bounds of form VS: xd after 2 ccy, VL and VTYPE for the next bundle. -/
def setCfg (s : State) (d : Nat) (vt : BitVec 32) (vl : Nat) : State :=
  modCur (wx s 2 d (BitVec.ofNat 64 vl)) (fun c => { c with vtype := vt, vl := BitVec.ofNat 13 vl })

/-- An illegal configuration (R213). -/
def cfgBad (x : Word) : Bool := fld x 14 18 ≠ 0 || fld x 32 32 ≠ 0 || fld x 2 3 = 4

def opVsetvl (slot : Nat) (d a b : BitVec 6) (g : BitVec 4) : SlotOp :=
  { slot := slot, guard := g
    eff := fun pre s =>
      let x := rx6 pre b
      if cfgBad x then setCfg s d.toNat 0x80000000#32 0
      else
        let t := BitVec.ofNat 32 (fld x 0 32)
        setCfg s d.toNat t (Nat.min (rx6 pre a).toNat (vlmaxOf t)) }
def opVsetvlRead (slot : Nat) (d : BitVec 6) (g : BitVec 4) : SlotOp :=
  { slot := slot, guard := g
    eff := fun pre s => wx s 2 d.toNat (BitVec.ofNat 64 ((cur pre).vtype.toNat * 2 ^ 32 + (cur pre).vl.toNat)) }

/-- VTYPE with its low seven bits replaced and VILL cleared (R213). -/
def cfgImm (s : State) (v : BitVec 7) : BitVec 32 := setFld (setFld (cur s).vtype 0 7 v.toNat) 31 1 0

def opVsetvli (slot : Nat) (d a : BitVec 6) (v : BitVec 7) (g : BitVec 4) : SlotOp :=
  { slot := slot, guard := g, legal := fun _ => v.extractLsb' 2 3 ≠ 4#3
    eff := fun pre s => setCfg s d.toNat (cfgImm pre v) (Nat.min (rx6 pre a).toNat (vlmaxOf (cfgImm pre v))) }
def opVsetivli (slot : Nat) (d : BitVec 6) (l : BitVec 8) (v : BitVec 7) (g : BitVec 4) : SlotOp :=
  { slot := slot, guard := g, legal := fun _ => v.extractLsb' 2 3 ≠ 4#3
    eff := fun pre s => setCfg s d.toNat (cfgImm pre v) (Nat.min l.toNat (vlmaxOf (cfgImm pre v))) }

/-! ## Form VA (R214) -/

/-- Elementwise plain results (R209). -/
def plainEls (v : VCfg) (is : List Nat) (f : Nat → Int) (w : Nat) : VRes :=
  { els := is.map (fun i => (i, (f i % (2 : Int) ^ w).toNat)), vl := v.vl }

/-- A plain instruction of form VA; f takes the width and the two patterns. -/
def opVA (slot : Nat) (d a : BitVec 5) (b : BitVec 6) (k : BitVec 2) (m : BitVec 1) (g : BitVec 4) (zimm : Bool)
    (f : Nat → Nat → Nat → Int) : SlotOp :=
  VShape.op
    { slot := slot, g := g, legal := vaOk k b, bound := (· + 2)
      gs := fun v => [⟨d.toNat, v.sew, 1⟩, ⟨a.toNat, v.sew, 1⟩] ++ bGrp k.toNat b v.sew
      run := fun s v _ =>
        let x := vgrp s v a.toNat v.sew
        let y := bSrc s v k.toNat b v.sew zimm
        plainEls v (actives s v (m = 1)) (fun i => f v.sew (elN x v.sew i) (y.el v.sew i)) v.sew
      write := fun pre s v b r => vwrite pre s v b d.toNat v.sew r }

/-- A tensor instruction of form VA (R209): destination at wm × SEW; f takes the old destination element and the two operands. -/
def opVT (slot : Nat) (d a : BitVec 5) (b : BitVec 6) (k : BitVec 2) (m u : BitVec 1) (g : BitVec 4) (wm : Nat) (acc : Bool)
    (bound : Nat → Nat) (f : Int → Int → Int → Int) : SlotOp :=
  VShape.op
    { slot := slot, g := g, legal := vaOk k b, bound := bound, counts := true
      gs := fun v => [⟨d.toNat, wm * v.sew, 1⟩, ⟨a.toNat, v.sew, 1⟩] ++ bGrp k.toNat b v.sew
      run := fun s v L =>
        let un := decide (u = 1)
        let w := wm * v.sew
        let x := vgrp s v a.toNat v.sew
        let y := bSrc s v k.toNat b v.sew false
        let z := vgrp s v d.toNat w
        let el := fun i =>
          match decE v.sew un (elN x v.sew i), decE v.sew un (y.el v.sew i),
              (if acc then decE w un (elN z w i) else some 0) with
          | some p, some q, some r => (i, some (f r p q), 0)
          | _, _, _ => (i, none, 0)
        roundEls w un .rtz ((actives s v (m = 1)).map el) L { els := [], vl := v.vl }
      write := fun pre s v b r => vwrite pre s v b d.toNat (wm * v.sew) r }

def opVadd (slot : Nat) (d a : BitVec 5) (b : BitVec 6) (k : BitVec 2) (m : BitVec 1) (g : BitVec 4) : SlotOp :=
  opVA slot d a b k m g false (fun _ x y => (x : Int) + y)
def opVsub (slot : Nat) (d a : BitVec 5) (b : BitVec 6) (k : BitVec 2) (m : BitVec 1) (g : BitVec 4) : SlotOp :=
  opVA slot d a b k m g false (fun _ x y => (x : Int) - y)
def opVand (slot : Nat) (d a : BitVec 5) (b : BitVec 6) (k : BitVec 2) (m : BitVec 1) (g : BitVec 4) : SlotOp :=
  opVA slot d a b k m g false (fun _ x y => ((x &&& y : Nat) : Int))
def opVor (slot : Nat) (d a : BitVec 5) (b : BitVec 6) (k : BitVec 2) (m : BitVec 1) (g : BitVec 4) : SlotOp :=
  opVA slot d a b k m g false (fun _ x y => ((x ||| y : Nat) : Int))
def opVxor (slot : Nat) (d a : BitVec 5) (b : BitVec 6) (k : BitVec 2) (m : BitVec 1) (g : BitVec 4) : SlotOp :=
  opVA slot d a b k m g false (fun _ x y => ((x ^^^ y : Nat) : Int))
def opVsll (slot : Nat) (d a : BitVec 5) (b : BitVec 6) (k : BitVec 2) (m : BitVec 1) (g : BitVec 4) : SlotOp :=
  opVA slot d a b k m g true (fun w x y => ((x <<< (y % w) : Nat) : Int))
def opVsrl (slot : Nat) (d a : BitVec 5) (b : BitVec 6) (k : BitVec 2) (m : BitVec 1) (g : BitVec 4) : SlotOp :=
  opVA slot d a b k m g true (fun w x y => ((x >>> (y % w) : Nat) : Int))
def opVsra (slot : Nat) (d a : BitVec 5) (b : BitVec 6) (k : BitVec 2) (m : BitVec 1) (g : BitVec 4) : SlotOp :=
  opVA slot d a b k m g true (fun w x y => sextI x w / (2 : Int) ^ (y % w))
def opVmul (slot : Nat) (d a : BitVec 5) (b : BitVec 6) (k : BitVec 2) (m : BitVec 1) (g : BitVec 4) : SlotOp :=
  opVA slot d a b k m g false (fun _ x y => (x : Int) * y)
def opVmin (slot : Nat) (d a : BitVec 5) (b : BitVec 6) (k : BitVec 2) (m : BitVec 1) (g : BitVec 4) : SlotOp :=
  opVA slot d a b k m g false (fun w x y => if sextI x w < sextI y w then x else y)
def opVmax (slot : Nat) (d a : BitVec 5) (b : BitVec 6) (k : BitVec 2) (m : BitVec 1) (g : BitVec 4) : SlotOp :=
  opVA slot d a b k m g false (fun w x y => if sextI x w < sextI y w then y else x)
def opVminu (slot : Nat) (d a : BitVec 5) (b : BitVec 6) (k : BitVec 2) (m : BitVec 1) (g : BitVec 4) : SlotOp :=
  opVA slot d a b k m g false (fun _ x y => if x < y then x else y)
def opVmaxu (slot : Nat) (d a : BitVec 5) (b : BitVec 6) (k : BitVec 2) (m : BitVec 1) (g : BitVec 4) : SlotOp :=
  opVA slot d a b k m g false (fun _ x y => if x < y then y else x)
def opVmulh (slot : Nat) (d a : BitVec 5) (b : BitVec 6) (k : BitVec 2) (m u : BitVec 1) (g : BitVec 4) : SlotOp :=
  opVA slot d a b k m g false (fun w x y =>
    if u = 1 then (x : Int) * y / (2 : Int) ^ w else sextI x w * sextI y w / (2 : Int) ^ w)
def opVsadd (slot : Nat) (d a : BitVec 5) (b : BitVec 6) (k : BitVec 2) (m u : BitVec 1) (g : BitVec 4) : SlotOp :=
  opVT slot d a b k m u g 1 false (· + 2) (fun _ x y => x + y)
def opVssub (slot : Nat) (d a : BitVec 5) (b : BitVec 6) (k : BitVec 2) (m u : BitVec 1) (g : BitVec 4) : SlotOp :=
  opVT slot d a b k m u g 1 false (· + 2) (fun _ x y => x - y)
def opVwadd (slot : Nat) (d a : BitVec 5) (b : BitVec 6) (k : BitVec 2) (m u : BitVec 1) (g : BitVec 4) : SlotOp :=
  opVT slot d a b k m u g 2 false (2 * · + 4) (fun _ x y => x + y)
def opVwmul (slot : Nat) (d a : BitVec 5) (b : BitVec 6) (k : BitVec 2) (m u : BitVec 1) (g : BitVec 4) : SlotOp :=
  opVT slot d a b k m u g 2 false (2 * · + 4) (fun _ x y => x * y)
def opVwmacc (slot : Nat) (d a : BitVec 5) (b : BitVec 6) (k : BitVec 2) (m u : BitVec 1) (g : BitVec 4) : SlotOp :=
  opVT slot d a b k m u g 2 true (2 * · + 4) (fun z x y => z + x * y)
/-- `vmerge`: v0 selects, and every element below VL is written (R214). -/
def opVmerge (slot : Nat) (d a : BitVec 5) (b : BitVec 6) (k : BitVec 2) (g : BitVec 4) : SlotOp :=
  VShape.op
    { slot := slot, g := g, legal := vaOk k b, bound := (· + 2)
      gs := fun v => [⟨d.toNat, v.sew, 1⟩, ⟨a.toNat, v.sew, 1⟩] ++ bGrp k.toNat b v.sew
      run := fun s v _ =>
        let x := vgrp s v a.toNat v.sew
        let y := bSrc s v k.toNat b v.sew false
        let v0 := rv s 0
        plainEls v (List.range v.vl) (fun i => if bit v0 i then y.el v.sew i else elN x v.sew i) v.sew
      write := fun pre s v b r => vwrite pre s v b d.toNat v.sew r }

/-! ## Rounding shifts and narrowing (R215, R216, R222) -/

/-- The shift of form VR (R215). -/
def vrShift (s : State) (k : BitVec 1) (b : BitVec 6) : Nat := if k = 0 then Nat.min (rx6 s b).toNat 127 else b.toNat

/-- A signed source at width wm × SEW shifted into SEW (R215). -/
def opVR (slot : Nat) (d a : BitVec 5) (b : BitVec 6) (k : BitVec 1) (r : BitVec 2) (m : BitVec 1) (g : BitVec 4) (wm : Nat) :
    SlotOp :=
  VShape.op
    { slot := slot, g := g, bound := (2 * · + 4), counts := true, need := fun v => wm = 1 || v.sew ≤ 32
      gs := fun v => [⟨d.toNat, v.sew, 1⟩, ⟨a.toNat, wm * v.sew, 1⟩]
      run := fun s v L =>
        let w := wm * v.sew
        let x := vgrp s v a.toNat w
        let k := vrShift s k b
        roundEls v.sew false (rndOf r.toNat) ((actives s v (m = 1)).map (fun i => (i, decE w false (elN x w i), k))) L
          { els := [], vl := v.vl }
      write := fun pre s v b r => vwrite pre s v b d.toNat v.sew r }

def opVnsra (slot : Nat) (d a : BitVec 5) (b : BitVec 6) (k : BitVec 1) (r : BitVec 2) (m : BitVec 1) (g : BitVec 4) : SlotOp :=
  opVR slot d a b k r m g 2
def opVshr (slot : Nat) (d a : BitVec 5) (b : BitVec 6) (k : BitVec 1) (r : BitVec 2) (m : BitVec 1) (g : BitVec 4) : SlotOp :=
  opVR slot d a b k r m g 1

def opVsmul (slot : Nat) (d a b : BitVec 5) (r : BitVec 2) (m : BitVec 1) (g : BitVec 4) : SlotOp :=
  VShape.op
    { slot := slot, g := g, bound := (2 * · + 4), counts := true
      gs := fun v => [⟨d.toNat, v.sew, 1⟩, ⟨a.toNat, v.sew, 1⟩, ⟨b.toNat, v.sew, 1⟩]
      run := fun s v L =>
        let x := vgrp s v a.toNat v.sew
        let y := vgrp s v b.toNat v.sew
        let el := fun i =>
          match decE v.sew false (elN x v.sew i), decE v.sew false (elN y v.sew i) with
          | some p, some q => (i, some (p * q), v.sew - 1)
          | _, _ => (i, none, 0)
        roundEls v.sew false (rndOf r.toNat) ((actives s v (m = 1)).map el) L { els := [], vl := v.vl }
      write := fun pre s v b r => vwrite pre s v b d.toNat v.sew r }

/-- The grouped operands and the widths of `vnclip` (R216). -/
def clipW (q : BitVec 1) (v : VCfg) : Nat := (if q = 1 then 4 else 2) * v.sew
def clipNeed (q : BitVec 1) (v : VCfg) : Bool := if q = 1 then v.sew ≤ 16 else v.sew ≤ 32

/-- `vnclip`: the active elements written through sc(2 × scp) (R216). -/
def opVnclip (slot : Nat) (d a p : BitVec 5) (r : BitVec 2) (m u q : BitVec 1) (g : BitVec 4) : SlotOp :=
  let gs := fun (v : VCfg) => [(⟨d.toNat, v.sew, 1⟩ : VGrp), ⟨a.toNat, clipW q v, 1⟩]
  let n := 2 * p.toNat
  { slot := slot, guard := g, occ := fun s => vOcc (vcfg (cur s)) (gs (vcfg (cur s)))
    res := fun _ => [.sc n, .sc (n + 1)]
    check := fun s _ => vCheck (vcfg (cur s)) slot (gs (vcfg (cur s))) (clipNeed q (vcfg (cur s)))
    effu := fun pre s =>
      let v := vcfg (cur pre)
      if v.vl = 0 then (s, []) else
      let x := vgrp pre v a.toNat (clipW q v)
      let is := actives pre v (m = 1)
      let w := clipW q v
      let b := 2 * vOcc v (gs v) + 4
      let vs := is.map (fun i => (i % 128, decE w false (elN x w i)))
      let z := scWrite (rsc pre n) v.sew (u = 1) (rndOf r.toNat) (scExp (rsc pre (n + 1))) none vs (rlanes s)
      let s := vwrite pre s v b d.toNat v.sew { els := is.zip (z.outs.map (·.code)), vl := v.vl }
      if is = [] then (s, [])
      else (putLanes s (some z.lanes),
        [{ sc := n, bound := b, exp := some (z.exp % 256).toNat, cen := z.cen.map (fun c => (c, true))
           addS := z.outs.countP (·.clamped), addP := z.outs.countP (·.nai) }]) }

/-! ## Comparisons and masks (R217, R218) -/

def opVcmp (slot : Nat) (d a : BitVec 5) (b : BitVec 6) (k : BitVec 1) (c : BitVec 3) (g : BitVec 4) : SlotOp :=
  VShape.op
    { slot := slot, g := g, bound := (· + 2), legal := if c.toNat ≥ 6 then b = 0 && k = 0 else k = 1 || !b.msb
      gs := fun v => [⟨a.toNat, v.sew, 1⟩] ++ (if c.toNat ≥ 6 then [] else bGrp k.toNat b v.sew)
      run := fun s v _ =>
        let x := vgrp s v a.toNat v.sew
        let y := bSrc s v k.toNat b v.sew false
        plainEls v (List.range v.vl) (fun i => b2n (vcmpRel c.toNat v.sew (elN x v.sew i) (y.el v.sew i))) 1
      write := fun pre s v b r => vwriteMask pre s v b d.toNat r }

def opVmlog (slot : Nat) (d a b : BitVec 5) (f : BitVec 3) (g : BitVec 4) : SlotOp :=
  VShape.op
    { slot := slot, g := g, bound := fun _ => 3, occ := some 1, gs := fun _ => []
      run := fun s v _ =>
        let x := rv s a.toNat
        let y := rv s b.toNat
        plainEls v (List.range v.vl) (fun i => b2n (maskLogic f.toNat (bit x i) (bit y i))) 1
      write := fun pre s v b r => vwriteMask pre s v b d.toNat r }

/-! ## Reductions and scans (R220, R221) -/

/-- The values of the active elements of va (R209). -/
def redVals (s : State) (v : VCfg) (a : Nat) (u m : Bool) : List (Option Int) :=
  let x := vgrp s v a v.sew
  (actives s v m).map (fun i => decE v.sew u (elN x v.sew i))

/-- A reduction into element 0; f combines, starting from vb[0] (R220). -/
def opVred (slot : Nat) (d a b : BitVec 5) (wm : Nat) (u m : BitVec 1) (g : BitVec 4) (f : Int → Int → Int) : SlotOp :=
  VShape.op
    { slot := slot, g := g, bound := (· + 8), counts := true
      gs := fun v => [⟨d.toNat, wm * v.sew, 1⟩, ⟨a.toNat, v.sew, 1⟩, ⟨b.toNat, wm * v.sew, 1⟩]
      run := fun s v L =>
        let w := wm * v.sew
        let un := decide (u = 1)
        let start := decE w un (elN (vgrp s v b.toNat w) w 0)
        let r := (redVals s v a.toNat un (m = 1)).foldl (fun t x => match t, x with
          | some t, some x => some (f t x)
          | _, _ => none) start
        roundEls w un .rtz [(0, r, 0)] L { els := [], vl := 1 }
      write := fun pre s v b r => vwrite pre s v b d.toNat (wm * v.sew) r }

def opVredsum (slot : Nat) (d a b : BitVec 5) (w u m : BitVec 1) (g : BitVec 4) : SlotOp :=
  opVred slot d a b (if w = 1 then 2 else 1) u m g (· + ·)
def opVredmax (slot : Nat) (d a b : BitVec 5) (u m : BitVec 1) (g : BitVec 4) : SlotOp :=
  opVred slot d a b 1 u m g (fun t x => if t < x then x else t)
def opVredmin (slot : Nat) (d a b : BitVec 5) (u m : BitVec 1) (g : BitVec 4) : SlotOp :=
  opVred slot d a b 1 u m g (fun t x => if x < t then x else t)

/-- Inclusive prefixes of a list from a start value; a NaI stays (R221). -/
def prefixes (t : Option Int) : List (Nat × Option Int) → List (Nat × Option Int × Nat)
  | [] => []
  | (i, x) :: l =>
    let t := match t, x with
      | some t, some x => some (t + x)
      | _, _ => none
    (i, t, 0) :: prefixes t l

def opVscan (slot : Nat) (d a b : BitVec 5) (w u m : BitVec 1) (g : BitVec 4) : SlotOp :=
  let wm := if w = 1 then 2 else 1
  VShape.op
    { slot := slot, g := g, bound := (· + 8), counts := true
      gs := fun v => [⟨d.toNat, wm * v.sew, 1⟩, ⟨a.toNat, v.sew, 1⟩, ⟨b.toNat, wm * v.sew, 1⟩]
      run := fun s v L =>
        let w := wm * v.sew
        let un := decide (u = 1)
        let start := decE w un (elN (vgrp s v b.toNat w) w 0)
        let is := actives s v (m = 1)
        roundEls w un .rtz (prefixes start (is.zip (redVals s v a.toNat un (m = 1)))) L { els := [], vl := v.vl }
      write := fun pre s v b r => vwrite pre s v b d.toNat (wm * v.sew) r }

/-! ## Slides and permutations (R223, R224) -/

/-- The offset of form VL. -/
def slideOff (s : State) (k : BitVec 1) (b : BitVec 6) : Nat := if k = 0 then (rx6 s b).toNat else b.toNat

/-- A permutation of va into vd: f gives the pattern for each active index from the source group, the old destination and v. -/
def opVperm (slot : Nat) (d a : BitVec 5) (more : VCfg → List VGrp) (m : Bool) (bound : Nat → Nat) (g : BitVec 4)
    (f : State → VCfg → Nat → Nat → Nat → Nat) : SlotOp :=
  VShape.op
    { slot := slot, g := g, bound := bound
      gs := fun v => [⟨d.toNat, v.sew, 1⟩, ⟨a.toNat, v.sew, 1⟩] ++ more v
      run := fun s v _ =>
        let x := vgrp s v a.toNat v.sew
        let o := vgrp s v d.toNat v.sew
        { els := (actives s v m).map (fun i => (i, f s v x o i)), vl := v.vl }
      write := fun pre s v b r => vwrite pre s v b d.toNat v.sew r }

def opVslideup (slot : Nat) (d a : BitVec 5) (b : BitVec 6) (k m : BitVec 1) (g : BitVec 4) : SlotOp :=
  opVperm slot d a (fun _ => []) (m = 1) (· + 2) g (fun s v x o i =>
    let off := slideOff s k b
    if i < off then elN o v.sew i else elN x v.sew (i - off))
def opVslidedn (slot : Nat) (d a : BitVec 5) (b : BitVec 6) (k m : BitVec 1) (g : BitVec 4) : SlotOp :=
  opVperm slot d a (fun _ => []) (m = 1) (· + 2) g (fun s v x _ i =>
    let off := slideOff s k b
    if i + off < v.vlmax then elN x v.sew (i + off) else 0)
def opVgath (slot : Nat) (d a b : BitVec 5) (m : BitVec 1) (g : BitVec 4) : SlotOp :=
  opVperm slot d a (fun v => [⟨b.toNat, v.sew, 1⟩]) (m = 1) (2 * · + 4) g (fun s v x _ i =>
    let j := elN (vgrp s v b.toNat v.sew) v.sew i
    if j < v.vlmax then elN x v.sew j else 0)

def opVcompress (slot : Nat) (d a b : BitVec 5) (g : BitVec 4) : SlotOp :=
  VShape.op
    { slot := slot, g := g, bound := (2 * · + 4)
      gs := fun v => [⟨d.toNat, v.sew, 1⟩, ⟨a.toNat, v.sew, 1⟩]
      run := fun s v _ =>
        let x := vgrp s v a.toNat v.sew
        let mk := rv s b.toNat
        let is := (List.range v.vl).filter (fun i => bit mk i)
        { els := (List.range is.length).zip (is.map (fun i => elN x v.sew i)), vl := is.length }
      write := fun pre s v b r => vwrite pre s v b d.toNat v.sew r }

/-! ## Integer routines (R225, R226) -/

def opVexp (slot : Nat) (d a : BitVec 5) (e : BitVec 8) (m : BitVec 1) (g : BitVec 4) : SlotOp :=
  VShape.op
    { slot := slot, g := g, bound := (4 * · + 8), counts := true, need := fun v => v.sew = 16
      legal := (-24 : Int) ≤ e.toInt && e.toInt ≤ 0
      gs := fun v => [⟨d.toNat, 16, 1⟩, ⟨a.toNat, 2 * v.sew, 1⟩]
      run := fun s v _ =>
        let x := vgrp s v a.toNat 32
        let rs := (actives s v (m = 1)).map (fun i => (i, match decE 32 false (elN x 32 i) with
          | none => (0xFFFF, false, true)
          | some y => ((vexpR y e.toInt).1, (vexpR y e.toInt).2, false)))
        { els := rs.map (fun r => (r.1, r.2.1)), vl := v.vl, sat := rs.countP (·.2.2.1), nai := rs.countP (·.2.2.2) }
      write := fun pre s v b r => vwrite pre s v b d.toNat 16 r }

/-- A routine with two results per element: y to group vd, er to the group above it (R225); f gives y, er and the marks for
SATC and POISON. -/
def opVF2 (slot : Nat) (d a : BitVec 5) (m : BitVec 1) (g : BitVec 4) (f : Option Int → Nat × Int × Bool × Bool) : SlotOp :=
  let vals := fun (s : State) (v : VCfg) =>
    let x := vgrp s v a.toNat 32
    (actives s v (m = 1)).map (fun i => (i, f (decE 32 false (elN x 32 i))))
  VShape.op
    { slot := slot, g := g, bound := (4 * · + 8), counts := true, need := fun v => v.sew = 32
      gs := fun _ => [⟨d.toNat, 32, 2⟩, ⟨a.toNat, 32, 1⟩]
      run := fun s v _ =>
        let rs := vals s v
        { els := rs.map (fun r => (r.1, r.2.1)), vl := v.vl, sat := rs.countP (·.2.2.2.1), nai := rs.countP (·.2.2.2.2) }
      write := fun pre s v b r =>
        let er := (vals pre v).map (fun r => (r.1, (r.2.2.1 % (2 : Int) ^ 32).toNat))
        vwrite pre (vwrite pre s v b d.toNat 32 r) v b (d.toNat + v.regs 32) 32 { r with els := er } }

/-- `vrsqrt` with its special cases (R80, Table 11 of chapter 03). -/
def rsqrtEl (e : Int) (x : Option Int) : Nat × Int × Bool × Bool :=
  match x with
  | none => (0xFFFFFFFF, 0, false, true)
  | some a =>
    if a < 0 then (0xFFFFFFFF, 0, false, true)
    else if a = 0 then (0xFFFFFFFE, 127, true, false)
    else ((vrsqrtR a.toNat e).1, (vrsqrtR a.toNat e).2, false, false)

/-- `vrecip` with its special cases (R82, Table 13 of chapter 03). -/
def recipEl (e : Int) (x : Option Int) : Nat × Int × Bool × Bool :=
  match x with
  | none => (0x80000000, 0, false, true)
  | some a =>
    if a = 0 then (0x7FFFFFFF, 127, true, false)
    else (((vrecipR a e).1 % (2 : Int) ^ 32).toNat, (vrecipR a e).2, false, false)

def opVrsqrt (slot : Nat) (d a : BitVec 5) (e : BitVec 8) (m : BitVec 1) (g : BitVec 4) : SlotOp :=
  opVF2 slot d a m g (rsqrtEl e.toInt)
def opVrecip (slot : Nat) (d a : BitVec 5) (e : BitVec 8) (m : BitVec 1) (g : BitVec 4) : SlotOp :=
  opVF2 slot d a m g (recipEl e.toInt)

def opVdiv (slot : Nat) (d a b : BitVec 5) (m : BitVec 1) (g : BitVec 4) : SlotOp :=
  VShape.op
    { slot := slot, g := g, bound := (4 * · + 8), counts := true
      gs := fun v => [⟨d.toNat, v.sew, 1⟩, ⟨a.toNat, v.sew, 1⟩, ⟨b.toNat, v.sew, 1⟩]
      run := fun s v _ =>
        let x := vgrp s v a.toNat v.sew
        let y := vgrp s v b.toNat v.sew
        let rs := (actives s v (m = 1)).map (fun i =>
          (i, vdivR (decE v.sew false (elN x v.sew i)) (decE v.sew false (elN y v.sew i)) v.sew))
        { els := rs.map (fun r => (r.1, encE v.sew false r.2.1)), vl := v.vl
          sat := rs.countP (·.2.2), nai := rs.countP (·.2.1.isNone) }
      write := fun pre s v b r => vwrite pre s v b d.toNat v.sew r }

/-! ## Moves between files (R227) -/

def opVmvxs (slot : Nat) (d : BitVec 6) (a : BitVec 5) (b : BitVec 6) (g : BitVec 4) : SlotOp :=
  { slot := slot, guard := g
    check := fun s _ => vCheck (vcfg (cur s)) slot [⟨a.toNat, (vcfg (cur s)).sew, 1⟩] true
    eff := fun pre s =>
      let v := vcfg (cur pre)
      let k := (rx6 pre b).toNat
      wx s 4 d.toNat (if k < v.vlmax then BitVec.ofInt 64 (sextI (elN (vgrp pre v a.toNat v.sew) v.sew k) v.sew) else 0) }

def opVmvsx (slot : Nat) (d : BitVec 5) (a b : BitVec 6) (g : BitVec 4) : SlotOp :=
  { slot := slot, guard := g
    check := fun s _ => vCheck (vcfg (cur s)) slot [⟨d.toNat, (vcfg (cur s)).sew, 1⟩] true
    eff := fun pre s =>
      let v := vcfg (cur pre)
      let k := (rx6 pre b).toNat
      if k < v.vlmax then
        let r := d.toNat + k * v.sew / 4096
        wv s 4 r (setFld (rv pre r) (k * v.sew % 4096) v.sew (rx6 pre a).toNat)
      else s }

def opVsplat (slot : Nat) (d : BitVec 5) (a : BitVec 6) (m : BitVec 1) (g : BitVec 4) : SlotOp :=
  VShape.op
    { slot := slot, g := g, bound := fun _ => 4, occ := some 1
      gs := fun v => [⟨d.toNat, v.sew, 1⟩]
      run := fun s v _ => plainEls v (actives s v (m = 1)) (fun _ => (rx6 s a).toNat) v.sew
      write := fun pre s v b r => vwrite pre s v b d.toNat v.sew r }

/-- `vmov`: whole registers, whatever VTYPE holds. -/
def opVmov (slot : Nat) (d a : BitVec 5) (r : BitVec 2) (g : BitVec 4) : SlotOp :=
  let n := 2 ^ r.toNat
  { slot := slot, guard := g, occ := fun _ => 4 * n
    check := fun _ _ => if d.toNat % n ≠ 0 ∨ a.toNat % n ≠ 0 then some (vFault slot .vreg) else none
    eff := fun pre s => vput s (4 * n + 2) d.toNat n (vnum pre a.toNat n) }

/-! ## Loads and stores (R228 to R231) -/

/-- The address modes (R228): unit stride, stride in x(a + 1), indices in a vector group. -/
inductive VMode where
  | unit | strided | indexed (b : Nat)
  deriving DecidableEq, Repr

/-- A_i (R228). -/
def vAddr (s : State) (v : VCfg) (mode : VMode) (a : BitVec 6) (i : Nat) : Word :=
  match mode with
  | .unit => rx6 s a + BitVec.ofNat 64 (v.sew / 8 * i)
  | .strided => rx6 s a + BitVec.ofNat 64 i * rx6 s (a + 1)
  | .indexed b => rx6 s a + BitVec.ofNat 64 (elN (vgrp s v b v.sew) v.sew i)

/-- The active elements with their addresses. -/
def vAddrs (s : State) (v : VCfg) (mode : VMode) (a : BitVec 6) (m : Bool) : List (Nat × Word) :=
  (actives s v m).map (fun i => (i, vAddr s v mode a i))

/-- The first failing element (R230). -/
def vFail (s : State) (n : Nat) (write : Bool) : List (Nat × Word) → Option (Nat × Word × WFail)
  | [] => none
  | (i, a) :: t => match chk s a n n write with
    | .error f => some (i, a, f)
    | .ok _ => vFail s n write t

/-- The first byte of the line of an address. -/
def lineAt (a : Word) : Word := a &&& 0xFFFFFFFFFFFFFF80#64

/-- The line of an address under the one name that the current core's equivalent addresses share (R87, R98). -/
def vKey (s : State) (a : Word) : Word :=
  let l := lineAt a
  if spc l = 2 then setFld (setFld l 60 4 6) 24 4 (cluInDie s.cur)
  else if spc l = 3 then setFld (setFld l 60 4 4) 28 2 (dieOf s.cur)
  else if spc l = 5 ∧ offPackage s (cur s).ctx l = false then setFld l 48 16 0
  else l

/-- The 128-byte lines that the current core touches, in the order of the lowest element of each (R229). -/
def vLines (s : State) (es : List (Nat × Word)) : List Word := (es.map (fun e => vKey s e.2)).eraseDups

/-- The address of a line as its first element gives it. -/
def lineName (s : State) (es : List (Nat × Word)) (l : Word) : Word := ((es.find? (fun e => vKey s e.2 = l)).map (fun e => lineAt e.2)).getD l

/-- The element of a line that is checked for it: the first. -/
def lineWhere (s : State) (n : Nat) (write : Bool) (es : List (Nat × Word)) (l : Word) : Where :=
  match es.find? (fun e => vKey s e.2 = l) with
  | none => .far
  | some e => match chk s e.2 n n write with
    | .ok (.loc p) => .loc (p - p % 128)
    | _ => .far

/-- The bytes that elements of n bytes access in a line, as runs of offset and length (R228). -/
def lineRuns (s : State) (n : Nat) (es : List (Nat × Word)) (l : Word) : List (Nat × Nat) :=
  (es.filter (fun e => vKey s e.2 = l)).map (fun e => (fld e.2 0 7, n))

/-- The load requests of the lines: data of space 0x1 is read at issue, unless an earlier slot of the bundle holds it (R91). -/
def vLoadReqs (pre : State) (slot lt e n : Nat) (es : List (Nat × Word)) : State → Nat → List Word → State × List Part
  | s, _, [] => (s, [])
  | s, j, l :: t =>
    let w := lineWhere pre n false es l
    let a := lineName pre es l
    let rs := lineRuns pre n es l
    let now := match w with
      | .loc p => if spc a = 1 ∧ heldOwn pre s slot = false ∧ rs.all (fun e => (errIn pre (p + e.1) e.2).isNone) then some p else none
      | .far => none
    match now with
    | some p =>
      let k := vLoadReqs pre slot lt e n es (rs.foldl (fun s e => softTouch s (p + e.1) e.2) s) (j + 1) t
      (k.1, ⟨0, some (BitVec.ofNat 1024 (rd pre p 128))⟩ :: k.2)
    | none =>
      let r := { newReq pre s .load a w 128 (loadSlack lt a (w.loc?.getD 0)) slot with dst := .land e j, act := rs }
      let k := vLoadReqs pre slot lt e n es (putReq s r) (j + 1) t
      (k.1, ⟨r.id, none⟩ :: k.2)

/-- Elements that the policies write with all ones: inactive ones below vl, and the tail (R207). -/
def vOnes (v : VCfg) (act : List Nat) (vl ne : Nat) : List Nat :=
  (if v.vma then (List.range vl).filter (fun i => !act.contains i) else []) ++
    (if v.vta then (List.range ne).filter (fun i => vl ≤ i) else [])

/-- The issue of a vector load of the elements `es`, with everything from vl on as tail. -/
def vLoad (pre s : State) (slot : Nat) (v : VCfg) (d : Nat) (xa : Word) (t : Nat) (es : List (Nat × Word)) (vl : Nat)
    (m : Bool) : State :=
  let lt := ltOf pre t
  let e := newId s
  let ls := vLines pre es
  let n := v.sew / 8
  let k := vLoadReqs pre slot lt e.1 n es e.2 0 ls
  let els := es.map (fun x => (x.1, ls.idxOf (vKey pre x.2), fld x.2 0 7))
  let c := (cur pre).ctime
  addLand k.1
    { id := e.1, at_ := c + (if spc xa = 1 then Nat.max 4 lt else lt), parts := k.2
      dst := .vec d v.sew (vOnes v ((actives pre v m).filter (· < vl)) vl (v.ne v.sew)) els
      room := Nat.max 512 (v.em8 v.sew * 64), own := k.2.all (·.data.isSome) }

/-- The shared parts of vector memory instructions. -/
structure VMem where
  slot : Nat
  g : BitVec 4
  r : Nat
  a : BitVec 6
  mode : VMode
  m : Bool
  legal : Bool := true

def VMem.gs (h : VMem) (v : VCfg) : List VGrp :=
  [⟨h.r, v.sew, 1⟩] ++ (match h.mode with
    | .indexed b => [⟨b, v.sew, 1⟩]
    | _ => [])

def VMem.es (h : VMem) (s : State) : List (Nat × Word) := vAddrs s (vcfg (cur s)) h.mode h.a h.m

/-- The first failing element, then the configuration faults: the order of R130 step 5 (R211, R230). DESIGN CHOICE (log entry 82): ECMD of the
record holds the element's index. -/
def VMem.check (h : VMem) (s : State) (write : Bool) : Option FaultInfo :=
  let v := vcfg (cur s)
  match vFail s (v.sew / 8) write (h.es s) with
  | some f => some { addrFault h.slot 3 (b2n write) f.2.1 f.2.2 with ecmd := f.1 }
  | none => vCheck v h.slot (h.gs v) true

/-- The requests of a vector access and the lehr room of a load (R229). -/
def VMem.reqs (h : VMem) (s : State) (load : Bool) : Nat × Nat :=
  let v := vcfg (cur s)
  if v.vl = 0 then (0, 0) else ((vLines s (h.es s)).length, if load then Nat.max 512 (v.em8 v.sew * 64) else 0)

def VMem.base (h : VMem) : SlotOp :=
  { slot := h.slot, guard := h.g, legal := fun _ => h.legal, occ := fun s => vOcc (vcfg (cur s)) (h.gs (vcfg (cur s)))
    admits := fun s => !ownHeld s || (h.es s).all (fun e => spc e.2 ≠ 1) }

def VMem.load (h : VMem) (t : Nat) : SlotOp :=
  { h.base with
    reqs := fun s => h.reqs s true
    check := fun s _ => h.check s false
    eff := fun pre s =>
      let v := vcfg (cur pre)
      if v.vl = 0 then s else vLoad pre s h.slot v h.r (rx6 pre h.a) t (h.es pre) v.vl h.m }

/-- The bytes that a store writes in one line, by offset: each that of the highest element that names it (R229). -/
def vBytes (s : State) (es : List (Nat × Word)) (grp sew : Nat) (l : Word) : List (Nat × Byte) :=
  let bs := ((es.filter (fun e => vKey s e.2 = l)).map (fun e => bytesOf (fld e.2 0 7) (sew / 8) (elN grp sew e.1))).flatten.reverse
  (List.range 128).filterMap (fun o => bs.find? (fun e => decide (e.1 = o)))

/-- The store requests of the lines. -/
def vStoreReqs (pre : State) (slot sew grp : Nat) (es : List (Nat × Word)) : State → List Word → State
  | s, [] => s
  | s, l :: t =>
    vStoreReqs pre slot sew grp es
      (startStoreB pre s (lineName pre es l) (lineWhere pre (sew / 8) true es l) 128 (rslk pre) slot (vBytes pre es grp sew l) false) t

def VMem.store (h : VMem) : SlotOp :=
  { h.base with
    reqs := fun s => h.reqs s false
    check := fun s _ => h.check s true
    eff := fun pre s =>
      let v := vcfg (cur pre)
      if v.vl = 0 then s
      else vStoreReqs pre h.slot v.sew (vgrp pre v h.r v.sew) (h.es pre) s (vLines pre (h.es pre)) }

def opVld (slot : Nat) (d : BitVec 5) (a : BitVec 6) (t : BitVec 4) (m : BitVec 1) (g : BitVec 4) : SlotOp :=
  VMem.load { slot := slot, g := g, r := d.toNat, a := a, mode := .unit, m := m = 1 } t.toNat
def opVlds (slot : Nat) (d : BitVec 5) (a : BitVec 6) (t : BitVec 4) (m : BitVec 1) (g : BitVec 4) : SlotOp :=
  VMem.load { slot := slot, g := g, r := d.toNat, a := a, mode := .strided, m := m = 1, legal := a.toNat % 2 = 0 } t.toNat
def opVldx (slot : Nat) (d : BitVec 5) (a : BitVec 6) (b : BitVec 5) (m : BitVec 1) (t : BitVec 3) (g : BitVec 4) : SlotOp :=
  VMem.load { slot := slot, g := g, r := d.toNat, a := a, mode := .indexed b.toNat, m := m = 1 } t.toNat

/-- `vldff`: a failure after the first active element trims VL (R231). -/
def opVldff (slot : Nat) (d : BitVec 5) (a : BitVec 6) (t : BitVec 4) (m : BitVec 1) (g : BitVec 4) : SlotOp :=
  let h : VMem := { slot := slot, g := g, r := d.toNat, a := a, mode := .unit, m := m = 1 }
  let trim := fun (s : State) =>
    match vFail s ((vcfg (cur s)).sew / 8) false (h.es s) with
    | some f => f.1
    | none => (vcfg (cur s)).vl
  { VMem.load h t.toNat with
    reqs := fun s =>
      let v := vcfg (cur s)
      if v.vl = 0 then (0, 0) else ((vLines s ((h.es s).filter (fun e => e.1 < trim s))).length, Nat.max 512 (v.em8 v.sew * 64))
    check := fun s _ =>
      let cfg := vCheck (vcfg (cur s)) slot (h.gs (vcfg (cur s))) true
      match vFail s ((vcfg (cur s)).sew / 8) false (h.es s) with
      | some f =>
        if ((h.es s).head?.map (·.1)) = some f.1 then some { addrFault slot 3 0 f.2.1 f.2.2 with ecmd := f.1 } else cfg
      | none => cfg
    eff := fun pre s =>
      let v := vcfg (cur pre)
      if v.vl = 0 then s
      else
        let f := trim pre
        let s := vLoad pre s slot v d.toNat (rx6 pre a) t.toNat ((h.es pre).filter (fun e => e.1 < f)) f (m = 1)
        modCur s (fun c => if f < v.vl then { c with vl := BitVec.ofNat 13 f } else c) }

def opVst (slot : Nat) (x : BitVec 5) (a : BitVec 6) (m : BitVec 1) (g : BitVec 4) : SlotOp :=
  VMem.store { slot := slot, g := g, r := x.toNat, a := a, mode := .unit, m := m = 1 }
def opVsts (slot : Nat) (x : BitVec 5) (a : BitVec 6) (m : BitVec 1) (g : BitVec 4) : SlotOp :=
  VMem.store { slot := slot, g := g, r := x.toNat, a := a, mode := .strided, m := m = 1, legal := a.toNat % 2 = 0 }
def opVstx (slot : Nat) (x : BitVec 5) (a : BitVec 6) (b : BitVec 5) (m : BitVec 1) (g : BitVec 4) : SlotOp :=
  VMem.store { slot := slot, g := g, r := x.toNat, a := a, mode := .indexed b.toNat, m := m = 1 }

/-! ## Meanings -/

def execVsetvl (d a b : BitVec 6) (g : BitVec 4) (s : State) : Host.Outcome State Fault Refusal := issue1 (opVsetvl 4 d a b g) s
def execVsetvlRead (d : BitVec 6) (g : BitVec 4) (s : State) : Host.Outcome State Fault Refusal := issue1 (opVsetvlRead 4 d g) s
def execVsetvli (d a : BitVec 6) (v : BitVec 7) (g : BitVec 4) (s : State) : Host.Outcome State Fault Refusal :=
  issue1 (opVsetvli 4 d a v g) s
def execVsetivli (d : BitVec 6) (l : BitVec 8) (v : BitVec 7) (g : BitVec 4) (s : State) : Host.Outcome State Fault Refusal :=
  issue1 (opVsetivli 4 d l v g) s
def execVadd (d a : BitVec 5) (b : BitVec 6) (k : BitVec 2) (m : BitVec 1) (g : BitVec 4) (s : State) : Host.Outcome State Fault Refusal :=
  issue1 (opVadd 4 d a b k m g) s
def execVsub (d a : BitVec 5) (b : BitVec 6) (k : BitVec 2) (m : BitVec 1) (g : BitVec 4) (s : State) : Host.Outcome State Fault Refusal :=
  issue1 (opVsub 4 d a b k m g) s
def execVand (d a : BitVec 5) (b : BitVec 6) (k : BitVec 2) (m : BitVec 1) (g : BitVec 4) (s : State) : Host.Outcome State Fault Refusal :=
  issue1 (opVand 4 d a b k m g) s
def execVor (d a : BitVec 5) (b : BitVec 6) (k : BitVec 2) (m : BitVec 1) (g : BitVec 4) (s : State) : Host.Outcome State Fault Refusal :=
  issue1 (opVor 4 d a b k m g) s
def execVxor (d a : BitVec 5) (b : BitVec 6) (k : BitVec 2) (m : BitVec 1) (g : BitVec 4) (s : State) : Host.Outcome State Fault Refusal :=
  issue1 (opVxor 4 d a b k m g) s
def execVsll (d a : BitVec 5) (b : BitVec 6) (k : BitVec 2) (m : BitVec 1) (g : BitVec 4) (s : State) : Host.Outcome State Fault Refusal :=
  issue1 (opVsll 4 d a b k m g) s
def execVsrl (d a : BitVec 5) (b : BitVec 6) (k : BitVec 2) (m : BitVec 1) (g : BitVec 4) (s : State) : Host.Outcome State Fault Refusal :=
  issue1 (opVsrl 4 d a b k m g) s
def execVsra (d a : BitVec 5) (b : BitVec 6) (k : BitVec 2) (m : BitVec 1) (g : BitVec 4) (s : State) : Host.Outcome State Fault Refusal :=
  issue1 (opVsra 4 d a b k m g) s
def execVmul (d a : BitVec 5) (b : BitVec 6) (k : BitVec 2) (m : BitVec 1) (g : BitVec 4) (s : State) : Host.Outcome State Fault Refusal :=
  issue1 (opVmul 4 d a b k m g) s
def execVmulh (d a : BitVec 5) (b : BitVec 6) (k : BitVec 2) (m u : BitVec 1) (g : BitVec 4) (s : State) : Host.Outcome State Fault Refusal :=
  issue1 (opVmulh 4 d a b k m u g) s
def execVmin (d a : BitVec 5) (b : BitVec 6) (k : BitVec 2) (m : BitVec 1) (g : BitVec 4) (s : State) : Host.Outcome State Fault Refusal :=
  issue1 (opVmin 4 d a b k m g) s
def execVmax (d a : BitVec 5) (b : BitVec 6) (k : BitVec 2) (m : BitVec 1) (g : BitVec 4) (s : State) : Host.Outcome State Fault Refusal :=
  issue1 (opVmax 4 d a b k m g) s
def execVminu (d a : BitVec 5) (b : BitVec 6) (k : BitVec 2) (m : BitVec 1) (g : BitVec 4) (s : State) : Host.Outcome State Fault Refusal :=
  issue1 (opVminu 4 d a b k m g) s
def execVmaxu (d a : BitVec 5) (b : BitVec 6) (k : BitVec 2) (m : BitVec 1) (g : BitVec 4) (s : State) : Host.Outcome State Fault Refusal :=
  issue1 (opVmaxu 4 d a b k m g) s
def execVsadd (d a : BitVec 5) (b : BitVec 6) (k : BitVec 2) (m u : BitVec 1) (g : BitVec 4) (s : State) : Host.Outcome State Fault Refusal :=
  issue1 (opVsadd 4 d a b k m u g) s
def execVssub (d a : BitVec 5) (b : BitVec 6) (k : BitVec 2) (m u : BitVec 1) (g : BitVec 4) (s : State) : Host.Outcome State Fault Refusal :=
  issue1 (opVssub 4 d a b k m u g) s
def execVwadd (d a : BitVec 5) (b : BitVec 6) (k : BitVec 2) (m u : BitVec 1) (g : BitVec 4) (s : State) : Host.Outcome State Fault Refusal :=
  issue1 (opVwadd 4 d a b k m u g) s
def execVwmul (d a : BitVec 5) (b : BitVec 6) (k : BitVec 2) (m u : BitVec 1) (g : BitVec 4) (s : State) : Host.Outcome State Fault Refusal :=
  issue1 (opVwmul 4 d a b k m u g) s
def execVwmacc (d a : BitVec 5) (b : BitVec 6) (k : BitVec 2) (m u : BitVec 1) (g : BitVec 4) (s : State) : Host.Outcome State Fault Refusal :=
  issue1 (opVwmacc 4 d a b k m u g) s
def execVmerge (d a : BitVec 5) (b : BitVec 6) (k : BitVec 2) (g : BitVec 4) (s : State) : Host.Outcome State Fault Refusal :=
  issue1 (opVmerge 4 d a b k g) s
def execVnsra (d a : BitVec 5) (b : BitVec 6) (k : BitVec 1) (r : BitVec 2) (m : BitVec 1) (g : BitVec 4) (s : State) : Host.Outcome State Fault Refusal :=
  issue1 (opVnsra 4 d a b k r m g) s
def execVshr (d a : BitVec 5) (b : BitVec 6) (k : BitVec 1) (r : BitVec 2) (m : BitVec 1) (g : BitVec 4) (s : State) : Host.Outcome State Fault Refusal :=
  issue1 (opVshr 4 d a b k r m g) s
def execVsmul (d a b : BitVec 5) (r : BitVec 2) (m : BitVec 1) (g : BitVec 4) (s : State) : Host.Outcome State Fault Refusal :=
  issue1 (opVsmul 4 d a b r m g) s
def execVnclip (d a s : BitVec 5) (r : BitVec 2) (m u q : BitVec 1) (g : BitVec 4) (st : State) : Host.Outcome State Fault Refusal :=
  issue1 (opVnclip 4 d a s r m u q g) st
def execVcmp (d a : BitVec 5) (b : BitVec 6) (k : BitVec 1) (c : BitVec 3) (g : BitVec 4) (s : State) : Host.Outcome State Fault Refusal :=
  issue1 (opVcmp 4 d a b k c g) s
def execVmlog (d a b : BitVec 5) (f : BitVec 3) (g : BitVec 4) (s : State) : Host.Outcome State Fault Refusal :=
  issue1 (opVmlog 4 d a b f g) s
def execVredsum (d a b : BitVec 5) (w u m : BitVec 1) (g : BitVec 4) (s : State) : Host.Outcome State Fault Refusal :=
  issue1 (opVredsum 4 d a b w u m g) s
def execVredmax (d a b : BitVec 5) (u m : BitVec 1) (g : BitVec 4) (s : State) : Host.Outcome State Fault Refusal :=
  issue1 (opVredmax 4 d a b u m g) s
def execVredmin (d a b : BitVec 5) (u m : BitVec 1) (g : BitVec 4) (s : State) : Host.Outcome State Fault Refusal :=
  issue1 (opVredmin 4 d a b u m g) s
def execVscan (d a b : BitVec 5) (w u m : BitVec 1) (g : BitVec 4) (s : State) : Host.Outcome State Fault Refusal :=
  issue1 (opVscan 4 d a b w u m g) s
def execVslideup (d a : BitVec 5) (b : BitVec 6) (k m : BitVec 1) (g : BitVec 4) (s : State) : Host.Outcome State Fault Refusal :=
  issue1 (opVslideup 4 d a b k m g) s
def execVslidedn (d a : BitVec 5) (b : BitVec 6) (k m : BitVec 1) (g : BitVec 4) (s : State) : Host.Outcome State Fault Refusal :=
  issue1 (opVslidedn 4 d a b k m g) s
def execVgath (d a b : BitVec 5) (m : BitVec 1) (g : BitVec 4) (s : State) : Host.Outcome State Fault Refusal :=
  issue1 (opVgath 4 d a b m g) s
def execVcompress (d a b : BitVec 5) (g : BitVec 4) (s : State) : Host.Outcome State Fault Refusal :=
  issue1 (opVcompress 4 d a b g) s
def execVexp (d a : BitVec 5) (e : BitVec 8) (m : BitVec 1) (g : BitVec 4) (s : State) : Host.Outcome State Fault Refusal :=
  issue1 (opVexp 4 d a e m g) s
def execVrsqrt (d a : BitVec 5) (e : BitVec 8) (m : BitVec 1) (g : BitVec 4) (s : State) : Host.Outcome State Fault Refusal :=
  issue1 (opVrsqrt 4 d a e m g) s
def execVrecip (d a : BitVec 5) (e : BitVec 8) (m : BitVec 1) (g : BitVec 4) (s : State) : Host.Outcome State Fault Refusal :=
  issue1 (opVrecip 4 d a e m g) s
def execVdiv (d a b : BitVec 5) (m : BitVec 1) (g : BitVec 4) (s : State) : Host.Outcome State Fault Refusal :=
  issue1 (opVdiv 4 d a b m g) s
def execVmvxs (d : BitVec 6) (a : BitVec 5) (b : BitVec 6) (g : BitVec 4) (s : State) : Host.Outcome State Fault Refusal :=
  issue1 (opVmvxs 4 d a b g) s
def execVmvsx (d : BitVec 5) (a b : BitVec 6) (g : BitVec 4) (s : State) : Host.Outcome State Fault Refusal :=
  issue1 (opVmvsx 4 d a b g) s
def execVsplat (d : BitVec 5) (a : BitVec 6) (m : BitVec 1) (g : BitVec 4) (s : State) : Host.Outcome State Fault Refusal :=
  issue1 (opVsplat 4 d a m g) s
def execVmov (d a : BitVec 5) (r : BitVec 2) (g : BitVec 4) (s : State) : Host.Outcome State Fault Refusal :=
  issue1 (opVmov 4 d a r g) s
def execVld (d : BitVec 5) (a : BitVec 6) (t : BitVec 4) (m : BitVec 1) (g : BitVec 4) (s : State) : Host.Outcome State Fault Refusal :=
  issue1 (opVld 4 d a t m g) s
def execVlds (d : BitVec 5) (a : BitVec 6) (t : BitVec 4) (m : BitVec 1) (g : BitVec 4) (s : State) : Host.Outcome State Fault Refusal :=
  issue1 (opVlds 4 d a t m g) s
def execVldx (d : BitVec 5) (a : BitVec 6) (b : BitVec 5) (m : BitVec 1) (t : BitVec 3) (g : BitVec 4) (s : State) : Host.Outcome State Fault Refusal :=
  issue1 (opVldx 4 d a b m t g) s
def execVldff (d : BitVec 5) (a : BitVec 6) (t : BitVec 4) (m : BitVec 1) (g : BitVec 4) (s : State) : Host.Outcome State Fault Refusal :=
  issue1 (opVldff 4 d a t m g) s
def execVst (s : BitVec 5) (a : BitVec 6) (m : BitVec 1) (g : BitVec 4) (st : State) : Host.Outcome State Fault Refusal :=
  issue1 (opVst 4 s a m g) st
def execVsts (s : BitVec 5) (a : BitVec 6) (m : BitVec 1) (g : BitVec 4) (st : State) : Host.Outcome State Fault Refusal :=
  issue1 (opVsts 4 s a m g) st
def execVstx (s : BitVec 5) (a : BitVec 6) (b : BitVec 5) (m : BitVec 1) (g : BitVec 4) (st : State) : Host.Outcome State Fault Refusal :=
  issue1 (opVstx 4 s a b m g) st

end Sys2Proof.Machine
end

