-- ==== Sys2Proof/Machine/SviVec.lean ====
section
/-! DEFINITION. The vector instructions of SVI: the integer subset of the RISC-V vector extension 1.0 with VLEN = 4,096 and ELEN = 64
(R307, R313, R314). -/
namespace Sys2Proof.Machine

/-! ## Configuration -/

/-- VTYPE of a RISC-V vtype value; `none` sets vill. Every SEW of 8 to 64 goes with every LMUL (R313). -/
def rvVt (x : Nat) : Option (BitVec 32) :=
  if x / 256 ≠ 0 ∨ nfld x 0 3 = 4 ∨ 4 ≤ nfld x 3 3 then none
  else some (BitVec.ofNat 32 (nfld x 3 3 + 4 * nfld x 0 3 + 32 * nfld x 6 2))

/-- A new configuration with its vl in rd: AVL as a number, `none` for the largest, or the present VL kept. -/
def rvSet (pre s : State) (rd : BitVec 5) (vt : Option (BitVec 32)) (avl : BitVec 32 → Option Nat) : State :=
  match vt with
  | none => setCfg s rd.toNat 0x80000000#32 0
  | some t =>
    match avl t with
    | some n => setCfg s rd.toNat t n
    | none =>
      -- vl is kept: the ratio of SEW to LMUL must be the same
      if vlmaxOf t = vlmaxOf (cur pre).vtype ∧ bit (cur pre).vtype 31 = false then setCfg s rd.toNat t (cur pre).vl.toNat
      else setCfg s rd.toNat 0x80000000#32 0

/-- The AVL of rs1 (x0 with a destination: VLMAX; x0 twice: VL is kept). -/
def rvAvl (pre : State) (rd rs1 : BitVec 5) (t : BitVec 32) : Option Nat :=
  if rs1 ≠ 0 then some (Nat.min (rx5n pre rs1).toNat (vlmaxOf t)) else if rd ≠ 0 then some (vlmaxOf t) else none

/-! ## Element functions -/

/-- Rounding of the fixed-point instructions: x shifted right by d under vxrm. -/
def rvRound (rm : Nat) (x : Int) (d : Nat) : Int :=
  if d = 0 then x else
  let q := x / (2 : Int) ^ d
  let r := x % (2 : Int) ^ d
  match rm with
  | 0 => (x + (2 : Int) ^ (d - 1)) / (2 : Int) ^ d
  | 1 => shrP x d .rne
  | 2 => q
  | _ => if r ≠ 0 ∧ q % 2 = 0 then q + 1 else q

/-- Clips to the whole range of width w. -/
def rvClipS (w : Nat) (x : Int) : Int × Bool :=
  let hi := (2 : Int) ^ (w - 1)
  if x ≥ hi then (hi - 1, true) else if x < -hi then (-hi, true) else (x, false)
def rvClipU (w : Nat) (x : Int) : Int × Bool :=
  if x ≥ (2 : Int) ^ w then ((2 : Int) ^ w - 1, true) else if x < 0 then (0, true) else (x, false)

/-- Single-width functions of OPIVV, OPIVX, OPIVI: x from vs2, y the other operand, as patterns of width w. -/
def rvOpi (f6 w rm x y : Nat) : Int × Bool :=
  let sx := sextI x w
  let sy := sextI y w
  match f6 with
  | 0x00 => ((x : Int) + y, false)
  | 0x02 => ((x : Int) - y, false)
  | 0x03 => ((y : Int) - x, false)
  | 0x04 => (Nat.min x y, false)
  | 0x05 => (min sx sy, false)
  | 0x06 => (Nat.max x y, false)
  | 0x07 => (max sx sy, false)
  | 0x09 => ((x &&& y : Nat), false)
  | 0x0A => ((x ||| y : Nat), false)
  | 0x0B => ((x ^^^ y : Nat), false)
  | 0x20 => rvClipU w ((x : Int) + y)
  | 0x21 => rvClipS w (sx + sy)
  | 0x22 => rvClipU w ((x : Int) - y)
  | 0x23 => rvClipS w (sx - sy)
  | 0x25 => ((x <<< (y % w) : Nat), false)
  | 0x27 => rvClipS w (rvRound rm (sx * sy) (w - 1))
  | 0x28 => ((x >>> (y % w) : Nat), false)
  | 0x29 => (sx / (2 : Int) ^ (y % w), false)
  | 0x2A => (rvRound rm x (y % w), false)
  | _ => (rvRound rm sx (y % w), false)

/-- Quotients and remainders of RISC-V. -/
def rvDivU (w x y : Nat) : Int := if y = 0 then (2 : Int) ^ w - 1 else (x / y : Nat)
def rvRemU (x y : Nat) : Int := if y = 0 then x else (x % y : Nat)
def rvDivS (sx sy : Int) : Int := if sy = 0 then -1 else Int.tdiv sx sy
def rvRemS (sx sy : Int) : Int := if sy = 0 then sx else Int.tmod sx sy

/-- Single-width functions of OPMVV and OPMVX; z is the old destination. -/
def rvOpm (f6 w rm x y z : Nat) : Int :=
  let sx := sextI x w
  let sy := sextI y w
  match f6 with
  | 0x08 => rvRound rm ((x : Int) + y) 1
  | 0x09 => rvRound rm (sx + sy) 1
  | 0x0A => rvRound rm ((x : Int) - y) 1
  | 0x0B => rvRound rm (sx - sy) 1
  | 0x20 => rvDivU w x y
  | 0x21 => rvDivS sx sy
  | 0x22 => rvRemU x y
  | 0x23 => rvRemS sx sy
  | 0x24 => (x : Int) * y / (2 : Int) ^ w
  | 0x25 => (x : Int) * y
  | 0x26 => sx * y / (2 : Int) ^ w
  | 0x27 => sx * sy / (2 : Int) ^ w
  | 0x29 => (y : Int) * z + x
  | 0x2B => (x : Int) - y * z
  | 0x2D => (y : Int) * x + z
  | _ => (z : Int) - y * x

/-- Widening functions: x of width w, or 2w for the .w forms. -/
def rvWide (f6 w x y z : Nat) : Int :=
  let sx := sextI x w
  let sy := sextI y w
  match f6 with
  | 0x30 => (x : Int) + y
  | 0x31 => sx + sy
  | 0x32 => (x : Int) - y
  | 0x33 => sx - sy
  | 0x34 => (x : Int) + y
  | 0x35 => (x : Int) + sy
  | 0x36 => (x : Int) - y
  | 0x37 => (x : Int) - sy
  | 0x38 => (x : Int) * y
  | 0x3A => sx * y
  | 0x3B => sx * sy
  | 0x3C => (x : Int) * y + z
  | 0x3D => sx * sy + z
  | 0x3E => sx * y + z
  | _ => x * sy + z

/-- Narrowing functions: x of width 2w. -/
def rvNarrow (f6 w rm x y : Nat) : Int × Bool :=
  let sh := y % (2 * w)
  match f6 with
  | 0x2C => ((x >>> sh : Nat), false)
  | 0x2D => (sextI x (2 * w) / (2 : Int) ^ sh, false)
  | 0x2E => rvClipU w (rvRound rm x sh)
  | _ => rvClipS w (rvRound rm (sextI x (2 * w)) sh)

/-- The compares. -/
def rvCmp (f6 w x y : Nat) : Bool :=
  let sx := sextI x w
  let sy := sextI y w
  match f6 with
  | 0x18 => x = y
  | 0x19 => x ≠ y
  | 0x1A => x < y
  | 0x1B => sx < sy
  | 0x1C => x ≤ y
  | 0x1D => sx ≤ sy
  | 0x1E => x > y
  | _ => sx > sy

/-- The mask functions: vs2 and vs1. -/
def rvMask (f6 : Nat) (a b : Bool) : Bool :=
  match f6 with
  | 0x18 => a && !b
  | 0x19 => a && b
  | 0x1A => a || b
  | 0x1B => xor a b
  | 0x1C => a || !b
  | 0x1D => !(a && b)
  | 0x1E => !(a || b)
  | _ => !(xor a b)

/-- The reductions. -/
def rvRed (f6 w a b : Nat) : Nat :=
  match f6 with
  | 0x00 => (a + b) % 2 ^ w
  | 0x01 => a &&& b
  | 0x02 => a ||| b
  | 0x03 => a ^^^ b
  | 0x04 => Nat.min a b
  | 0x05 => if sextI a w ≤ sextI b w then a else b
  | 0x06 => Nat.max a b
  | _ => if sextI a w ≥ sextI b w then a else b

/-! ## Kinds of arithmetic instructions -/

/-- What an arithmetic encoding does, as far as operands go. -/
inductive RvKind where
  /-- Single width, destination and sources at SEW. -/
  | same
  /-- The carry forms and merges: every element below VL is written. -/
  | carry
  /-- Destination at 2 SEW; `wide` when vs2 is at 2 SEW. -/
  | widen (wide : Bool)
  | narrow
  /-- Mask destination: compares and carries out. -/
  | cmp | carryOut
  | slideUp | slideDown | slide1Up | slide1Down
  | gather | gather16 | compress
  | red | wred
  | maskOp | maskUn | iota | vid
  | ext (f : Nat)
  | toX | popc | first | fromX
  | wholeMv
  deriving DecidableEq, Repr

/-- The kind of a legal encoding. -/
def rvKind (f6 : Nat) (f3 vs1 : Nat) : RvKind :=
  if f3 = 0 ∨ f3 = 3 ∨ f3 = 4 then
    match f6 with
    | 0x0C => .gather
    | 0x0E => if f3 = 0 then .gather16 else .slideUp
    | 0x0F => .slideDown
    | 0x10 => .carry
    | 0x12 => .carry
    | 0x17 => .carry
    | 0x11 => .carryOut
    | 0x13 => .carryOut
    | 0x27 => if f3 = 3 then .wholeMv else .same
    | 0x30 => .wred
    | 0x31 => .wred
    | _ => if 0x18 ≤ f6 ∧ f6 ≤ 0x1F then .cmp else if 0x2C ≤ f6 then .narrow else .same
  else
    match f6 with
    | 0x0E => .slide1Up
    | 0x0F => .slide1Down
    | 0x10 => if f3 = 6 then .fromX else if vs1 = 0 then .toX else if vs1 = 16 then .popc else .first
    | 0x12 => .ext (if vs1 < 4 then 8 else if vs1 < 6 then 4 else 2)
    | 0x14 => if vs1 = 16 then .iota else if vs1 = 17 then .vid else .maskUn
    | 0x17 => .compress
    | _ => if f6 < 8 then .red else if 0x18 ≤ f6 ∧ f6 ≤ 0x1F then .maskOp
        else if 0x34 ≤ f6 ∧ f6 ≤ 0x37 then .widen true else if 0x30 ≤ f6 then .widen false else .same

/-! ## Checks -/

/-- A vector operand: register, effective width. -/
abbrev RvG := Nat × Nat

/-- The groups of an instruction: destination, sources. Mask registers have width 1. -/
def rvGroups (k : RvKind) (sew : Nat) (vec : Bool) (vd vs2 vs1 : Nat) : Option RvG × List RvG :=
  let v1 := fun (e : Nat) => if vec then [((vs1, e) : RvG)] else []
  match k with
  | .same => (some (vd, sew), (vs2, sew) :: v1 sew)
  | .carry => (some (vd, sew), (vs2, sew) :: v1 sew)
  | .widen w => (some (vd, 2 * sew), (vs2, if w then 2 * sew else sew) :: v1 sew)
  | .narrow => (some (vd, sew), (vs2, 2 * sew) :: v1 sew)
  | .cmp => (some (vd, 1), (vs2, sew) :: v1 sew)
  | .carryOut => (some (vd, 1), (vs2, sew) :: v1 sew)
  | .slideUp => (some (vd, sew), [(vs2, sew)])
  | .slideDown => (some (vd, sew), [(vs2, sew)])
  | .slide1Up => (some (vd, sew), [(vs2, sew)])
  | .slide1Down => (some (vd, sew), [(vs2, sew)])
  | .gather => (some (vd, sew), (vs2, sew) :: v1 sew)
  | .gather16 => (some (vd, sew), [(vs2, sew), (vs1, 16)])
  | .compress => (some (vd, sew), [(vs2, sew), (vs1, 1)])
  | .red => (none, [(vs2, sew)])
  | .wred => (none, [(vs2, sew)])
  | .maskOp => (none, [])
  | .maskUn => (some (vd, 1), [(vs2, 1)])
  | .iota => (some (vd, sew), [(vs2, 1)])
  | .vid => (some (vd, sew), [])
  | .ext f => (some (vd, sew), [(vs2, sew / f)])
  | .toX => (none, [])
  | .popc => (none, [])
  | .first => (none, [])
  | .fromX => (none, [])
  | .wholeMv => (none, [])

/-- Registers of a group: one for a mask. -/
def rvRegs (v : VCfg) (g : RvG) : Nat := if g.2 = 1 then 1 else v.regs g.2

/-- The overlap of a destination with a source that RISC-V reserves. -/
def rvClash (v : VCfg) (never : Bool) (d x : RvG) : Bool :=
  let nd := rvRegs v d
  let nx := rvRegs v x
  let hit := decide (d.1 < x.1 + nx) && decide (x.1 < d.1 + nd)
  hit && (never || !(d.2 = x.2 || (decide (d.2 < x.2) && d.1 = x.1) ||
    (decide (x.2 < d.2) && decide (8 ≤ (if x.2 = 1 then 8 else v.em8 x.2)) && x.1 + nx = d.1 + nd)))

/-- A source as a range of registers with its width: first register, registers, width. -/
abbrev RvSrc := Nat × Nat × Nat

/-- RISC-V reserves reading one vector register at two widths in one instruction; the mask v0 is read at width 1 (R310). -/
def rvTwoWidths (l : List RvSrc) : Bool :=
  l.any (fun a => l.any (fun b => decide (a.2.2 ≠ b.2.2) && meets a.1 a.2.1 b.1 b.2.1))

/-- The sources of an arithmetic instruction: its groups, the scalar of a reduction, the old destination of a multiply-add, the mask. -/
def rvSources (v : VCfg) (k : RvKind) (vm vec acc : Bool) (vd vs2 vs1 : Nat) : List RvSrc :=
  let gs := rvGroups k v.sew vec vd vs2 vs1
  gs.2.map (fun g => (g.1, rvRegs v g, g.2)) ++
    (match k with
     | .red => [(vs1, 1, v.sew)]
     | .wred => [(vs1, 1, 2 * v.sew)]
     | .popc => [(vs2, 1, 1)]
     | .first => [(vs2, 1, 1)]
     | _ => []) ++
    (if acc then gs.1.toList.map (fun g => (g.1, rvRegs v g, g.2)) else []) ++ (if vm then [] else [(0, 1, 1)])

/-- A multiply-add of OPMVV and OPMVX, which reads its destination. -/
def rvAcc (f6 : Nat) : Bool := f6 = 0x29 || f6 = 0x2B || f6 = 0x2D || f6 = 0x2F || (0x3C ≤ f6 && f6 ≤ 0x3F)

/-- A source of an extension narrower than 8 bits, or of less than an eighth of a register (R310). -/
def rvExtBad (v : VCfg) : RvKind → Bool
  | .ext f => decide (v.sew / f < 8) || decide (v.em8 (v.sew / f) = 0)
  | _ => false

/-- The reserved uses of an arithmetic instruction, in the order configuration, registers, overlap (R211, R310). -/
def rvBad (v : VCfg) (k : RvKind) (vm : Bool) (vec acc : Bool) (vd vs2 vs1 : Nat) : Option Code :=
  let gs := rvGroups k v.sew vec vd vs2 vs1
  let all := gs.1.toList ++ gs.2
  let grp := all.filter (fun g => g.2 ≠ 1)
  let never := k = .gather || k = .gather16 || k = .slideUp || k = .slide1Up || k = .compress || k = .maskUn || k = .iota
  if k = .wholeMv then
    (if vd % (vs1 + 1) ≠ 0 ∨ vs2 % (vs1 + 1) ≠ 0 then some .sviill else none)
  else if v.vill then some .vconfig
  else if rvExtBad v k then some .sviill
  else if grp.any (fun g => g.2 < 8 || 64 < g.2 || 64 < v.em8 g.2 || v.em8 g.2 = 0) ∨ (k = .wred ∧ 32 < v.sew) then some .vconfig
  else if grp.any (fun g => g.1 % v.regs g.2 ≠ 0) then some .vreg
  else if rvTwoWidths (rvSources v k vm vec acc vd vs2 vs1) then some .sviill
  else match gs.1 with
  | none => none
  | some d =>
    if gs.2.any (rvClash v never d) then some .sviill
    else if !vm && d.1 = 0 && (d.2 ≠ 1 || k = .maskUn) then some .sviill
    else none

/-! ## Arithmetic -/

/-- vxrm. -/
def rvRm (s : State) : Nat := fld (rvx s) 1 2

/-- vxsat is set when an element saturated. -/
def rvSat (s : State) (b : Bool) : State := if b then wvx s (rvx s ||| 1) else s

/-- The other operand of element i: vector element, scalar, or immediate (unsigned where the instruction says so). -/
def rvB (s : State) (v : VCfg) (f3 vs1 eew : Nat) (uimm : Bool) (i : Nat) : Nat :=
  match f3 with
  | 0 => elN (vgrp s v vs1 eew) eew i
  | 2 => elN (vgrp s v vs1 eew) eew i
  | 3 => if uimm then vs1 else (sextI vs1 5 % (2 : Int) ^ eew).toNat
  | _ => (rx s vs1).toNat % 2 ^ eew

/-- Immediates that RISC-V reads unsigned. -/
def rvUimm (f6 : Nat) : Bool :=
  f6 = 0x25 || f6 = 0x28 || f6 = 0x29 || f6 = 0x2A || f6 = 0x2B || f6 = 0x2C || f6 = 0x2D || f6 = 0x2E || f6 = 0x2F ||
    f6 = 0x0C || f6 = 0x0E || f6 = 0x0F

/-- An integer reduced to a pattern of width w. -/
def rvPat (w : Nat) (x : Int) : Nat := (x % (2 : Int) ^ w).toNat

/-- A group written under the policies (R207). -/
def rvPut (pre s : State) (v : VCfg) (d eew vl : Nat) (els : List (Nat × Nat)) : State :=
  vwrite pre s v 1 d eew { els := els, vl := vl }

/-- A mask register written: its tail is agnostic always. -/
def rvPutMask (pre s : State) (v : VCfg) (d : Nat) (els : List (Nat × Nat)) : State :=
  vwriteMask pre s { v with vta := true } 1 d { els := els, vl := v.vl }

/-- One element in element 0 of a single register, the rest tail. -/
def rvPut0 (pre s : State) (v : VCfg) (d eew x : Nat) : State :=
  vput s 1 d 1 (vmergeEl eew 1 v.vma v.vta (4096 / eew) 0 (rv pre d).toNat [(0, x % 2 ^ eew)])

/-- The mask functions of one source (vmsbf, vmsif, vmsof): bits before, through, or at the first set active bit. -/
def rvFirst (s : State) (vs2 : Nat) (act : List Nat) (f : Nat) : List (Nat × Nat) :=
  let first := act.find? (fun i => bit (rv s vs2) i)
  act.map (fun i => (i, b2n (match first with
    | none => f ≠ 2
    | some j => match f with
      | 1 => i < j
      | 2 => i = j
      | _ => i ≤ j)))

/-- The effect of an arithmetic instruction that has passed its checks. -/
def rvArith (pre s : State) (f6 : Nat) (vm : Bool) (vs2 vs1 f3 vd : Nat) : State :=
  let v := vcfg (cur pre)
  let w := v.sew
  let k := rvKind f6 f3 vs1
  let rm := rvRm pre
  let act := actives pre v (!vm)
  let all := List.range v.vl
  let v0 := rv pre 0
  let x := fun (i : Nat) => elN (vgrp pre v vs2 w) w i
  let x2 := fun (i : Nat) => elN (vgrp pre v vs2 (2 * w)) (2 * w) i
  let y := fun (i : Nat) => rvB pre v f3 vs1 w (rvUimm f6) i
  let z := fun (i : Nat) => elN (vgrp pre v vd w) w i
  let z2 := fun (i : Nat) => elN (vgrp pre v vd (2 * w)) (2 * w) i
  let opi := f3 = 0 ∨ f3 = 3 ∨ f3 = 4
  let off := if f3 = 3 then vs1 else (rx pre vs1).toNat
  let vx := v.vlmax
  match k with
  | .toX => wx s 1 vd (BitVec.ofInt 64 (sextI (elN (rv pre vs2).toNat w 0) w))
  | .popc => wx s 1 vd (BitVec.ofNat 64 (act.countP (fun i => bit (rv pre vs2) i)))
  | .first => wx s 1 vd (match act.find? (fun i => bit (rv pre vs2) i) with
    | some i => BitVec.ofNat 64 i
    | none => BitVec.allOnes 64)
  | .wholeMv => vput s 1 vd (vs1 + 1) (vnum pre vs2 (vs1 + 1))
  | _ =>
    if v.vl = 0 then s else
    match k with
    | .same =>
      if opi then
        let rs := act.map (fun i => (i, rvOpi f6 w rm (x i) (y i)))
        rvSat (rvPut pre s v vd w v.vl (rs.map (fun e => (e.1, rvPat w e.2.1)))) (rs.any (·.2.2))
      else rvPut pre s v vd w v.vl (act.map (fun i => (i, rvPat w (rvOpm f6 w rm (x i) (y i) (z i)))))
    | .carry =>
      rvPut pre s v vd w v.vl (all.map (fun i => (i, match f6 with
        | 0x10 => rvPat w ((x i : Int) + y i + b2n (bit v0 i))
        | 0x12 => rvPat w ((x i : Int) - y i - b2n (bit v0 i))
        | _ => if vm || bit v0 i then y i else x i)))
    | .widen wide => rvPut pre s v vd (2 * w) v.vl (act.map (fun i =>
        (i, rvPat (2 * w) (rvWide f6 w (if wide then x2 i else x i) (y i) (z2 i)))))
    | .narrow =>
      let rs := act.map (fun i => (i, rvNarrow f6 w rm (x2 i) (y i)))
      rvSat (rvPut pre s v vd w v.vl (rs.map (fun e => (e.1, rvPat w e.2.1)))) (rs.any (·.2.2))
    | .cmp => rvPutMask pre s v vd (act.map (fun i => (i, b2n (rvCmp f6 w (x i) (y i)))))
    | .carryOut => rvPutMask pre s v vd (all.map (fun i =>
        let c := if vm then 0 else b2n (bit v0 i)
        (i, b2n (if f6 = 0x11 then decide (2 ^ w ≤ x i + y i + c) else decide (x i < y i + c)))))
    | .slideUp => rvPut pre s v vd w v.vl ((List.range v.vl).filterMap (fun i =>
        if i < off then some (i, z i) else if act.contains i then some (i, x (i - off)) else none))
    | .slideDown => rvPut pre s v vd w v.vl (act.map (fun i => (i, if i + off < vx then x (i + off) else 0)))
    | .slide1Up => rvPut pre s v vd w v.vl (act.map (fun i => (i, if i = 0 then (rx pre vs1).toNat % 2 ^ w else x (i - 1))))
    | .slide1Down => rvPut pre s v vd w v.vl (act.map (fun i =>
        (i, if i + 1 = v.vl then (rx pre vs1).toNat % 2 ^ w else x (i + 1))))
    | .gather => rvPut pre s v vd w v.vl (act.map (fun i =>
        let j := if f3 = 0 then y i else off
        (i, if j < vx then x j else 0)))
    | .gather16 => rvPut pre s v vd w v.vl (act.map (fun i =>
        let j := elN (vgrp pre v vs1 16) 16 i
        (i, if j < vx then x j else 0)))
    | .compress =>
      let on := all.filter (fun i => bit (rv pre vs1) i)
      rvPut pre s v vd w on.length (on.zipIdx.map (fun e => (e.2, x e.1)))
    | .red => rvPut0 pre s v vd w (act.foldl (fun a i => rvRed f6 w a (x i)) (elN (rv pre vs1).toNat w 0))
    | .wred => rvPut0 pre s v vd (2 * w) (act.foldl (fun a i =>
        rvPat (2 * w) ((a : Int) + (if f6 = 0x30 then (x i : Int) else sextI (x i) w))) (elN (rv pre vs1).toNat (2 * w) 0))
    | .maskOp => rvPutMask pre s v vd (all.map (fun i => (i, b2n (rvMask f6 (bit (rv pre vs2) i) (bit (rv pre vs1) i)))))
    | .maskUn => rvPutMask pre s v vd (rvFirst pre vs2 act vs1)
    | .iota => rvPut pre s v vd w v.vl (act.map (fun i =>
        (i, (act.filter (· < i)).countP (fun j => bit (rv pre vs2) j) % 2 ^ w)))
    | .vid => rvPut pre s v vd w v.vl (act.map (fun i => (i, i % 2 ^ w)))
    | .ext f => rvPut pre s v vd w v.vl (act.map (fun i =>
        let e := elN (vgrp pre v vs2 (w / f)) (w / f) i
        (i, if vs1 % 2 = 0 then e else rvPat w (sextI e (w / f)))))
    | .fromX => rvPut0 pre s v vd w (rx pre vs1).toNat
    | _ => s

/-! ## Loads and stores (R231, R313, R314) -/

/-- The forms of a vector memory instruction. -/
inductive RvMode where
  | unit (ff : Bool) | mask | whole | strided | indexed
  deriving DecidableEq, Repr

def rvMode (mop : BitVec 2) (rs2 : BitVec 5) : RvMode :=
  match mop.toNat with
  | 0 => if rs2 = 8 then .whole else if rs2 = 11 then .mask else .unit (rs2 = 16)
  | 2 => .strided
  | _ => .indexed

/-- Width in bits of a width field. -/
def rvEew (width : BitVec 3) : Nat := if width = 0 then 8 else 8 * 2 ^ (width.toNat - 4)

/-- One vector memory access as its elements: data width, registers of one field, fields, element count, and the elements in order
as (field, index, address). -/
structure RvMem where
  eew : Nat
  regs : Nat
  nf : Nat
  vl : Nat
  ne : Nat
  els : List (Nat × Nat × Word)

/-- The elements of an access. -/
def rvElems (s : State) (m : RvMode) (nf : Nat) (vm : Bool) (rs2 rs1 : Nat) (width : Nat) : RvMem :=
  let v := vcfg (cur s)
  let base := rx s rs1
  let act := actives s v (!vm)
  let at_ := fun (n : Nat) (is : List Nat) (f : Nat → Word) =>
    (is.map (fun i => (List.range nf).map (fun j => (j, i, f i + BitVec.ofNat 64 (j * n))))).flatten
  match m with
  | .whole =>
    let n := nf * 4096 / width
    ⟨width, nf, 1, n, n, (List.range n).map (fun i => (0, i, base + BitVec.ofNat 64 (i * (width / 8))))⟩
  | .mask =>
    let n := (v.vl + 7) / 8
    ⟨8, 1, 1, n, 512, (List.range n).map (fun i => (0, i, base + BitVec.ofNat 64 i))⟩
  | .unit _ => ⟨width, v.regs width, nf, v.vl, v.ne width, at_ (width / 8) act (fun i => base + BitVec.ofNat 64 (i * nf * (width / 8)))⟩
  | .strided => ⟨width, v.regs width, nf, v.vl, v.ne width, at_ (width / 8) act (fun i => base + BitVec.ofNat 64 i * rx s rs2)⟩
  | .indexed => ⟨v.sew, v.regs v.sew, nf, v.vl, v.ne v.sew,
      at_ (v.sew / 8) act (fun i => base + BitVec.ofNat 64 (elN (vgrp s v rs2 width) width i))⟩

/-- The index of an element in the group of all fields. -/
def RvMem.idx (m : RvMem) (e : Nat × Nat × Word) : Nat := e.1 * (4096 * m.regs / m.eew) + e.2.1

/-- Elements as the line requests of chapter 08 take them. -/
def RvMem.flat (m : RvMem) : List (Nat × Word) := m.els.map (fun e => (m.idx e, e.2.2))

/-- The configuration faults of an access. -/
def rvMemBad (v : VCfg) (m : RvMode) (nf : Nat) (st vm : Bool) (vd rs2 width : Nat) : Option Code :=
  let dw := if m = .indexed then v.sew else width
  let nd := if m = .whole then 1 else v.regs dw
  let gs : List Nat := if m = .indexed then [v.sew, width] else [width]
  match m with
  | .whole => if vd % nf ≠ 0 then some .sviill else none
  | .mask => if v.vill then some .vconfig else none
  | _ =>
    if v.vill ∨ gs.any (fun e => 64 < v.em8 e || v.em8 e = 0) then some .vconfig
    else if vd % nd ≠ 0 ∨ (m = .indexed ∧ rs2 % v.regs width ≠ 0) then some .vreg
    else if 8 < nf * nd ∨ 32 < vd + nf * nd then some .sviill
    else if !st && !vm && vd = 0 then some .sviill
    else if rvTwoWidths ((if st then [(vd, nf * nd, dw)] else []) ++ (if m = .indexed then [(rs2, v.regs width, width)] else []) ++
        (if vm then [] else [(0, 1, 1)])) then some .sviill
    else if !st && m = .indexed && (List.range nf).any (fun f => rvClash v (decide (1 < nf)) (vd + f * nd, dw) (rs2, width)) then
      some .sviill
    else none

/-- The element at which a fault-only-first load is cut (R231). -/
def rvTrim (s : State) (x : RvMem) : Option (Nat × Word × WFail) :=
  match x.els.findSome? (fun e => match chk s e.2.2 (x.eew / 8) (x.eew / 8) false with
    | .error f => some (e.2.1, e.2.2, f)
    | .ok _ => none) with
  | some e => some e
  | none => none

/-- Elements written with ones by the policies, in every field. -/
def rvOnes (v : VCfg) (x : RvMem) (tailAll : Bool) : List Nat :=
  let act := (x.els.map (fun e => e.2.1)).dedup
  let one := (if v.vma then (List.range x.vl).filter (fun i => !act.contains i) else []) ++
    (if v.vta || tailAll then (List.range x.ne).filter (fun i => x.vl ≤ i) else [])
  ((List.range x.nf).map (fun f => one.map (fun i => f * (4096 * x.regs / x.eew) + i))).flatten

/-- The issue of a load. -/
def rvLoad (pre s : State) (v : VCfg) (vd : Nat) (xa : Word) (x : RvMem) (tailAll : Bool) : State :=
  let e := newId s
  let es := x.flat
  let ls := vLines pre es
  let k := vLoadReqs pre 4 0 e.1 (x.eew / 8) es e.2 0 ls
  let els := es.map (fun y => (y.1, ls.idxOf (vKey pre y.2), fld y.2 0 7))
  addLand k.1
    { id := e.1, at_ := (cur pre).ctime + (if spc xa = 1 then 4 else 0), parts := k.2
      dst := .vec vd x.eew (rvOnes v x tailAll) els, room := 512 * x.regs * x.nf, own := k.2.all (·.data.isSome) }

/-- Of the requests of one access at most 2,048 are under way at once: one waits for the 2,048th before it (R92, R313). -/
def paceReqs (pre s : State) : State :=
  if s.nextId - pre.nextId ≤ 2048 then s
  else
    let ids := (s.reqs.filter (fun r => decide (pre.nextId ≤ r.id))).map (·.id)
    { s with reqs := s.reqs.map (fun r =>
        if pre.nextId ≤ r.id then
          (match ids.idxOf? r.id with
           | some i => if 2048 ≤ i then { r with deps := ids.getD (i - 2048) 0 :: r.deps } else r
           | none => r)
        else r) }

/-- A vector memory instruction. -/
def opRvMem (st : Bool) (nf : BitVec 3) (mop : BitVec 2) (vm : Bool) (rs2 rs1 : BitVec 5) (width : BitVec 3) (vd : BitVec 5)
    (word : Word) : SlotOp :=
  let m := rvMode mop rs2
  let n := nf.toNat + 1
  let ew := rvEew width
  let el := fun (s : State) => rvElems s m n vm rs2.toNat rs1.toNat ew
  let ff := m = .unit true
  { slot := 4, guard := 0
    reqs := fun s => (Nat.min 2048 (vLines s (el s).flat).length, if st then 0 else 512 * (el s).regs * (el s).nf)
    admits := fun s => !ownHeld s || (el s).els.all (fun e => spc e.2.2 ≠ 1)
    check := fun s _ =>
      match rvMemBad (vcfg (cur s)) m n st vm vd.toNat rs2.toNat ew with
      | some c => some (sFault c (if c = .sviill then word else 0))
      | none =>
        let x := el s
        let bad := x.els.findSome? (fun e => match chk s e.2.2 (x.eew / 8) (x.eew / 8) st with
          | .error f => some (e.2.1, e.2.2, f)
          | .ok _ => none)
        match bad with
        | none => none
        | some f =>
          if ff && (x.els.head?.map (fun e => e.2.1)) ≠ some f.1 then none
          else some { addrFault 0 3 (b2n st) f.2.1 f.2.2 with ecmd := f.1 }
    eff := fun pre s =>
      let v := vcfg (cur pre)
      let x := el pre
      if x.vl = 0 then s
      else if st then
        let all := vnum pre vd.toNat (x.regs * x.nf)
        paceReqs pre (vStoreReqs pre 4 x.eew all x.flat s (vLines pre x.flat))
      else
        match (if ff then rvTrim pre x else none) with
        | none => paceReqs pre (rvLoad pre s v vd.toNat (rx5n pre rs1) x (m = .mask))
        | some f =>
          let x' := { x with vl := f.1, els := x.els.filter (fun e => e.2.1 < f.1) }
          modCur (paceReqs pre (rvLoad pre s v vd.toNat (rx5n pre rs1) x' false)) (fun c => { c with vl := BitVec.ofNat 13 f.1 }) }

/-! ## The instructions -/

/-- The operation of a vector instruction. -/
def opSviVec (o : SviVec) : SlotOp :=
  match o with
  | .vsetvli rd rs1 z => { slot := 4, guard := 0, eff := fun pre s => rvSet pre s rd (rvVt z.toNat) (rvAvl pre rd rs1) }
  | .vsetivli rd u z =>
    { slot := 4, guard := 0
      eff := fun pre s => rvSet pre s rd (rvVt z.toNat) (fun t => some (Nat.min u.toNat (vlmaxOf t))) }
  | .vsetvl rd rs1 rs2 =>
    { slot := 4, guard := 0, eff := fun pre s => rvSet pre s rd (rvVt (rx5n pre rs2).toNat) (rvAvl pre rd rs1) }
  | .arith f6 vm vs2 vs1 f3 vd =>
    let k := rvKind f6.toNat f3.toNat vs1.toNat
    let vec := decide (f3 = 0 ∨ f3 = 2)
    { slot := 4, guard := 0
      check := fun s _ => match rvBad (vcfg (cur s)) k (vm = 1) vec (!(f3 = 0 || f3 = 3 || f3 = 4) && rvAcc f6.toNat) vd.toNat vs2.toNat vs1.toNat with
        | some c => some (sFault c (if c = .sviill then ((encode (.sviVectorOp o)).getD 0).setWidth 64 else 0))
        | none => none
      eff := fun pre s => rvArith pre s f6.toNat (vm = 1) vs2.toNat vs1.toNat f3.toNat vd.toNat }
  | .mem st nf _ mop vm rs2 rs1 width vd =>
    opRvMem st nf mop (vm = 1) rs2 rs1 width vd (((encode (.sviVectorOp o)).getD 0).setWidth 64)

/-! ## Meanings -/

def execSviVectorOp (o : SviVec) (s : State) : Host.Outcome State Fault Refusal := sviIssue (opSviVec o) s

end Sys2Proof.Machine
end

