-- ==== Sys2Proof/Machine/Slots.lean ====
section
/-! DEFINITION. The slot operation of every slot instruction, for the slot it stands in (R120, R131). -/
namespace Sys2Proof.Machine

/-- The slot operation of an instruction in slot j; SVI words and the steps of other agents have none. -/
def slotOf (j : Nat) : Instr → Option SlotOp
  | .nop => some (opNop j)
  | .br o g => some (opBr o g)
  | .brp a c o g => some (opBrp a c o g)
  | .call o g => some (opCall o g)
  | .ret g => some (opRet g)
  | .jr a g => some (opJr a g)
  | .callX a g => some (opCallX a g)
  | .loop a l g => some (opLoop a l g)
  | .loope st a l g => some (opLoope st a l g)
  | .lpstage g => some (opLpstage g)
  | .step i g => some (opStep i g)
  | .exit g => some (opExit g)
  | .cont o g => some (opCont o g)
  | .setlt t i g => some (opSetlt t i g)
  | .setltX t a g => some (opSetltX t a g)
  | .evwait d a b w g => some (opEvwait d a b w g)
  | .trap i g => some (opTrap i g)
  | .sysc i g => some (opSysc i g)
  | .bkpt i g => some (opBkpt i g)
  | .emret g => some (opEmret g)
  | .icinv sc g => some (opIcinv sc g)
  | .publish c a b g => some (opPublish c a b g)
  | .csrr d r g => some (opCsrr d r g)
  | .csrw a r g => some (opCsrw a r g)
  | .csrs a r g => some (opCsrs a r g)
  | .csrc a r g => some (opCsrc a r g)
  | .csrwI i r g => some (opCsrwI i r g)
  | .csrsI i r g => some (opCsrsI i r g)
  | .csrcI i r g => some (opCsrcI i r g)
  | .add d a b g => some (opAdd j d a b g)
  | .sub d a b g => some (opSub j d a b g)
  | .addi d a i g => some (opAddi j d a i g)
  | .and d a b g => some (opAnd j d a b g)
  | .or d a b g => some (opOr j d a b g)
  | .xor d a b g => some (opXor j d a b g)
  | .andi d a i g => some (opAndi j d a i g)
  | .ori d a i g => some (opOri j d a i g)
  | .xori d a i g => some (opXori j d a i g)
  | .sll d a b g => some (opSll j d a b g)
  | .srl d a b g => some (opSrl j d a b g)
  | .sra d a b g => some (opSra j d a b g)
  | .slli d a i g => some (opSlli j d a i g)
  | .srli d a i g => some (opSrli j d a i g)
  | .srai d a i g => some (opSrai j d a i g)
  | .li d i g => some (opLi j d i g)
  | .lih d i g => some (opLih j d i g)
  | .mul d a b g => some (opMul j d a b g)
  | .mulh d a b g => some (opMulh j d a b g)
  | .mulhu d a b g => some (opMulhu j d a b g)
  | .mulhsu d a b g => some (opMulhsu j d a b g)
  | .div d a b g => some (opDiv j d a b g)
  | .divu d a b g => some (opDivu j d a b g)
  | .rem d a b g => some (opRem j d a b g)
  | .remu d a b g => some (opRemu j d a b g)
  | .min d a b g => some (opMin j d a b g)
  | .max d a b g => some (opMax j d a b g)
  | .minu d a b g => some (opMinu j d a b g)
  | .maxu d a b g => some (opMaxu j d a b g)
  | .clz d a g => some (opClz j d a g)
  | .ctz d a g => some (opCtz j d a g)
  | .popc d a g => some (opPopc j d a g)
  | .sext d a i g => some (opSext j d a i g)
  | .zext d a i g => some (opZext j d a i g)
  | .cmp d a b c g => some (opCmp j d a b c g)
  | .cmpi d a i c g => some (opCmpi j d a i c g)
  | .pand d a b g => some (opPand j d a b g)
  | .por d a b g => some (opPor j d a b g)
  | .pxor d a b g => some (opPxor j d a b g)
  | .pandn d a b g => some (opPandn j d a b g)
  | .sel d a b f g => some (opSel j d a b f g)
  | .mov d a g => some (opMov j d a g)
  | .movFromPall d g => some (opMovFromPall j d g)
  | .movToPall a g => some (opMovToPall j a g)
  | .adds d a b f g => some (opAdds j d a b f g)
  | .subs d a b f g => some (opSubs j d a b f g)
  | .bfx d a b g => some (opBfx j d a b g)
  | .bfxu d a b g => some (opBfxu j d a b g)
  | .bfi d a b g => some (opBfi j d a b g)
  | .ldb d a t o g => some (opLdb d a t o g)
  | .ldbu d a t o g => some (opLdbu d a t o g)
  | .ldh d a t o g => some (opLdh d a t o g)
  | .ldhu d a t o g => some (opLdhu d a t o g)
  | .ldw d a t o g => some (opLdw d a t o g)
  | .ldwu d a t o g => some (opLdwu d a t o g)
  | .ldd d a t o g => some (opLdd d a t o g)
  | .stb b a o g => some (opStb b a o g)
  | .sth b a o g => some (opSth b a o g)
  | .stw b a o g => some (opStw b a o g)
  | .std b a o g => some (opStd b a o g)
  | .ldx d a b t g => some (opLdx d a b t g)
  | .stx s a b z g => some (opStx s a b z g)
  | .tld d t a b g => some (opTld d t a b g)
  | .tldt d t a b g => some (opTldt d t a b g)
  | .tst s a b g => some (opTst s a b g)
  | .bld t a b m g => some (opBld t a b m g)
  | .rld c a z i s g => some (opRld c a z i s g)
  | .rst b a z i s g => some (opRst b a z i s g)
  | .amo d a h t g => some (opAmo d a h t g)
  | .amoF d a h g => some (opAmoF d a h g)
  | .amoN d a h g => some (opAmoN d a h g)
  | .fence s g => some (opFence s g)
  | .drain c g => some (opDrain c g)
  | .drainR g => some (opDrainR g)
  | .bwait d a b s g => some (opBwait d a b s g)
  | .qpush a g => some (opQpush a g)
  | .tpost c a g => some (opTpost c a g)
  | .tix a g => some (opTix a g)
  | .vsetvl d a b g => some (opVsetvl j d a b g)
  | .vsetvlRead d g => some (opVsetvlRead j d g)
  | .vsetvli d a v g => some (opVsetvli j d a v g)
  | .vsetivli d l v g => some (opVsetivli j d l v g)
  | .vadd d a b k m g => some (opVadd j d a b k m g)
  | .vsub d a b k m g => some (opVsub j d a b k m g)
  | .vand d a b k m g => some (opVand j d a b k m g)
  | .vor d a b k m g => some (opVor j d a b k m g)
  | .vxor d a b k m g => some (opVxor j d a b k m g)
  | .vsll d a b k m g => some (opVsll j d a b k m g)
  | .vsrl d a b k m g => some (opVsrl j d a b k m g)
  | .vsra d a b k m g => some (opVsra j d a b k m g)
  | .vmul d a b k m g => some (opVmul j d a b k m g)
  | .vmulh d a b k m u g => some (opVmulh j d a b k m u g)
  | .vmin d a b k m g => some (opVmin j d a b k m g)
  | .vmax d a b k m g => some (opVmax j d a b k m g)
  | .vminu d a b k m g => some (opVminu j d a b k m g)
  | .vmaxu d a b k m g => some (opVmaxu j d a b k m g)
  | .vsadd d a b k m u g => some (opVsadd j d a b k m u g)
  | .vssub d a b k m u g => some (opVssub j d a b k m u g)
  | .vsmul d a b r m g => some (opVsmul j d a b r m g)
  | .vwadd d a b k m u g => some (opVwadd j d a b k m u g)
  | .vwmul d a b k m u g => some (opVwmul j d a b k m u g)
  | .vwmacc d a b k m u g => some (opVwmacc j d a b k m u g)
  | .vnsra d a b k r m g => some (opVnsra j d a b k r m g)
  | .vnclip d a s r m u q g => some (opVnclip j d a s r m u q g)
  | .vshr d a b k r m g => some (opVshr j d a b k r m g)
  | .vcmp d a b k c g => some (opVcmp j d a b k c g)
  | .vmerge d a b k g => some (opVmerge j d a b k g)
  | .vmlog d a b f g => some (opVmlog j d a b f g)
  | .vredsum d a b w u m g => some (opVredsum j d a b w u m g)
  | .vredmax d a b u m g => some (opVredmax j d a b u m g)
  | .vredmin d a b u m g => some (opVredmin j d a b u m g)
  | .vscan d a b w u m g => some (opVscan j d a b w u m g)
  | .vslideup d a b k m g => some (opVslideup j d a b k m g)
  | .vslidedn d a b k m g => some (opVslidedn j d a b k m g)
  | .vgath d a b m g => some (opVgath j d a b m g)
  | .vcompress d a b g => some (opVcompress j d a b g)
  | .vld d a t m g => some (opVld j d a t m g)
  | .vlds d a t m g => some (opVlds j d a t m g)
  | .vldx d a b m t g => some (opVldx j d a b m t g)
  | .vldff d a t m g => some (opVldff j d a t m g)
  | .vst s a m g => some (opVst j s a m g)
  | .vsts s a m g => some (opVsts j s a m g)
  | .vstx s a b m g => some (opVstx j s a b m g)
  | .vexp d a e m g => some (opVexp j d a e m g)
  | .vrsqrt d a e m g => some (opVrsqrt j d a e m g)
  | .vrecip d a e m g => some (opVrecip j d a e m g)
  | .vdiv d a b m g => some (opVdiv j d a b m g)
  | .vmvxs d a b g => some (opVmvxs j d a b g)
  | .vmvsx d a b g => some (opVmvsx j d a b g)
  | .vsplat d a m g => some (opVsplat j d a m g)
  | .vmov d a r g => some (opVmov j d a r g)
  | .aalloc d n g => some (opAalloc d n g)
  | .afree b n g => some (opAfree b n g)
  | .mma a t x m g => some (opMma a t x m g)
  | .mmaz a t x m g => some (opMmaz a t x m g)
  | .mmag a t x m g => some (opMmag a t x m g)
  | .aout d b s r z g => some (opAout d b s r z g)
  | .aoutq q b r z g => some (opAoutq q b r z g)
  | .azero b n g => some (opAzero b n g)
  | .tzero d g => some (opTzero d g)
  | .tmov d s g => some (opTmov d s g)
  | .smset a f g => some (opSmset a f g)
  | .smclr g => some (opSmclr g)
  | .ecfg c f a g => some (opEcfg c f a g)
  | .ego c g => some (opEgo c g)
  | .estat d c g => some (opEstat d c g)
  | .qcfgSrc a q g => some (opQcfgSrc a q g)
  | .qcfgSnk a q g => some (opQcfgSnk a q g)
  | .qenq v q g => some (opQenq v q g)
  | .qdeq v q g => some (opQdeq v q g)
  | .qdeqTile d q a g => some (opQdeqTile d q a g)
  | .qreset q g => some (opQreset q g)
  | .qstat d q g => some (opQstat d q g)
  | .scld s a t g => some (opScld s a t g)
  | .scst s g => some (opScst s g)
  | .scset s a f g => some (opScset s a f g)
  | .srseed a g => some (opSrseed a g)
  | .evset a w g => some (opEvset a w g)
  | .evclr a w g => some (opEvclr a w g)
  | .gbar c e g => some (opGbar c e g)
  | .slk i g => some (opSlk i g)
  | .slkReg a g => some (opSlkReg a g)
  | .anstat d s g => some (opAnstat d s g)
  | _ => none

/-- The operation of a word that fails step 1 in slot j (R122). -/
def opUndef (j : Nat) : SlotOp := { slot := j, guard := 0, legal := fun _ => false }

end Sys2Proof.Machine
end

