-- ==== Sys2Proof/Machine/Turn.lean ====
section
/-! DEFINITION. One ccy of a core: what has come due, waits, traps and interrupts, fetch and decode (R90, R120, R126 to R139, R157 to
R159, R196 to R198, R353, R365), and the steps that end a wait. -/
namespace Sys2Proof.Machine

/-! ## Landing (R90, R174 to R181, R185, R228, R258) -/

/-- Every part of an entry has its data in the lehr. -/
def Landing.full (l : Landing) : Bool := l.parts.all (fun p => p.data.isSome)

/-- The data of part p. -/
def partData (l : Landing) (p : Nat) : Nat := ((l.parts[p]?).bind (·.data)).elim 0 (·.toNat)

/-- A scalar result of n bytes (R174). -/
def loadVal (n : Nat) (sg : Bool) (v : Nat) : Word :=
  if sg then BitVec.ofInt 64 (sextI v (8 * n)) else BitVec.ofNat 64 (v % 2 ^ (8 * n))

/-- Register r of a vector load whose group begins at d (R228). -/
def vecReg (l : Landing) (c : Core) (d eew : Nat) (ones : List Nat) (els : List (Nat × Nat × Nat)) (r : Nat) : VReg :=
  let here := fun (i : Nat) => d + i * eew / 4096 = r
  let a := (ones.filter (fun i => here i)).foldl (fun x i => setFld x (i * eew % 4096) eew (2 ^ eew - 1)) (tget 0 c.v r)
  (els.filter (fun e => here e.1)).foldl (fun x e =>
    setFld x (e.1 * eew % 4096) eew (nfld (partData l e.2.1) (8 * e.2.2) eew)) a

/-- The tile of `tld` (e = 0) or of `tldt` with element size e (R178, R179). -/
def landTile (l : Landing) (e : Nat) : Tile :=
  if e = 0 then BitVec.ofNat 131072 (packE 1024 ((List.range 128).map (partData l)))
  else BitVec.ofNat 131072 (packE 1024 ((List.range 128).map (fun i =>
    packE (8 * e) ((List.range (128 / e)).map (fun j => nfld (partData l (j * e + i * e / 128)) (8 * (i * e % 128)) (8 * e))))))

/-- One element of a smoothed row (R181): the code and whether it was clamped. -/
def smoothEl (u : Bool) (sh : Int) (code : Nat) : Nat × Bool :=
  match decE 8 u code with
  | none => (code, false)
  | some b =>
    let y := if sh ≥ 0 then b * (2 : Int) ^ sh.toNat else shrP b (-sh).toNat .rne
    let k := clampE 8 u y
    (encE 8 u (some k), decide (k ≠ y))

/-- The rows of a smoothed B tile and the number of clamps (R181). -/
def smoothRows (l : Landing) (v : BitVec 512) (f : BitVec 5) : List Nat × Nat :=
  let rows : List (List (Nat × Bool)) := (List.range 128).map (fun r => (List.range 128).map (fun j =>
    smoothEl (fmtU f.toNat) (sextI (fld v (4 * r) 4) 4) (nfld (partData l r) (8 * j) 8)))
  (rows.map (fun es => packE 8 (es.map Prod.fst)), (rows.map (fun es => es.countP (fun (e : Nat × Bool) => e.2))).sum)

/-- The destination of an entry takes its data (R90). DESIGN CHOICE (log entry 81): the upper half of a 16-byte result whose destination is x0 goes
to x1. -/
def landEntry (c : Core) (l : Landing) : Core :=
  let c := match l.dst with
    | .x d n sg => landPut c l.dead (.x d (loadVal n sg (partData l 0)))
    | .pair d => landPut (landPut c l.dead (.x d (BitVec.ofNat 64 (partData l 0)))) l.dead
        (.x (d + 1) (BitVec.ofNat 64 (partData l 0 / 2 ^ 64)))
    | .vec d eew ones els => (l.dst.names.map Prod.snd).foldl (fun c r => landPut c l.dead (.v r (vecReg l c d eew ones els r))) c
    | .tile d e => { c with t := tset 0 c.t d (landTile l e) }
    | .btile b none => { c with bt := tset 0 c.bt b (landTile l 0) }
    | .btile b (some (v, f)) =>
      let k := smoothRows l v f
      { c with
        bt := tset 0 c.bt b (BitVec.ofNat 131072 (packE 1024 k.1))
        smstat := setFld c.smstat 0 16 (sat16 (fld c.smstat 0 16 + k.2)) }
    | .smooth => landPut c l.dead (.sm (BitVec.ofNat 512 (partData l 0)))
    | .scale n tidx => landPut c l.dead (.sc n (BitVec.ofNat 128 (partData l 0 % 2 ^ 64 + tidx.toNat * 2 ^ 64)))
  { c with land := c.land.filter (fun e => e.id ≠ l.id) }

/-- Entries whose landing cycle has come and whose data is there land (R90). -/
def landDue (c : Core) : Core := (c.land.filter (fun l => decide (l.at_ ≤ c.ctime) && l.full)).foldl landEntry c

/-- A landing cycle has come without its data: a late-data freeze (R90). -/
def lateNow (c : Core) : Bool := c.land.any (fun l => decide (l.at_ ≤ c.ctime) && !l.full)

/-- A tile transfer on which a bundle waits is written as soon as its data has arrived (R133, R178). -/
def earlyLand (rs : List Res) (c : Core) : Core :=
  (c.land.filter (fun l => l.full && c.busy.any (fun b => rs.contains b.res && decide (b.land = some l.id) &&
    decide (b.wall ≤ c.wtime)))).foldl landEntry c

/-- Busy marks and occupancies that have ended are forgotten. -/
def dropBusy (c : Core) : Core := { c with busy := c.busy.filter (fun b => b.holds c) }
def dropOcc (c : Core) : Core := { c with occ := c.occ.filter (fun e => decide (c.oclk < e.2)) }

/-- The first ccy of an Annealer window (R245). -/
def anneal (s : State) (c : Core) : Core := if windowDue c then windowStep s c else c

/-- What has come due at the start of a ccy. -/
def settleCore (s : State) (c : Core) : Core := dropOcc (dropBusy (expire (landDue (anneal s c))))

/-- A ccy in which the core runs no task. -/
def wallTick (c : Core) : Core := { c with wtime := c.wtime + 1 }

/-! ## Waits (R157, R158, R159, R196 to R198, R201) -/

/-- The core waits in `evwait` or `bwait`. -/
def bounded (c : Core) : Bool :=
  (match c.wait with | .ev _ _ _ _ => true | _ => false) || (match c.mwait with | .bw _ _ _ _ _ _ => true | _ => false)

/-- The event word, as this ccy sees it, holds the mask of an `evwait` (R47, R157). DESIGN CHOICE (log entry 62): where a late-data freeze
falls at core time t, the word is tested after it. -/
def evTest (s : State) (k : Nat) : Bool :=
  match (core s k).wait with
  | .ev _ w m _ => (evWord s (cluOf k) w &&& m) = m
  | _ => false

/-- EVWAIT_END: the test holds within the limit (R157). -/
def evwaitEnd (s : State) (k : Nat) : State :=
  match (core s k).wait with
  | .ev _ _ _ last =>
    if evTest s k ∧ (core s k).ctime ≤ last ∧ lateNow (core s k) = false then modCore s k (fun c => endEv c true) else s
  | _ => s

/-- The limit of an `evwait` has passed, and the next bundle issues at c + 2 + lim (R157). -/
def evLimit (s : State) (k : Nat) : State :=
  match (core s k).wait with
  | .ev _ _ _ last =>
    if last ≤ (core s k).ctime ∧ evTest s k = false then
      modCore s k (fun c => { endEv c false with wait := .bubble (last + 1) })
    else s
  | _ => s

/-- The limit of a `bwait` has passed (R198). -/
def bwLimit (s : State) (k : Nat) : State :=
  match (core s k).mwait with
  | .bw _ _ _ last _ _ =>
    if last ≤ (core s k).ctime then modCore s k (fun c => { endBw c false with mwait := .bubble (last + 1) }) else s
  | _ => s

/-- BOUNDED_WAIT_LIMIT (R157, R198). -/
def boundedLimit (s : State) (k : Nat) : State := bwLimit (evLimit s k) k

/-- FENCE_COMPLETE (R196). -/
def fenceComplete (s : State) (k : Nat) : State :=
  match (core s k).mwait with
  | .reqs ids => if performed s ids then modCore s k (fun c => { c with mwait := .none }) else s
  | _ => s

/-- DRAIN_COMPLETE (R197). -/
def drainComplete (s : State) (k : Nat) : State :=
  let go := modCore s k (fun c => { c with mwait := .none })
  match (core s k).mwait with
  | .acks ids => if s.reqs.any (fun r => ids.contains r.id) then s else go
  | .drain ids => if performed s ids then go else s
  | _ => s

/-- BWAIT_POLL_REPLY: the phase has changed within the limit, or the next poll issues; a reply after the wait's end is discarded
(R198). -/
def pollReply (s : State) (id : Nat) : State :=
  match findReq s id with
  | none => s
  | some r =>
    if r.stage ≠ .done ∨ r.dst ≠ .poll ∨ ((core s r.core).prd.map (·.1)) = some id then s
    else
      let k := r.core
      let d := if r.bad then freeN s id else r.res.toNat
      let s := exhReply (delReq s id) k r.exh
      match (core s k).mwait with
      | .bw pd ph a last sc (some p) =>
        if p ≠ id then s
        else if nfld d 32 4 ≠ ph.toNat ∧ (core s k).ctime ≤ last then
          let s := modCore s k (fun c => endBw c true)
          if reqScope r ≤ sc then s else { scopeMiss { s with cur := k } sc with cur := s.cur }
        else
          let s1 := { s with cur := k }
          let s2 := modCore (sendPoll s1 s1 a) k (fun c => { c with mwait := .bw pd ph a last sc (some s.nextId) })
          bump { s2 with cur := s.cur }
      | _ => s

/-- The cores of an instance of a scope (R100, R159). -/
def inScope (k sc j : Nat) : Bool :=
  match sc with
  | 0 => j = k
  | 1 => j / 8 = k / 8
  | 2 => j / 128 = k / 128
  | _ => true

/-- ICINV_FINISH: the caches of the instance have dropped the lines of the issuing context's arena, at either level (R159, R338). -/
def icinvFinish (s : State) (k : Nat) : State :=
  match (core s k).wait with
  | .icinv sc =>
    let a := (fld (entD (core s k) 1) 0 52, fld (entD (core s k) 2) 0 41)
    let s := { s with cores := ((s.cores.map (·.1)).filter (inScope k sc)).foldl (fun t j =>
      let c : Core := tget {} t j
      tset {} t j { c with ic := c.ic.filter (fun e => !(decide (a.1 ≤ e.1) && decide (e.1 < a.1 + a.2))) }) s.cores }
    modCore s k (fun c => { c with wait := .none })
  | _ => s

/-! ## Traps and interrupts (R135 to R138, R355, R365) -/

/-- FRZTO: a single freeze of more than 4,194,304 ccy stops the task; destinations without data hold undefined values (R135). A fault that waits
for R136 keeps its place, and this one is recorded after it (R388, R394). DESIGN CHOICE (log entry 76): frozen ccy of any causes that follow one
another without an issue between them are one freeze. -/
def frzto (s : State) (k : Nat) : State :=
  let c := core s k
  if (c.run = .running ∨ c.run = .ending) ∧ 4194304 < c.frz then
    let fill := fun (l : Landing) => { l with parts := l.parts.zipIdx.map (fun e =>
      { e.1 with data := some (e.1.data.getD (BitVec.ofNat 1024 (freeN s (2 ^ 76 + 256 * l.id + e.2)))) }) }
    let c' := ((c.land.filter (fun l => !l.full)).map fill).foldl landEntry (giveUp (endBounded c))
    bump (lateTrap (setCore s k { c' with wait := .none, mwait := .none, frz := 0 }) k { info := { code := .frzto, prec := 2 }, off := repOff s c })
  else s

/-- A freeze of the M slot that is over. -/
def clearMet (c : Core) : Core :=
  match c.mwait with
  | .reqs _ => { c with mwait := .none }
  | .acks _ => { c with mwait := .none }
  | .drain _ => { c with mwait := .none }
  | _ => c

/-- A core waits out a freeze that an interrupt does not end: its state after this ccy, `none` when it waits for nothing of the
kind (R138, R159, R196, R197, R201). A `sysc` ends a `bwait` of its bundle as any trap does, and is served without frozen ccy (R158). -/
def waitedOut (s : State) (c : Core) : Option Core :=
  let late := match c.mwait with
    | .reqs ids => !performed s ids
    | .acks ids => s.reqs.any (fun r => ids.contains r.id)
    | .drain ids => !performed s ids
    | _ => false
  match c.mwait, c.wait with
  | .tix _, _ => some (frzBusy c)
  | _, .icinv _ => some (frzLate c)
  | _, w =>
    if late then some (frzLate c)
    else match w with
    | .sysc _ _ => some (tick (clearMet (endBw c false)))
    | _ => none

/-- The pending trap is taken (R137). -/
def trapNow (s : State) (k : Nat) : State :=
  match (core s k).trap with
  | some t => takeTrap s k t []
  | none => s

/-- TRAP_TAKEN: the pending trap, once R136 holds (R137). -/
def trapTaken (s : State) (k : Nat) : State :=
  if (core s k).run = .running ∧ quiet (core s k) ∧ (waitedOut s (core s k)).isNone then trapNow s k else s

/-- The waits that a trap or an interrupt ends: bounded ones with pd false, those that are over, and the bundle that waited for issue. -/
def letGo (c : Core) : Core := { giveUp (endBounded c) with wait := .none, mwait := .none }

/-- A ccy of a core with a pending trap: bounded waits end, freezes for earlier bundles are waited out, then R136. -/
def trapTurn (s : State) : State :=
  let c := cur s
  match waitedOut s c with
  | some c' => setCur s c'
  | none =>
    let s := setCur s (letGo c)
    if quiet c then trapNow s s.cur else setCur s (tick (cur s))

/-- Every channel of the core is without a live or pending program of its task (R365). -/
def chansIdle (c : Core) : Bool :=
  (List.range 4).all (fun j => (chanOf c j).live.isNone && (chanOf c j).pend.isNone)

/-- Taking becomes Saving (R365). -/
def takeSave (s : State) (k : Nat) : State :=
  let c := core s k
  let a := frameHome s c.ctx (dieOf k) c.trec.w1
  let s := wr s (a + 16) 8 ((rdRec s a).setJoin 0).w2.toNat
  modCore s k (fun c => { c with
      pre := .saving, joincnt := setFld c.joincnt 0 16 0, resume := if c.run = .stopped then c.resume else c.pc, frz := 0, satCcy := s.ccy })

/-- INTERRUPT_TAKEN: a pre-emption that is being taken finds R136 to hold, no completion owed, and idle channels (R138, R365). -/
def interruptTaken (s : State) (k : Nat) : State :=
  let c := core s k
  if c.run = .running ∧ c.pre = .taking ∧ quiet c ∧ (waitedOut s c).isNone ∧ joinSum s k = 0 ∧ chansIdle c then takeSave s k else s

/-- A pre-emption request that finds a bounded wait ends it (R365). -/
def preWait (c : Core) : Core :=
  if bounded c ∧ (c.pre = .finishing ∨ c.pre = .armed ∨ c.pre = .draining) then { endBounded c with pre := .taking } else c

/-- A ccy of a core whose pre-emption is being taken (R365). -/
def takingTurn (s : State) : State :=
  let c := cur s
  match waitedOut s c with
  | some c' => setCur s c'
  | none =>
    let s := setCur s (letGo c)
    if quiet c = false then setCur s (tick (cur s))
    else if joinSum s s.cur = 0 ∧ chansIdle c then takeSave s s.cur
    else setCur s (frzLate (cur s))

/-- EMULATION_ENTRY: the core that failed step 1 enters the handler once R136 holds (R355). -/
def emuEntry (s : State) (k : Nat) : State :=
  match (core s k).wait with
  | .emu m b => if quiet (core s k) then emuEnter s k b m else s
  | _ => s

/-- Bubbles after bounded waits that have passed. -/
def endBubbles (c : Core) : Core :=
  let past := fun (w : Wait) => match w with
    | .bubble u => decide (u ≤ c.ctime)
    | _ => false
  { c with wait := if past c.wait then .none else c.wait, mwait := if past c.mwait then .none else c.mwait }

/-- A ccy of a waiting core: the state, and whether its next bundle may issue in this ccy. -/
def waitTurn (s : State) : State × Bool :=
  let c := cur s
  match waitedOut s c with
  | some c' => (setCur s c', false)
  | none =>
    match c.wait with
    | .emu _ _ => if quiet c then (emuEntry s s.cur, false) else (modCur s tick, false)
    | _ =>
      let s := modCur (boundedLimit (evwaitEnd (modCur s clearMet) s.cur) s.cur) endBubbles
      if (cur s).wait = .none ∧ (cur s).mwait = .none then (s, true) else (modCur s tick, false)

/-! ## Fetch and decode (R120 to R122, R309, R347, R353) -/

/-- A page that some valid context's table maps writable meets n bytes at a physical address (R347). -/
def mappedWritable (s : State) (l n : Nat) : Bool :=
  s.ctxs.any (fun e =>
    let e3 := fun (i : Nat) => rd s (fld (ctxD s e.1 5) 9 43 * 512 + 8 * i) 8
    let leaf := fun (v lvl size : Nat) => match leafXl (BitVec.ofNat 64 v) lvl size with
      | .ok x => x.w && meets x.pa x.size l n
      | .error _ => false
    let table := fun (v : Nat) => v / 65536 % 2 ^ 36 * 65536
    bit (ctxD s e.1 0) 24 && (List.range 64).any (fun i3 => (e3 i3).testBit 0 && !(e3 i3).testBit 1 && (List.range 8192).any (fun i2 =>
      let e2 := rd s (table (e3 i3) + 8 * i2) 8
      e2.testBit 0 && (if e2.testBit 1 then leaf e2 2 (2 ^ 29)
        else (List.range 8192).any (fun i1 =>
          let e1 := rd s (table e2 + 8 * i1) 8
          e1.testBit 0 && e1.testBit 1 && leaf e1 1 65536)))))

/-- The bundle at a physical address belongs to a sealed object whose bytes are undefined: software has written them, or some table maps memory
of its arena writable (R347). -/
def sealedFree (s : State) (p : Nat) : Bool :=
  s.ctxs.any (fun e =>
    e.2.objs.any (fun o => objHit p 32 o && (o.broken || mappedWritable s (fld (ctxD s e.1 1) 0 52) (fld (ctxD s e.1 2) 0 41))))

/-- FETCH_ARRIVAL: the bundle at the PC comes into the instruction cache (R120, R347). -/
def fetchArrival (s : State) (k : Nat) : State :=
  let c := core s k
  let a := arena s c
  let p := a.1 + c.pc.toNat
  if c.run = .running ∧ c.pc.toNat + 32 ≤ a.2 ∧ (c.ic.find? (fun e => e.1 = p)).isNone then
    if sealedFree s p then bump (setCore s k { c with ic := (p, BitVec.ofNat 256 (freeN s (2 ^ 79 + p))) :: c.ic })
    else setCore s k { c with ic := (p, BitVec.ofNat 256 (rd s p 32)) :: c.ic }
  else s

/-- The comparator that matches the fetch (R353). -/
def bkHit (c : Core) : Option Nat :=
  if sysLevel c || c.skipBk then none
  else (List.range 16).find? (fun j => bit (entD c (12 + j)) 40 && fld (entD c (12 + j)) 0 40 = c.pc.toNat)

/-- The words of a bundle that are not NOPs, with their slots. -/
def liveWords (b : Bundle) : List (Nat × Option Instr) :=
  ((List.range 8).filter (fun j => slotWord b j ≠ 0)).map (fun j => (j, decodeWord (slotCls j) (slotWord b j)))

/-- The slot operations of a bundle (R131). -/
def bundleOps (ws : List (Nat × Option Instr)) : List SlotOp :=
  ws.map (fun e => (e.2.bind (slotOf e.1)).getD (opUndef e.1))

/-- What a core's ccy comes to: a state, or one instruction that is issued in a state. -/
inductive Turn where
  | state (s : State)
  | run (i : Instr) (s : State)

/-- The slots in which `exec` takes a lone instruction to stand: the first of each class. -/
def firstSlot (j : Nat) : Bool := j ≠ 2 && j ≠ 5

/-- A fetched bundle: one instruction alone is run by itself, else the slots issue together. -/
def bundleTurn (b : Bundle) (s : State) : Turn :=
  let ws := liveWords b
  let ops := bundleOps ws
  let s := setCur s (earlyLand ((ops.map (fun o => o.res s)).flatten) (cur s))
  match ws with
  | [] => .run .nop s
  | [(j, some i)] => if firstSlot j then .run i s else .state (issue ops s)
  | _ => .state (issue ops s)

/-- Fetch at the PC. -/
def fetchTurn (s : State) : Turn :=
  let c := cur s
  match bkHit c with
  | some j => .state (bump (faultAt s { code := .bkpt, addr := BitVec.ofNat 64 j, acc := 2 }))
  | none =>
    match sviOf s c with
    | some m => .run (decSvi (BitVec.ofNat 32 (rd s (m.base + sviPc m c) 4))) s
    | none =>
      let a := arena s c
      if a.2 < c.pc.toNat + 32 then .state (bump (faultAt s { code := .codebnd, addr := c.pc, acc := 2 }))
      else match c.ic.find? (fun e => e.1 = a.1 + c.pc.toNat) with
        | none => .state (setCur s (frzLate c))
        | some e => bundleTurn e.2 s

/-- A running core without a trap, a wait or a pre-emption that is being taken. -/
def goTurn (s : State) : Turn :=
  let c := cur s
  if c.atStep then .state (setCur s (if quiet c then wallTick c else tick c))
  else if c.ctime < c.issueAt then .state (setCur s (tick c))
  else fetchTurn s

/-- A running core. -/
def runTurn (s : State) : Turn :=
  let s := setCur s (preWait (cur s))
  let c := cur s
  if 4194304 < c.frz then .state (frzto s s.cur)
  else if lateNow c then .state (setCur s (frzLate c))
  else if c.trap.isSome then .state (trapTurn s)
  else if c.pre = .taking then .state (takingTurn s)
  else if c.pre = .saving then .state (setCur s (wallTick c))
  else
    let w := waitTurn s
    if w.2 then goTurn w.1 else .state w.1

/-- A core that waits for the end of its task (R154): freezes of its last bundle are waited out, bounded waits end, a fault still stops it. -/
def endTurn (s : State) : State :=
  let c := cur s
  if 4194304 < c.frz then frzto s s.cur
  else if lateNow c then setCur s (frzLate c)
  else match waitedOut s c with
  | some c' => setCur s c'
  | none =>
    let s := setCur s (letGo c)
    if quiet c = false then setCur s (tick (cur s))
    else if c.trap.isSome then trapNow s s.cur else taskEnd s s.cur

/-- The ccy in which the current core has its turn: a new one where it has had one in the present (R44, R47). -/
def turnCcy (s : State) : State :=
  let s := if (cur s).lastCcy = s.ccy then newCcy s else s
  modCur s (fun c => { c with lastCcy := s.ccy })

/-- One ccy of the current core. -/
def coreTurn (s : State) : Turn :=
  let s := turnCcy s
  let s := setCur s (settleCore s (cur s))
  match (cur s).run with
  | .running => runTurn s
  | .ending => .state (endTurn s)
  | .stopped =>
    let s := setCur s (wallTick (cur s))
    .state (if (cur s).pre = .taking ∧ joinSum s s.cur = 0 ∧ chansIdle (cur s) then takeSave s s.cur else s)
  | .idle => .state (setCur s (wallTick (cur s)))

/-! ## Meanings -/

def execEvwaitEnd (k : Nat) (s : State) : Host.Outcome State Fault Refusal := .next (evwaitEnd s k)
def execBoundedWaitLimit (k : Nat) (s : State) : Host.Outcome State Fault Refusal := .next (boundedLimit s k)
def execFenceComplete (k : Nat) (s : State) : Host.Outcome State Fault Refusal := .next (fenceComplete s k)
def execDrainComplete (k : Nat) (s : State) : Host.Outcome State Fault Refusal := .next (drainComplete s k)
def execBwaitPollReply (id : Nat) (s : State) : Host.Outcome State Fault Refusal := .next (pollReply s id)
def execIcinvFinish (k : Nat) (s : State) : Host.Outcome State Fault Refusal := .next (icinvFinish s k)
def execFetchArrival (k : Nat) (s : State) : Host.Outcome State Fault Refusal := .next (fetchArrival s k)
def execLandingCycle (k : Nat) (s : State) : Host.Outcome State Fault Refusal :=
  .next (modCore s k (fun c => if lateNow c then frzLate (landDue c) else landDue c))
def execLatencyBoundExpiry (k : Nat) (s : State) : Host.Outcome State Fault Refusal := .next (modCore s k expire)
def execOccupancyEnd (k : Nat) (s : State) : Host.Outcome State Fault Refusal := .next (modCore s k dropOcc)
def execBusyClear (k : Nat) (s : State) : Host.Outcome State Fault Refusal := .next (modCore s k dropBusy)
def execAnnealerWindow (k : Nat) (s : State) : Host.Outcome State Fault Refusal := .next (modCore s k (anneal s))
def execFrzto (k : Nat) (s : State) : Host.Outcome State Fault Refusal := .next (frzto s k)
def execTrapTaken (k : Nat) (s : State) : Host.Outcome State Fault Refusal := .next (trapTaken s k)
def execInterruptTaken (k : Nat) (s : State) : Host.Outcome State Fault Refusal := .next (interruptTaken s k)
def execEmulationEntry (k : Nat) (s : State) : Host.Outcome State Fault Refusal := .next (emuEntry s k)

end Sys2Proof.Machine
end

