-- ==== Sys2Proof/Machine/Sys.lean ====
section
/-! DEFINITION. The hub's answers to a core: system calls (R354), the checks on code and its placement (R160, R347 to R352), group
barriers (R262). -/
namespace Sys2Proof.Machine

/-! ## System calls (R354) -/

/-- All ones: a call that is not served. -/
def unserved : Word := BitVec.allOnes 64

/-- The system call that core k waits for, once R136 holds and no wait of its bundle's M slot is left (R158): its number and x10 to x15 and x17 as they stood at its commit. -/
def syscRun (s : State) (k : Nat) : Option (Nat × List Word) :=
  match (core s k).wait with
  | .sysc n xs => if (core s k).run = .running ∧ quiet (core s k) ∧ (core s k).mwait = .none then some (n, xs) else none
  | _ => none

/-- The hub writes x10 and the core goes on. -/
def syscEnd (s : State) (k : Nat) (v : Word) : State := modCore s k (fun c => { putAt c 1 (.x 10 v) with wait := .none })

def syscNull (s : State) (k : Nat) : State :=
  match syscRun s k with
  | some (0, _) => syscEnd s k 0
  | _ => s

def syscInfo (s : State) (k : Nat) : State :=
  match syscRun s k with
  | some (1, _) =>
    let n := (core s k).ctx
    let d := ctxD s n 0
    modCore (syscEnd s k (BitVec.ofNat 64 (fld d 0 16 + fld d 16 6 * 2 ^ 16 + fld d 25 2 * 2 ^ 22))) k
      (fun c => putAt c 1 (.x 11 (ctxD s n 9)))
  | _ => s

/-- OBJFREE: an object that the context published is freed; its bytes stay (R351). -/
def syscFree (s : State) (k : Nat) : State :=
  match syscRun s k with
  | some (2, xs) =>
    let n := (core s k).ctx
    let x := ctx s n
    let hit := fun (o : Obj) => o.published && decide (o.off = (xs.getD 0 0).toNat)
    if x.objs.any hit then syscEnd (setCtx s n { x with objs := x.objs.filter (fun o => !hit o) }) k 0
    else syscEnd s k (unserved - 1)
  | _ => s

/-- SVICALL: the request that x17[14:0] numbers. -/
def syscSvi (s : State) (k : Nat) : State :=
  match syscRun s k with
  | some (0x7FFF, xs) =>
    let m := (xs.getD 6 0).toNat % 2 ^ 15
    if m = 0x7FFF then syscEnd s k unserved else modCore s k (fun c => { c with wait := .sysc m xs })
  | _ => s

/-- A number of Table 9 of chapter 15. -/
def syscListed (n : Nat) : Bool := n ≤ 2 || n = 0x7FFF

/-- Every other number: the firmware's answer for 0x0100 to 0x7FFE, all ones where it is not served. -/
def syscOther (s : State) (k : Nat) : State :=
  match syscRun s k with
  | some (n, xs) =>
    if syscListed n then s
    else if 0x100 ≤ n then bump (syscEnd s k ((Config.firmware n (xs.take 6 ++ [BitVec.ofNat 64 s.free])).getD unserved))
    else syscEnd s k unserved
  | none => s

/-! ## Checks on code (R349, R350) -/

/-- The status register that a word names. -/
def csrNo : Instr → Option Nat
  | .csrr _ r _ => some r.toNat
  | .csrw _ r _ => some r.toNat
  | .csrs _ r _ => some r.toNat
  | .csrc _ r _ => some r.toNat
  | .csrwI _ r _ => some r.toNat
  | .csrsI _ r _ => some r.toNat
  | .csrcI _ r _ => some r.toNat
  | _ => none

/-- What a word must find inside its object: the distance in bundles of a target or of the last bundle of a loop body. -/
def reach : Instr → Option Int
  | .br o _ => some o.toInt
  | .brp _ _ o _ => some o.toInt
  | .call o _ => some o.toInt
  | .cont o _ => some o.toInt
  | .loop _ l _ => some l.toNat
  | .loope _ _ l _ => some l.toNat
  | _ => none

/-- The first check of Table 7 that the word of slot j fails in a bundle at offset o of an object of n bytes; `emu` accepts UNDEF
words, `sys` the system registers. -/
def wordBad (emu sys : Bool) (n o j : Nat) (w : Word32) : Option Nat :=
  match decodeWord (slotCls j) w with
  | none => if emu then none else some 1
  | some i =>
    match csrNo i with
    | some r => if !emu && !csrUser r && !csrSys r then some 1 else if 0x800 ≤ r ∧ sys = false then some 2 else none
    | none =>
      match reach i with
      | some d => if 0 ≤ o + 32 * d ∧ o + 32 * d < n then none else some 3
      | none => none

def bundleBad (emu sys : Bool) (n o : Nat) (b : Bundle) : Option Nat :=
  (List.range 8).findSome? (fun j => wordBad emu sys n o j (slotWord b j))

/-- The first failing bundle of an object: code and offset. -/
def objBad (emu sys : Bool) (n : Nat) : Nat → List Bundle → Option (Nat × Nat)
  | _, [] => none
  | o, b :: t => match bundleBad emu sys n o b with
    | some c => some (c, o)
    | none => objBad emu sys n (o + 32) t

/-! ## Placement (R348, R350, R351) -/

/-- The staging bytes of an address of space 0x0, as bundles; `none` where a read faults (R350). -/
def stagedByte (s : State) (cx : Nat) (a : Word) : Option Nat :=
  if spc a ≠ 0 ∨ spaceOk s cx a = false then none
  else match xlate s noTlb cx (ctxD s cx 5) (fld a 0 48) false with
  | .ok l => if (errIn s l 1).isSome then none else some (rdB s l).toNat
  | .error _ => none

def staged (s : State) (cx : Nat) (a : Word) : Nat → Option Nat
  | 0 => some 0
  | n + 1 => match stagedByte s cx a, staged s cx (a + 1) n with
    | some b, some v => some (b + 256 * v)
    | _, _ => none

/-- A number of 32 n bytes as n bundles. -/
def bundlesOf (v : Nat) : Nat → List Bundle
  | 0 => []
  | n + 1 => BitVec.ofNat 256 v :: bundlesOf (v / 2 ^ 256) n

def overlap (a n b m : Nat) : Bool := decide (a < b + m) && decide (b < a + n)

/-- Base and size of the arena of a context. -/
def arenaOf (s : State) (cx : Nat) : Nat × Nat := (fld (ctxD s cx 1) 0 52, fld (ctxD s cx 2) 0 41)

def ctxValid (s : State) (n : Nat) : Bool := bit (ctxD s n 0) 24

/-- The other contexts. -/
def otherCtxs (cx : Nat) : List Nat := (List.range 64).filter (· ≠ cx)

/-- The arena of a context is the system arena or part of it (R349). -/
def inSysArena (s : State) (cx : Nat) : Bool :=
  let a := arenaOf s cx
  decide (fld s.hub.sysBase 0 52 ≤ a.1) && decide (a.1 + a.2 ≤ fld s.hub.sysBase 0 52 + fld s.hub.sysSize 0 41) && decide (a.2 ≠ 0)

/-- The bytes of a sealed object meet n bytes at a physical address. -/
def Obj.meets (o : Obj) (p n : Nat) : Bool := overlap p n (o.base + o.off) o.size

/-- An object of n bytes may stand at offset `off`: inside the arena, clear of the context's objects, and, for `publish`, clear of other
VALID contexts' arenas. The bytes of a sealed object of any context are never written again: a loader placement meets another context's
object only where the bytes are the same (R348, R351). -/
def fits (s : State) (cx : Nat) (pub : Bool) (n v off : Nat) : Bool :=
  let a := arenaOf s cx
  decide (off + n ≤ a.2) && paOk (a.1 + off) && paOk (a.1 + off + n - 1) &&
    !(ctx s cx).objs.any (fun o => overlap off n o.off o.size || o.meets (a.1 + off) n) &&
    (otherCtxs cx).all (fun m =>
      let b := arenaOf s m
      !(pub && ctxValid s m && overlap (a.1 + off) n b.1 b.2) &&
        (ctx s m).objs.all (fun o => !o.meets (a.1 + off) n || (!pub && rd s (a.1 + off) n = v)))

/-- The offsets at which room can begin. -/
def roomAt (s : State) (cx : Nat) : List Nat :=
  let a := arenaOf s cx
  0 :: ((ctx s cx).objs.map (fun o => o.off + o.size) ++ ((List.range 64).map (fun m =>
    let b := arenaOf s m
    (b.1 + b.2 - a.1) :: ((ctx s m).objs.map (fun o => [o.base + o.off - a.1, o.base + o.off + o.size - a.1])).flatten)).flatten)

/-- The offset that the hub takes; the spec leaves open which one of those with room. -/
def chooseAt (s : State) (cx : Nat) (pub : Bool) (n v : Nat) : Option Nat :=
  let l := (roomAt s cx).filter (fits s cx pub n v)
  l[freeN s 0 % l.length]?

/-- The bytes of a number, lowest first. -/
def numBytes (n v : Nat) : List Byte := (bytesOf 0 n v).map (·.2)

/-- A checked object is placed and sealed (R351): the state and its offset, or code and offset of the refusal (R350). -/
def placeObj (s : State) (cx : Nat) (pub emu : Bool) (n : Nat) (v : Option Nat) : Except (Nat × Nat) (State × Nat) :=
  match v with
  | none => .error (4, 0)
  | some v =>
    match objBad emu (!pub && inSysArena s cx) n 0 (bundlesOf v (n / 32)) with
    | some e => .error e
    | none =>
      match chooseAt s cx pub n v with
      | none => .error (5, 0)
      | some off =>
        let b := (arenaOf s cx).1
        let s := wr s (b + off) n v
        .ok (bump (setCtx s cx { ctx s cx with
          objs := (ctx s cx).objs ++ [{ off := off, size := n, published := pub, base := b, sum := sha512 (numBytes n v) }] }), off)

/-- The reply of `publish` (R350). -/
def pubReply (code off : Nat) : Word := BitVec.ofNat 64 (2 ^ 63 + code * 2 ^ 48 + off)

/-- A hub request turns into its completion with value v. -/
def compDone (s : State) (id : Nat) (v : Word) : State :=
  { s with comps := s.comps.map (fun c => if c.id = id then { c with what := .done, v := v.setWidth 1024 } else c) }

def findComp (s : State) (id : Nat) : Option Comp := s.comps.find? (fun c => c.id = id)

/-- PUBLISH_VALIDATION (R160, R349, R350). -/
def publishStep (s : State) (id : Nat) : State :=
  match findComp s id with
  | none => s
  | some c =>
    match c.what with
    | .publish _ a n =>
      if performed s c.deps = false then s
      else match placeObj s c.ctx true false n (staged s c.ctx a n) with
        | .ok r => compDone r.1 id (BitVec.ofNat 64 r.2)
        | .error e => compDone s id (pubReply e.1 e.2)
    | _ => s

/-! ## Group barriers (R262) -/

/-- GROUP_BARRIER_ARRIVAL: the arrival counts; when every member has one, the epoch completes. Its number is undefined where software has
written the group table in flight (R49). -/
def gbarStep (s : State) (id : Nat) : State :=
  match findComp s id with
  | none => s
  | some c =>
    match c.what with
    | .gbar k cx g =>
      let x := ctx s cx
      let e := tget {} x.epochs g
      if performed s c.deps = false ∨ e.arr.any (fun a => a.2 = id) then s
      else
        let arr := e.arr ++ [(k, id)]
        let m := (groupOf s cx g).members
        let mine := fun (j : Nat) => (arr.find? (fun a => a.1 = j)).map (·.2)
        if (List.range 512).all (fun j => !bit m j || (mine j).isSome) then
          let ids := ((List.range 512).filter (fun j => bit m j)).filterMap mine
          let s := setCtx s cx { x with epochs := tset {} x.epochs g ⟨e.n + 1, arr.filter (fun a => !ids.contains a.2)⟩ }
          if x.grpBroken then bump (ids.foldl (fun s i => compDone s i (BitVec.ofNat 64 (freeN s i))) s)
          else ids.foldl (fun s i => compDone s i (e.n.setWidth 64)) s
        else setCtx s cx { x with epochs := tset {} x.epochs g { e with arr := arr } }
    | _ => s

/-! ## Meanings -/

def execNull (k : Nat) (s : State) : Host.Outcome State Fault Refusal := .next (syscNull s k)
def execCtxinfo (k : Nat) (s : State) : Host.Outcome State Fault Refusal := .next (syscInfo s k)
def execObjfree (k : Nat) (s : State) : Host.Outcome State Fault Refusal := .next (syscFree s k)
def execSvicall (k : Nat) (s : State) : Host.Outcome State Fault Refusal := .next (syscSvi s k)
def execSyscServed (k : Nat) (s : State) : Host.Outcome State Fault Refusal := .next (syscOther s k)
def execPublishValidation (id : Nat) (s : State) : Host.Outcome State Fault Refusal := .next (publishStep s id)
def execGroupBarrierArrival (id : Nat) (s : State) : Host.Outcome State Fault Refusal := .next (gbarStep s id)

end Sys2Proof.Machine
end

