-- ==== Sys2Proof/Machine/Task.lean ====
section
/-! DEFINITION. Dispatch and start of tasks (R31 to R35, R44, R46), pre-emption's write-back and resumption (R365 to R369). -/
namespace Sys2Proof.Machine

/-! ## Save blocks (R369, Table 6 of chapter 16)

What the table leaves open: a queue's head doubleword holds the entry index in [15:0] (entries are written from the head on, so it is
0), the element position in [31:16] and the number of entries in [47:32]; the EMUEN doubleword holds EMUEN in [9:0], in [20] whether
the first issue ignores the comparators (R353), the SVI fixed-point registers in [23:21] and EPC in [63:24]; a channel's doubleword 5, no field of Table 13, holds its count of performed copies. -/

/-- The doublewords of CTRL. -/
def ctrlWords (c : Core) (vx : BitVec 3) : List Word :=
  let lts := fun (i : Nat) => BitVec.ofNat 64 (packE 16 ((List.range 4).map (fun j => (tget 0 c.lt (4 * i + j)).toNat)))
  [BitVec.ofNat 64 (c.p.toNat % 256), c.vl.setWidth 64, c.vtype.setWidth 64, c.srseed.setWidth 64] ++ (List.range 4).map lts ++
  [c.slk, c.slkstat, c.mmstat, c.frzstat, c.joincnt, BitVec.ofNat 64 c.ctime, c.stepno] ++
  (List.range 4).map (tget 0 c.lpc) ++ (List.range 4).map (tget 0 c.lps) ++
  [BitVec.ofNat 64 (fld (entD c 10) 40 1 + 2 * b2n c.emuAct + 4 * c.emuMask.toNat + b2n c.skipBk * 2 ^ 20 + vx.toNat * 2 ^ 21 + c.epc.toNat % 2 ^ 40 * 2 ^ 24),
    c.smstat, c.mxstat, BitVec.ofNat 64 c.denies, c.smaddr]

/-- The head doubleword of a queue. -/
def queueHead (q : Queue) : Nat := q.pos % 65536 * 65536 + q.ents.length * 2 ^ 32

/-- What a save block holds: offset, bytes, value. -/
def saveChunks (c : Core) (vx : BitVec 3) : List (Nat × Nat × Nat) :=
  let dws : Nat → List Word → List (Nat × Nat × Nat) := fun o l => l.zipIdx.map (fun e => (o + 8 * e.2, 8, e.1.toNat))
  dws 0 ((List.range 64).map (fun d => if d = 0 then 0 else tget 0 c.x d)) ++
  dws 0x200 (ctrlWords c vx ++ List.replicate 36 0) ++
  (List.range 128).map (fun l => (0x400 + 4 * l, 4, (laneGet ⟨c.lseed, c.lanes⟩ l).toNat)) ++
  (List.range 64).map (fun n => (0x600 + 16 * n, 16, (scFields (tget 0 c.sc n)).toNat)) ++
  dws 0xA00 (((List.range 16).map (fun n => [(tget {} c.q n).src, (tget {} c.q n).snk])).flatten) ++
  dws 0xB00 (((List.range 4).map (fun n =>
    let x : Channel := tget {} c.ch n
    (List.range 26).map (fun f => if f = 5 then BitVec.ofNat 64 x.done else tget 0 x.shadow f))).flatten) ++
  [(0xE40, 64, c.smv.toNat), (0xE80, 16, c.accAl.toNat)] ++
  ((List.range 16).map (fun n =>
    let q : Queue := tget {} c.q n
    (0x1000 + 0x900 * n + 0x800, 8, queueHead q) ::
      (List.range 16).map (fun i => (0x1000 + 0x900 * n + 128 * i, 128, (q.ents.getD i 0).toNat)))).flatten ++
  (List.range 32).map (fun n => (0x10000 + 512 * n, 512, (tget 0 c.v n).toNat)) ++
  (List.range 16).map (fun n => (0x20000 + 16384 * n, 16384, (tget 0 c.t n).toNat)) ++
  ((List.range 128).filter (bit c.accAl)).map (fun b => (0x60000 + 2048 * b, 2048, (tget 0 c.acc b).toNat)) ++
  (List.range 64).map (fun n => (0xA0000 + 16384 * n, 16384, (tget 0 c.bt n).toNat))

/-- The 64 KiB pages of a block that a task with allocation map `al` uses: bits of ACC pages only where a bank is allocated. -/
def savePages (al : BitVec 128) : List Nat :=
  [0, 1, 2, 3, 4, 5] ++ [6, 7, 8, 9].filter (fun p => (List.range 32).any (fun b => bit al (32 * (p - 6) + b))) ++
    (List.range 16).map (· + 10)

/-- The address of offset o of block i of a context's save region. -/
def blkVa (s : State) (cx i o : Nat) : Nat := ((ctx s cx).saveBase.toNat + i * 2 ^ 21 + o) % 2 ^ 48
def blkLoc (s : State) (cx i o : Nat) (write : Bool) : Except WFail Nat := xlate s noTlb cx (ctxD s cx 5) (blkVa s cx i o) write

/-- The first page of a list that an access to a block cannot reach. -/
def blkFail (s : State) (cx i : Nat) (write : Bool) (pages : List Nat) : Option (Nat × WFail) :=
  pages.findSome? (fun p => match blkLoc s cx i (65536 * p) write with
    | .error f => some (blkVa s cx i (65536 * p), f)
    | .ok _ => none)

/-- A block is written. -/
def blkWrite (s : State) (cx i : Nat) (l : List (Nat × Nat × Nat)) : State :=
  l.foldl (fun t e => match blkLoc s cx i e.1 true with
    | .ok a => wr t a e.2.1 e.2.2
    | .error _ => t) s

/-- n bytes at offset o of a block. -/
def blkRead (s : State) (cx i o n : Nat) : Nat :=
  match blkLoc s cx i o false with
  | .ok a => rd s a n
  | .error _ => 0

/-! ## Clearing and refilling drained loops (R365, R368) -/

/-- Level k after a drain: one still active goes on, one that has ended is refilled or cleared. -/
def undrain (c : Core) (k : Nat) : Core :=
  let r := tget 0 c.lpc k
  if ¬ bit r 43 then c
  else if bit r 42 then { c with lpc := tset 0 c.lpc k (setFld r 43 1 0) }
  else if fld r 0 32 = 0 then { c with lpc := tset 0 c.lpc k 0, lps := tset 0 c.lps k 0 }
  else
    let c := { c with lpc := tset 0 c.lpc k (setFld (setFld (setFld r 43 1 0) 42 1 1) 35 7 0) }
    { (boundary { c with pre := .none } k).1 with pre := c.pre, pc := BitVec.ofNat 64 (lpStart c k) }

/-- Level k of a restored block: refilled from its FIRST, or cleared where nothing is left to begin (R368). -/
def redrain (c : Core) (k : Nat) : Core :=
  let r := tget 0 c.lpc k
  if bit r 43 then undrain { c with lpc := tset 0 c.lpc k (setFld r 42 1 0) } k else c

/-- Every level that a drain has touched. -/
def undrainAll (c : Core) : Core := [3, 2, 1, 0].foldl undrain c

/-- A level that a drain has ended is still to be refilled (R365). -/
def drained (c : Core) : Bool := (List.range 4).any (fun k => bit (tget 0 c.lpc k) 43 && !bit (tget 0 c.lpc k) 42)

/-- A pending request is cleared before its task has been written back (R365). -/
def clearPre (c : Core) : Core :=
  match c.run with
  | .idle => { c with pre := .none }
  | .ending => { c with pre := .none }
  | .stopped => { (let d := undrainAll { c with pc := c.resume }; { d with resume := d.pc }) with pre := .none, frz := 0 }
  | .running =>
    let c := if c.pre = .saving then { c with pc := c.resume } else c
    { undrainAll c with pre := .none, frz := 0 }

/-! ## Write-back (R367, R369) -/

/-- The phase of a command that ends with SAVEFULL. -/
def phaseFull : Nat := 100

/-- The commands that pre-empt core k end with SAVEFULL. -/
def saveFull (s : State) (k : Nat) : State :=
  { s with hub := { s.hub with cmds := s.hub.cmds.map (fun m => if cmdNames s m k then { m with phase := phaseFull } else m) } }

/-- The lowest free block of a context. -/
def freeBlock (x : Ctx) : Option Nat := (List.range x.saveCnt).find? (fun i => !x.saveUsed.contains i)

/-- One core's part of PREEMPT_SAVE: the save block and the record are written and the core is held, with the record to enter its queue; with
no free block the request is cleared. -/
def saveOne (s : State) (k : Nat) : State × List (Nat × Rec) :=
  let c := core s k
  match freeBlock (ctx s c.ctx) with
  | none => (saveFull (modCore s k clearPre) k, [])
  | some i =>
    match blkFail s c.ctx i true (savePages c.accAl) with
    | some e =>
      (if c.frz ≠ 0 then s
       else modCore (report s k { code := .saveflt, prec := 2, engine := 10, addr := BitVec.ofNat 64 e.1, acc := 1, wlvl := e.2.lvl : FaultInfo } false
         c.resume []) k (fun c => { c with frz := 1 }), [])
    | none =>
      let f := c.trec.w1
      let n := homeClu k f
      let s := blkWrite s c.ctx i (saveChunks c (tget 0 s.vx k))
      let a := frameHome s c.ctx (dieOf k) f
      let r := ((((rdRec s a).setKind 2).setPc (fld c.resume 0 40)).setJoin 0).setSaveix (i + 1)
      let r := if c.atStep then { r with w0 := setFld r.w0 43 1 1 } else r
      let s := wrRec s a r
      let x := ctx s c.ctx
      let s := setCtx s c.ctx { x with
        saveUsed := i :: x.saveUsed
        wbStop := if c.run = .stopped then (n, f) :: x.wbStop else x.wbStop
        wbLost := if c.run = .stopped ∧ c.lost = true then (n, f) :: x.wbLost else x.wbLost }
      (modCore s k (fun c => { coreFree c with pre := .held, frz := 0 }), [(n, r)])

/-- A core in the Saving state of R365. -/
def isSaving (c : Core) : Bool := decide (c.pre = .saving) && (decide (c.run = .running) || decide (c.run = .stopped))

/-- Queue q has another head, of age zero (R34). -/
def newHead (c : Cluster) (q : Nat) : Cluster := { c with age := tset 0 c.age q 0, aged := c.aged.filter (fun a => a.1 ≠ q) }

/-- A record enters the head of its hardware queue (R44, step 3). -/
def writeBack (e : Nat × Rec) (s : State) : State :=
  let m := newHead (clu s e.1) e.2.qid
  setClu s e.1 { m with rq := tset [] m.rq e.2.qid (e.2 :: rqOf m e.2.qid), pushCcy := s.ccy, pushKey := 0 }

/-- The cores `ks` reached the Saving state in one ccy: blocks are allocated in ascending order of the cores, and the records enter their queues
in descending order (R414). -/
def saveGroup (s : State) (ks : List Nat) : State :=
  let r := ks.foldl (fun (t : State × List (Nat × Rec)) j =>
    let u := saveOne t.1 j
    (u.1, t.2 ++ u.2)) (s, [])
  r.2.foldr writeBack r.1

/-- The cores of a list by the ccy in which they reached the Saving state, the earliest first. -/
def satGroups (s : State) (ks : List Nat) : List (List Nat) :=
  (((ks.map (fun k => (core s k).satCcy)).dedup).insertionSort (· ≤ ·)).map (fun t => ks.filter (fun k => (core s k).satCcy = t))

/-- PREEMPT_SAVE: the cores of core k's cluster that are in the Saving state are saved, in the order of the ccy in which they reached it (R414).
Write-backs come before the pushes of their ccy (R44). -/
def preemptSave (s : State) (k : Nat) : State :=
  if isSaving (core s k) = false then s
  else
    let ks := ((List.range 8).map (8 * cluOf k + ·)).filter (fun j => isSaving (core s j))
    let s := if (clu s (cluOf k)).pushCcy = s.ccy ∨ ks.any (fun j => (core s j).satCcy = s.ccy) then newCcy s else s
    (satGroups s ks).foldl saveGroup s

/-! ## The start of a task (R35, R36, R68, R247, R252, R340) -/

/-- A free value for the start state. -/
def startFree (s : State) (i : Nat) : Nat := freeN s (2 ^ 90 + i)

/-- An undefined queue at dispatch: registers zero, contents undefined (R35, R252). -/
def startQueue (s : State) (n : Nat) : Queue :=
  let q : Queue := {}
  let l := startFree s (4096 + 32 * n) % 17
  { q with
    ents := (List.range l).map (fun i => BitVec.ofNat 1024 (startFree s (4096 + 32 * n + 1 + i)))
    pos := if l = 0 then 0 else startFree s (4096 + 32 * n + 18) % q.inPer }

/-- A table of n undefined values. -/
def startTab {α : Type} [DecidableEq α] (d : α) (n : Nat) (f : Nat → α) : Tab α := (List.range n).foldl (fun t i => tset d t i (f i)) []

/-- Channels at dispatch: zero; a program of an earlier task goes on under a key of its own (R41, R247). -/
def startChans (c : Core) : Tab Channel :=
  let rest := c.ch.filter (fun e => decide (4 ≤ e.1) && e.2.live.isSome)
  let olds := (c.ch.filter (fun e => decide (e.1 < 4) && e.2.live.isSome)).map (·.2)
  let base := rest.foldl (fun m e => Nat.max m (e.1 + 1)) 4
  olds.zipIdx.foldl (fun t e => tset {} t (base + e.2) { e.1 with shadow := [] }) rest

/-- The core as a task starts on it (Table 5 of chapter 02). DESIGN CHOICE (log entry 27): VILL starts 0, since only `vsetvl` sets it; the fields
of VTYPE below it are free. -/
def startCore (s : State) (k cx : Nat) (r : Rec) (tag : BitVec 16) : Core :=
  let c := core s k
  let gb := ((s.hub.launches.find? (fun l => l.tag = tag)).map (·.gptr)).getD (ctx s cx).gptr
  { c with
    run := .running, pre := .none, pc := BitVec.ofNat 64 r.pc, ctx := cx, trec := r, ltag := tag, gbase := gb
    ent := (List.range 32).foldl (fun t j => tset 0 t j (ctxD s cx j)) []
    x := [(1, r.w1), (2, r.w5), (3, r.w6), (4, r.w7)].foldl (fun t e => tset 0 t e.1 e.2) []
    p := 1
    v := startTab 0 32 (fun i => BitVec.ofNat 4096 (startFree s i))
    t := startTab 0 16 (fun i => BitVec.ofNat 131072 (startFree s (64 + i)))
    bt := startTab 0 64 (fun i => BitVec.ofNat 131072 (startFree s (128 + i)))
    sc := startTab 0 64 (fun i => BitVec.ofNat 128 (startFree s (256 + i)))
    q := startTab {} 16 (startQueue s)
    vl := BitVec.ofNat 13 (startFree s 512 % 4097), vtype := BitVec.ofNat 32 (startFree s 513 % 2 ^ 14)
    acc := [], accAl := 0, lt := [], srseed := 0, lseed := 0, lanes := []
    slk := BitVec.ofNat 64 r.slack, slkstat := 0, mmstat := 0, frzstat := 0, joincnt := 0, ctime := 0, stepno := 0
    lpc := [], lps := [], emuAct := false, emuMask := 0, epc := 0, smstat := setFld c.smstat 21 1 0, mxstat := 0, denies := 0
    ch := startChans c, pend := [], land := [], issueAt := 0, wait := .none, mwait := .none, trap := none, ended := false, skipBk := false
    stepStop := false, atStep := false, prd := none, probed := 0, denied := false, frz := 0, resume := 0, lost := false }

/-- The state of a save block over the start state (R368). -/
def restoreCore (s : State) (cx i : Nat) (c : Core) : Core :=
  let n := fun (o b : Nat) => blkRead s cx i o b
  let w := fun (o : Nat) => BitVec.ofNat 64 (n o 8)
  let seed := BitVec.ofNat 32 (n 0x218 8)
  let al := BitVec.ofNat 128 (n 0xE80 16)
  let emu := w 0x2B8
  let c := { c with
    x := startTab 0 64 (fun d => if d = 0 then 0 else w (8 * d))
    p := BitVec.ofNat 8 (n 0x200 8), vl := BitVec.ofNat 13 (n 0x208 8), vtype := BitVec.ofNat 32 (n 0x210 8), srseed := seed, lseed := seed
    lanes := startTab 0 128 (fun l =>
      let g := BitVec.ofNat 32 (n (0x400 + 4 * l) 4)
      if g = laneSeed seed l then 0 else g)
    lt := startTab 0 16 (fun t => BitVec.ofNat 12 (n (0x220 + 2 * t) 2))
    slk := w 0x240, slkstat := w 0x248, mmstat := w 0x250, frzstat := w 0x258, joincnt := w 0x260, ctime := n 0x268 8
    stepno := w 0x270
    lpc := startTab 0 4 (fun j => w (0x278 + 8 * j)), lps := startTab 0 4 (fun j => w (0x298 + 8 * j))
    emuAct := bit emu 1, emuMask := BitVec.ofNat 8 (fld emu 2 8), epc := BitVec.ofNat 64 (fld emu 24 40)
    smstat := w 0x2C0, mxstat := w 0x2C8, denies := n 0x2D0 8, smaddr := w 0x2D8
    sc := startTab 0 64 (fun j => BitVec.ofNat 128 (n (0x600 + 16 * j) 16))
    smv := BitVec.ofNat 512 (n 0xE40 64), accAl := al
    q := startTab {} 16 (fun j =>
      let h := w (0x1000 + 0x900 * j + 0x800)
      ⟨w (0xA00 + 16 * j), w (0xA08 + 16 * j),
        (List.range (fld h 32 16)).map (fun e => BitVec.ofNat 1024 (n (0x1000 + 0x900 * j + 128 * e) 128)), fld h 16 16⟩)
    ch := (List.range 4).foldl (fun t j =>
      tset {} t j
        { shadow := startTab 0 26 (fun f => if f = 5 then 0 else w (0xB00 + 208 * j + 8 * f)), done := n (0xB28 + 208 * j) 8 }) c.ch
    v := startTab 0 32 (fun j => BitVec.ofNat 4096 (n (0x10000 + 512 * j) 512))
    t := startTab 0 16 (fun j => BitVec.ofNat 131072 (n (0x20000 + 16384 * j) 16384))
    acc := ((List.range 128).filter (bit al)).foldl (fun t b => tset 0 t b (BitVec.ofNat 16384 (n (0x60000 + 2048 * b) 2048))) []
    bt := startTab 0 64 (fun j => BitVec.ofNat 131072 (n (0xA0000 + 16384 * j) 16384))
    skipBk := bit emu 20 }
  [3, 2, 1, 0].foldl redrain c

/-- A record of KIND 2 whose block cannot be restored: RECBAD, or the fault of the block (R368, R369). -/
def resumeBad (s : State) (cx : Nat) (r : Rec) : Option FaultInfo :=
  if r.kind ≠ 2 then none
  else if r.saveix = 0 ∨ !(ctx s cx).saveUsed.contains (r.saveix - 1) then
    some { code := .recbad, prec := 2, engine := 10, addr := r.w1 }
  else
    let al := BitVec.ofNat 128 (blkRead s cx (r.saveix - 1) 0xE80 16)
    match blkFail s cx (r.saveix - 1) false (savePages al) with
    | some e => some { code := .saveflt, prec := 2, engine := 10, addr := BitVec.ofNat 64 e.1, wlvl := e.2.lvl }
    | none => none

/-- A record starts or resumes on core k (R31, R35, R368). -/
def startTask (s : State) (k cx : Nat) (r : Rec) : State :=
  let a := frLoc (dieOf k) r.w1
  let i := r.saveix - 1
  let tag := BitVec.ofNat 16 (rd s (a + 64) 2)
  let slot := (r.setKind 3).setJoin 0
  let c := startCore s k cx slot tag
  if r.kind = 2 then
    let emu := BitVec.ofNat 64 (blkRead s cx i 0x2B8 8)
    let c := restoreCore s cx i c
    let x := ctx s cx
    let s := setCtx (wrRec s a slot) cx { x with saveUsed := x.saveUsed.erase i }
    bump (setCore { s with vx := tset 0 s.vx k (BitVec.ofNat 3 (fld emu 21 3)) } k c)
  else bump (setCore { wrRec s a slot with vx := tset 0 s.vx k (BitVec.ofNat 3 (startFree s 600)) } k c)

/-! ## The cluster sequencer (R32 to R34, R44) -/

/-- The context that owns global cluster n. -/
def ownerOf (s : State) (n : Nat) : Option Nat := (List.range 64).find? (fun x => bit (ctxD s x 9) n)

/-- The head of queue q is ready (R32). -/
def headReady (c : Cluster) (q : Nat) : Bool :=
  match rqOf c q with
  | [] => false
  | r :: _ => decide (r.join = 0) && decide ((tget 0 c.ev r.waitw &&& r.waitmask) = r.waitmask)

/-- It may be popped (R33). -/
def popOk (c : Cluster) (q : Nat) : Bool := headReady c q && !c.frz.contains q

/-- The lowest idle core of a cluster; a core at which a child of a tile word runs counts as not idle (R303). -/
def idleCore (s : State) (n : Nat) : Option Nat :=
  ((List.range 8).map (8 * n + ·)).find? (fun k => decide ((core s k).run = .idle) && decide ((core s k).pre = .none) && !childBusy s k)

/-- The queue that a dispatch takes (R33, R34). DESIGN CHOICE (log entry 28): R34 leaves open which of the 64 dispatches takes an aged head; here
the normal order holds until the last that can, and where it comes to an aged head, the one that became aged earliest goes. -/
def pickQ (c : Cluster) : Option Nat :=
  let forced := c.aged.zipIdx.any (fun e => decide (63 ≤ e.1.2 + e.2))
  let normal := [3, 2, 1, 0].find? (popOk c)
  match (c.aged.filter (fun a => popOk c a.1)).head? with
  | some a => if forced || normal.any (fun q => c.aged.any (fun e => e.1 = q)) then some a.1 else normal
  | none => normal

/-- The dispatch pop (R33). -/
def dispatchPop (s : State) (n cx : Nat) : State :=
  let c := evView s (clu s n)
  match idleCore s n, pickQ c with
  | some k, some q =>
    if c.noDisp then s
    else match rqOf c q with
    | [] => s
    | r :: t =>
      match resumeBad s cx r with
      | some i => freezeQ (reportRec s cx i (BitVec.ofNat 16 (rd s (frLoc (n / 16) r.w1 + 64) 2)) r) n q
      | none =>
        startTask (setClu s n { c with
          rq := tset [] c.rq q t
          age := (newHead c q).age
          aged := (newHead c q).aged.map (fun a => (a.1, a.2 + 1)) }) k cx r
  | _, _ => s

/-- The mark, beside its freezing, of a queue whose ring has failed in translation. -/
def ringMark (q : Nat) : Nat := q + 4

/-- One refill of queue q (R44, R46). -/
def refill (n cx : Nat) (s : State) (q : Nat) : State :=
  let c := clu s n
  let g := ringOf c q
  if 32 ≤ (rqOf c q).length ∨ g.cap = 0 ∨ g.cnt = 0 then s
  else match ringEnt s cx n g (fld g.head 0 32) false with
  | .error f =>
    if c.frz.contains (ringMark q) then s
    else freezeQ (freezeQ (reportCtx s cx { code := .qspflt, prec := 2, engine := 10, addr := g.base, wlvl := f.lvl } 0 0 q []) n q) n (ringMark q)
  | .ok a =>
    setClu s n { c with
      rq := tset [] c.rq q (rqOf c q ++ [rdRec s a])
      ring := tset {} c.ring q { g with head := BitVec.ofNat 64 ((fld g.head 0 32 + 1) % 2 ^ 32) } }

/-- The age of the head of queue q after a ccy (R34). -/
def ageHead (c : Cluster) (q : Nat) : Cluster :=
  if headReady c q then
    let a := tget 0 c.age q + 1
    let c := { c with age := tset 0 c.age q a }
    if 4096 < a ∧ c.aged.all (fun e => e.1 ≠ q) then { c with aged := c.aged ++ [(q, 0)] } else c
  else { c with age := tset 0 c.age q 0, aged := c.aged.filter (fun e => e.1 ≠ q) }

/-- The ccy of a DISPATCH of cluster n: a new one where the present has had its dispatch, write-backs or pushes there (R44). -/
def dispatchCcy (s : State) (n : Nat) : State :=
  let s := if (clu s n).dispCcy = s.ccy ∨ (clu s n).pushCcy = s.ccy then newCcy s else s
  setClu s n { evView s (clu s n) with dispCcy := s.ccy }

/-- DISPATCH: one ccy of the sequencer of cluster n. -/
def dispatchStep (s : State) (n : Nat) : State :=
  match ownerOf s n with
  | none => s
  | some cx =>
    let s := [3, 2, 1, 0].foldl (refill n cx) (dispatchPop (dispatchCcy s n) n cx)
    setClu s n ([3, 2, 1, 0].foldl ageHead (evView s (clu s n)))

/-! ## Meanings -/

def execDispatch (c : Nat) (s : State) : Host.Outcome State Fault Refusal := .next (dispatchStep s c)
def execPreemptSave (k : Nat) (s : State) : Host.Outcome State Fault Refusal := .next (preemptSave s k)

end Sys2Proof.Machine
end

