-- ==== Sys2Proof/Machine/Hub.lean ====
section
/-! DEFINITION. Launch queues, the choice among them, launches and their retirement (R48 to R51, R359 to R363, R366, R401). -/
namespace Sys2Proof.Machine

/-! ## Control lines (R360) -/

/-- The hub has read control line i again (R410). -/
def cleanLine (s : State) (i : Nat) : State := { s with hub := { s.hub with dirty := s.hub.dirty.filter (fun e => decide (e.1 ≠ i)) } }

/-- LAUNCH_QUEUE_TAIL_WRITE: the hub rereads TAIL; a distance above the ring's size clears EN and is journalled (R360). -/
def tailWrite (s : State) (q : Nat) : State :=
  let s := cleanLine s q
  let x := lqOf s q
  if x.en = false then s
  else match hubLoc s x.sysq x.ctx x.ctl false with
  | .error _ => s
  | .ok l =>
    let x := { x with tail := BitVec.ofNat 32 (rd s l 4) }
    if 2 ^ x.log2n < x.pending then
      journal (setLq s q { x with cfg := setFld x.cfg 20 1 0 }) 4 Code.lqovf.num q 0 0 0
    else setLq s q x

/-- The record at the head of queue q (R360, R361). -/
def headRec (s : State) (q : Nat) : Option Line :=
  let x := lqOf s q
  if x.en = false ∨ x.pending = 0 then none
  else match hubLoc s x.sysq x.ctx (x.base + BitVec.ofNat 64 (128 * (x.head.toNat % 2 ^ x.log2n))) false with
  | .ok l => some (BitVec.ofNat 1024 (rd s l 128))
  | .error _ => none

/-! ## Fields of a launch record (R361, Table 2 of chapter 16) -/

def lw (r : Line) (i : Nat) : Word := r.extractLsb' (64 * i) 64
def lKind (r : Line) : Nat := fld (lw r 0) 0 8
def lPrio (r : Line) : Nat := fld (lw r 0) 8 2
def lOverlap (r : Line) : Bool := bit (lw r 0) 10
def lDie (r : Line) : Nat := fld (lw r 9) 16 2
def lCount (r : Line) : Nat := fld (lw r 9) 0 16
def lCmd (r : Line) : Nat := fld (lw r 8) 0 16

/-- Step 1 of R362: kind, privilege, fields and alignments. -/
def lrecFail (s : State) (q : Nat) (r : Line) : Option Code :=
  let x := lqOf s q
  let k := lKind r
  if 3 ≤ k then some .lrecbad
  else if k = 2 ∧ x.sysq = false then some .cmdpriv
  else if fld (lw r 0) 11 5 ≠ 0 ∨ fld (lw r 0) 22 42 ≠ 0 ∨ fld (lw r 4) 32 32 ≠ 0 ∨ fld (lw r 5) 56 8 ≠ 0 ∨ fld (lw r 6) 49 15 ≠ 0 ∨
      fld (lw r 7) 43 21 ≠ 0 ∨ fld r 768 256 ≠ 0 then some .lrecbad
  else if k = 1 ∧ (fld (lw r 9) 18 46 ≠ 0 ∨ lw r 10 ≠ 0 ∨ lw r 11 ≠ 0) then some .lrecbad
  else if k = 2 ∧ fld (lw r 8) 16 48 ≠ 0 then some .lrecbad
  else if k < 2 ∧ fld (lw r 0) 16 6 ≠ x.ctx then some .lrecbad
  else if fld (lw r 1) 0 11 ≠ 0 ∨ fld (lw r 2) 0 4 ≠ 0 ∨ fld (lw r 5) 0 7 ≠ 0 ∨ fld (lw r 6) 0 7 ≠ 0 ∨ fld (lw r 7) 0 7 ≠ 0 then
    some .lrecbad
  else if k = 1 ∧ (fld (lw r 8) 0 6 ≠ 0 ∨ lCount r = 0 ∨ inPart s (fld (ctxD s x.ctx 0) 25 2) (lDie r) = false) then some .lrecbad
  else none

/-! ## What begins (R51, R362, R366, R401) -/

/-- A live record of the launch stands in a ready queue or a spill ring (R51). -/
def stillQueued (s : State) (l : Launch) : Bool := l.recs.any (fun e => queuedIn s l.ctx e.1 e.2)

/-- R51 lets the head of queue q begin. -/
def orderOk (s : State) (q : Nat) (overlap : Bool) : Bool :=
  let prev := (lqOf s q).head.toNat + 2 ^ 32 - 1
  let before := fun (i : Nat) => decide (i % 2 ^ 32 = prev % 2 ^ 32)
  s.hub.launches.all (fun l => !(decide (l.q = q) && before l.idx) || (overlap && !stillQueued s l)) &&
    s.hub.cmds.all (fun m => !(decide (m.q = q) && before m.idx) || overlap)

/-- Launches of a context in flight (R341). -/
def flying (s : State) (cx : Nat) : Bool := s.hub.launches.any (fun l => decide (l.ctx = cx))

/-- What a launch waits for once its record is good: R362 step 2, R49, R401, the limit of R362. -/
def launchWaits (s : State) (cx : Nat) (gptr : Word) : Bool :=
  let circ := fun (n : Nat) => (planOf s n).circ
  !(ctxValid s cx) || (ctx s cx).stopped || decide (ctxD s cx 28 ≠ 0) || (flying s cx && decide ((ctx s cx).gptr ≠ gptr)) ||
    (circ cx && s.hub.launches.any (fun l => decide (l.ctx ≠ cx) && circ l.ctx)) || decide (4096 ≤ s.hub.launches.length)

/-- The head of queue q is eligible (R366). -/
def eligible (s : State) (q : Nat) : Bool :=
  match headRec s q with
  | none => false
  | some r =>
    orderOk s q (lOverlap r) &&
      ((lrecFail s q r).isSome || decide (lKind r = 2) || !launchWaits s (lqOf s q).ctx (lw r 1))

/-- Eligible queues of the highest PRIO (R366). -/
def contenders (s : State) : Nat × List Nat :=
  let e := (s.hub.lq.map (·.1)).filter (eligible s)
  let prio := fun (q : Nat) => (headRec s q).elim 0 lPrio
  let top := (e.map prio).foldl Nat.max 0
  (top, e.filter (fun q => decide (prio q = top)))

/-- One choice of the package sequencer: the queue, with credits and pointer as they then stand (R366). -/
def serve (s : State) : Option (Nat × State) :=
  if s.hub.bootState ≠ 4 then none else
  let c := contenders s
  let key := fun (q : Nat) => c.1 * 16384 + q
  let cred := if c.2.all (fun q => decide (tget 0 s.hub.credit (key q) = 0))
    then c.2.foldl (fun t q => tset 0 t (key q) (lqOf s q).weight) s.hub.credit
    else s.hub.credit
  let ptr := tget 0 s.hub.ptr c.1
  let dist := fun (q : Nat) => (q + 16384 - ptr) % 16384
  let ready := c.2.filter (fun q => decide (tget 0 cred (key q) ≠ 0))
  match ready.foldl (fun (b : Option Nat) q => match b with
    | none => some q
    | some p => if dist q < dist p then some q else some p) none with
  | none => none
  | some q =>
    some (q, { s with hub := { s.hub with
      credit := tset 0 cred (key q) (tget 0 cred (key q) - 1)
      ptr := tset 0 s.hub.ptr c.1 ((q + 1) % 16384) } })

/-- The hub takes the head of queue q: HEAD, its mirror and the journal (R360, R411). -/
def takeHead (s : State) (q : Nat) (r : Line) : State :=
  let x := lqOf s q
  let s := setLq s q { x with head := x.head + 1 }
  let s := match hubLoc s x.sysq x.ctx (x.ctl + 8) true with
    | .ok l => wr s l 4 (x.head + 1).toNat
    | .error _ => s
  journal s 1 0 q (if lKind r = 2 then 0 else fld (lw r 0) 16 6) 0 (lw r 3)

/-- The head of queue q if the package sequencer serves it now and it meets a test: its record and the state once it is taken. -/
def served? (s : State) (q : Nat) (test : Line → Bool) : Option (Line × State) :=
  match serve s with
  | some (p, s') =>
    match headRec s q with
    | some r => if p = q ∧ test r then some (r, takeHead s' q r) else none
    | none => none
  | none => none

/-! ## Completions (R363, Table 3) -/

/-- The status word. -/
def cmpStatus (result code : Nat) (degr : Bool) (tag : BitVec 16) : Word :=
  BitVec.ofNat 64 (result + code * 2 ^ 8 + b2n degr * 2 ^ 24 + tag.toNat * 2 ^ 32)

/-- The end of a launch or command: the journal, then the completion as one write (R363, R412). -/
def finish (s : State) (q cx : Nat) (sysq : Bool) (ca cv : Word) (jk result code : Nat) (degr : Bool) (tag : BitVec 16) (jcx : Nat) :
    State :=
  let st := cmpStatus result code degr tag
  let s := journal s jk code q jcx tag st
  if ca = 0 ∨ fld ca 0 4 ≠ 0 then s
  else match hubLoc s sysq cx ca true with
  | .ok l => wr s l 16 (cv.toNat + st.toNat * 2 ^ 64)
  | .error f =>
    if sysq then s
    else reportCtx s cx { code := f.code, prec := 1, engine := 10, addr := ca, acc := 1, wlvl := f.lvl } tag 0 0 []

/-- A refusal of a launch record (R362). -/
def refuse (s : State) (q : Nat) (r : Line) (c : Code) : State :=
  let x := lqOf s q
  finish s q x.ctx x.sysq (lw r 2) (lw r 3) (if lKind r = 2 then 3 else 2) 2 c.num false 0 (if lKind r = 2 then 0 else x.ctx)

/-! ## The checks of a launch (R49, R362) -/

/-- The staging ranges lie inside the allotments (R362 step 3). -/
def stagingOk (s : State) (cx : Nat) (r : Line) : Bool :=
  let d := ctxD s cx
  let ok := fun (o n b z u : Nat) => decide (n = 0) || inUnits o n b z u
  ok (fld (lw r 5) 0 28) (fld (lw r 5) 28 28) (fld (d 8) 0 8) (fld (d 8) 8 8) 1048576 &&
    ok (fld (lw r 6) 0 24) (fld (lw r 6) 24 25) (fld (d 7) 0 8) (fld (d 7) 8 9) 65536 &&
    ok (fld (lw r 7) 0 21) (fld (lw r 7) 21 22) (fld (d 6) 0 5) (fld (d 6) 6 6) 65536

/-- n bytes at a space 0x0 address of a context, all in one page. -/
def ctxRead (s : State) (cx : Nat) (a : Word) (n : Nat) : Except WFail Nat :=
  (hubLoc s false cx a false).map (fun l => rd s l n)

/-- The group table: entries with COUNT not zero (R48). -/
def readGroups (s : State) (cx : Nat) (gptr : Word) : Except WFail (List (Nat × Bank)) :=
  if gptr = 0 then .ok []
  else (List.range 256).foldr (fun g acc => match acc, ctxRead s cx (gptr + BitVec.ofNat 64 (2048 * g)) 2048 with
    | .ok l, .ok v =>
      let e : Bank := BitVec.ofNat 16384 v
      .ok (if fld e 512 10 = 0 then l else (g, e) :: l)
    | _, .error f => .error f
    | .error f, _ => .error f) (.ok [])

/-- The members of an entry, and its ring order (R48). -/
def grpMembers (e : Bank) : BitVec 512 := e.extractLsb' 0 512
def grpCount (e : Bank) : Nat := fld e 512 10
def grpOrder (e : Bank) : List Nat := (List.range (grpCount e)).map (fun k => fld e (1024 + 16 * k) 9)
def memberList (m : BitVec 512) : List Nat := (List.range 512).filter (bit m)

/-- The first three rows of Table 10 for one entry (R49). -/
def grpBad (e : Bank) : Bool :=
  let ms := memberList (grpMembers e)
  decide (ms.length ≠ grpCount e) || !decide ((grpOrder e).Nodup) || !(grpOrder e).all (fun k => ms.contains k) ||
    decide (fld e 522 502 ≠ 0) || decide (fld e 9216 7168 ≠ 0) ||
    (List.range 512).any (fun k => decide (fld e (1024 + 16 * k) 16 ≠ 0) && (decide (grpCount e ≤ k) || decide (fld e (1033 + 16 * k) 7 ≠ 0)))

/-- Table 10 (R49). -/
def groupsFail (s : State) (cx : Nat) (l : List (Nat × Bank)) : Option Code :=
  if l.any (fun e => grpBad e.2) then some .groupbad
  else if (List.range 512).any (fun k => decide (4 < l.countP (fun e => bit (grpMembers e.2) k))) then some .groupov
  else if l.any (fun e => (memberList (grpMembers e.2)).any (fun k => !bit (ctxD s cx 9) (cluOf k))) then some .groupbad
  else none

/-- The records of a list, or the first failure (R362 step 5). -/
def listRecs (s : State) (cx d : Nat) (user : Bool) (a : Word) : Nat → Except Code (List Rec)
  | 0 => .ok []
  | n + 1 =>
    match ctxRead s cx a 64 with
    | .error f => .error f.code
    | .ok v =>
      let r := recOf v
      match (if r.kind = 2 then some Code.recbad else recCheck (ctxD s cx) d user r) with
      | some c => .error c
      | none => (listRecs s cx d user (a + 64) n).map (r :: ·)

/-- Steps 3 to 5 of R362 but for the kind's own: the groups. -/
def launchChecks (s : State) (cx : Nat) (r : Line) : Except Code (List (Nat × Bank)) :=
  if stagingOk s cx r = false then .error .bound
  else match readGroups s cx (lw r 1) with
  | .error f => .error f.code
  | .ok l => match groupsFail s cx l with
    | some c => .error c
    | none => .ok l

/-! ## The beginning of a launch (R48 to R50, R262, R362, R401) -/

/-- A tag that no launch in flight holds (R362); which one is left open. -/
def newTag (s : State) : BitVec 16 :=
  let t := ((List.range 4097).map (fun i => 1 + (Config.tagChoice s.free + i) % 65535)).find?
    (fun t => !s.hub.launches.any (fun l => decide (l.tag.toNat = t)))
  BitVec.ofNat 16 (t.getD 1)

/-- A launch is in flight: groups, group pointer, cleared epochs and slot tables (R49, R262, R401). -/
def launchIn (s : State) (l : Launch) (gs : List (Nat × Bank)) : State :=
  let x := ctx s l.ctx
  let x := if flying s l.ctx then x else { x with epochs := [] }
  let x := { x with
    gptr := l.gptr
    grpBroken := flying s l.ctx && x.grpBroken
    groups := gs.foldl (fun t e => tset {} t e.1 ⟨grpMembers e.2, grpCount e.2, grpOrder e.2⟩) [] }
  let h := s.hub
  let h := if (planOf s l.ctx).circ then { h with slots := (planOf s l.ctx).slots, slotCtx := some l.ctx } else h
  setCtx { s with hub := { h with launches := h.launches ++ [l] } } l.ctx x

/-- The launch that the record of queue q describes. -/
def launchFrom (s : State) (q : Nat) (r : Line) : Launch :=
  let x := lqOf s q
  { tag := newTag s, q := q, idx := x.head.toNat, sysq := x.sysq, ctx := x.ctx, kind := lKind r, cmpaddr := lw r 2, cmpval := lw r 3
    gptr := lw r 1, l5 := lw r 5, l6 := lw r 6, l7 := lw r 7 }

/-- A record of a list is pushed with the launch's tag (R37, R44). -/
def launchPush (cx d : Nat) (tag : BitVec 16) (s : State) (r : Rec) : State :=
  let s := liveRec s cx d tag r
  if r.join = 0 then pushHw s cx (16 * d + frClu r.w1) 1024 tag r else s

/-- A CMD of Table 4 of chapter 16. -/
def cmdListed (c : Nat) : Bool := decide (1 ≤ c) && decide (c ≤ 0x13)

/-- TASK_LIST_LAUNCH; it also refuses a KIND of 3 to 255 and a command that Table 4 does not list (R362, R364). -/
def taskList (s : State) (q : Nat) : State :=
  match served? s q (fun r => decide (lKind r = 1) || decide (3 ≤ lKind r) || (decide (lKind r = 2) && !cmdListed (lCmd r))) with
  | none => s
  | some (r, t) =>
    match lrecFail s q r with
    | some c => bump (refuse t q r c)
    | none =>
      if lKind r = 2 then bump (refuse t q r .cmdbad)
      else
        let x := lqOf s q
        match launchChecks s x.ctx r with
        | .error c => bump (refuse t q r c)
        | .ok gs => match listRecs s x.ctx (lDie r) (!x.sysq) (lw r 8) (lCount r) with
          | .error c => bump (refuse t q r c)
          | .ok rs =>
            let l := launchFrom s q r
            bump (rs.foldl (launchPush x.ctx (lDie r) l.tag) (launchIn t l gs))

/-- The word of a KIND 0 record. -/
def launchWord (s : State) (q : Nat) (r : Line) (tag : BitVec 16) : TileW :=
  { id := s.nextId, word := r.extractLsb' 512 256, src := .launch, core := q, ctx := (lqOf s q).ctx, ltag := tag
    seed := (lw r 4).setWidth 32, stage := .posted }

/-- TILE_WORD_LAUNCH: the word is accepted as the launch begins; a LEVEL other than 4 refuses the launch, any other decode fault is reported at
the word's completion (R275, R304, R362 step 6). -/
def tileLaunch (s : State) (q : Nat) : State :=
  match served? s q (fun r => decide (lKind r = 0)) with
  | none => s
  | some (r, t) =>
    match lrecFail s q r with
    | some c => bump (refuse t q r c)
    | none =>
      match launchChecks s (lqOf s q).ctx r with
      | .error c => bump (refuse t q r c)
      | .ok gs =>
        let l := launchFrom s q r
        let u := launchIn t { l with word := some t.nextId } gs
        let w := launchWord t q r l.tag
        match tileDecode u w with
        | .error i =>
          if twLevel w.word ≠ 4 then bump (refuse t q r i.code)
          else bump { u with nextId := u.nextId + 1, tiles := u.tiles ++ [{ w with stage := .failed i [] }] }
        | .ok w' =>
          let v := { u with nextId := u.nextId + 1, tiles := u.tiles ++ [{ w' with stage := .accepted, deps := tileDeps u w }] }
          bump (wordTouch v w.id (decRanges u w'))

/-! ## Retirement (R50, R363) -/

/-- A copy program of a launch that has copies left. -/
def copying (c : Core) (tag : BitVec 16) : Bool :=
  c.ch.any (fun e => (e.2.live.any (fun p => decide (p.ltag = tag))) || e.2.pend.any (fun p => decide (p.ltag = tag)))

/-- A live record of a launch whose task a fault has stopped, on its core or written back (R363, R389). -/
def stoppedLive (s : State) (l : Launch) (e : Nat × Word) : Bool :=
  s.cores.any (fun k => decide (k.2.run = .stopped) && decide (k.2.ltag = l.tag) && decide (k.2.trec.w1 = e.2) &&
    decide (homeClu k.1 e.2 = e.1)) || (ctx s l.ctx).wbStop.contains e

/-- No record of the launch is left, but for stopped ones of a failed launch (R363), and every memory effect of its tasks is visible at
package scope (R50). -/
def retired (s : State) (l : Launch) : Bool :=
  l.recs.all (fun e => l.failed.isSome && stoppedLive s l e) && l.word.isNone && !s.reqs.any (fun r => decide (r.ltag = l.tag) && decide (r.stage = .out)) &&
    !s.comps.any (fun c => decide (c.ltag = l.tag)) && !s.tiles.any (fun t => decide (t.ltag = l.tag)) &&
    !s.cores.any (fun e => copying e.2 l.tag)

/-- LAUNCH_RETIRE: the journal entry and the completion. -/
def retire (s : State) (tag : Nat) : State :=
  match s.hub.launches.find? (fun l => decide (l.tag.toNat = tag)) with
  | none => s
  | some l =>
    if retired s l = false then s
    else
      let s := { s with hub := { s.hub with
        launches := s.hub.launches.filter (fun k => decide (k.tag ≠ l.tag))
        orphans := s.hub.orphans ++ l.recs.map (fun e => (l.ctx, e)) } }
      let code := l.failed.elim 0 Code.num
      let result := if l.stopped then 3 else if l.failed.isSome then 1 else 0
      finish s l.q l.ctx l.sysq l.cmpaddr l.cmpval 2 result code l.degr l.tag l.ctx

/-! ## Meanings -/

def execLaunchQueueTailWrite (q : Nat) (s : State) : Host.Outcome State Fault Refusal := .next (tailWrite s q)
def execTaskListLaunch (q : Nat) (s : State) : Host.Outcome State Fault Refusal := .next (taskList s q)
def execTileWordLaunch (q : Nat) (s : State) : Host.Outcome State Fault Refusal := .next (tileLaunch s q)
def execLaunchRetire (tag : Nat) (s : State) : Host.Outcome State Fault Refusal := .next (retire s tag)

end Sys2Proof.Machine
end

