-- ==== Sys2Proof/Machine/Boot.lean ====
section
/-! DEFINITION. Boot, the hub's register aperture, host accesses, the journal's mirror and scrubbing (R408 to R412, R417 to R420, R428,
R429). -/
namespace Sys2Proof.Machine

/-! ## Boot (R417 to R419) -/

/-- PACKAGE_RESET: everything as after reset but for the memories outside the package with their uncorrectable words, the SVN fuses, what the
host has read, and the schedule. -/
def packageReset (s : State) : State :=
  { State.reset with
    mem := s.mem.filter (fun e => decide (e.1 < 2 ^ 52))
    uecc := s.uecc.filter (fun w => decide (w < 2 ^ 52))
    hub := { minSvn := s.hub.minSvn, hostData := s.hub.hostData }
    agenda := s.agenda
    free := s.free
    nextId := s.nextId }

/-- A change of the link is journalled (R408, R411): port 31. -/
def linkJournal (s : State) (port : Nat) (up : Bool) : State := journal s 7 0 0 0 0 (BitVec.ofNat 64 (port % 32 + 32 * b2n up))

/-- LINK_TRAINED: TRAIN ends, and every SRAM is written with zero before WAIT. -/
def linkTrained (s : State) : State :=
  if s.hub.bootState = 0 then
    linkJournal { s with
      mem := s.mem.filter (fun e => decide (e.1 < 2 ^ 52))
      uecc := s.uecc.filter (fun w => decide (w < 2 ^ 52))
      hub := { s.hub with bootState := 1, linkstat := setFld s.hub.linkstat 0 1 1 } } 31 true
  else s

/-- BOOTCTL_GO: WAIT ends. -/
def bootGo (s : State) : State := if s.hub.bootState = 1 then { s with hub := { s.hub with bootState := 2 } } else s

/-- The location of the image: host memory (Table 2 of chapter 20, R376). -/
def imageLoc (s : State) : Nat := 2 ^ 51 + fld s.hub.bootaddr 0 50

/-- n bytes from a location. -/
def locBytes (s : State) (a n : Nat) : List Byte := (List.range n).map (fun i => rdB s (a + i))

/-- IMAGE_LOADED: header and body are in the hub, or the read has failed. -/
def imageLoaded (s : State) (ok : Bool) : State :=
  if s.hub.bootState ≠ 2 then s
  else if ok then
    let n := Nat.min (rd s (imageLoc s + 8) 4) (2 ^ 23)
    { s with hub := { s.hub with bootState := 3, image := locBytes s (imageLoc s) (1152 + n) } }
  else { s with hub := { s.hub with bootState := 7, bootErr := 6 } }

/-- Bytes o to o + n - 1 of an image as a number. -/
def imgNum (l : List Byte) (o n : Nat) : Nat := packE 8 (((l.drop o).take n).map (·.toNat))

/-- The first failing check of Table 4 of chapter 20, or none (R419). -/
def imageErr (s : State) : Option Nat :=
  let l := s.hub.image
  let size := imgNum l 8 4
  let entry := imgNum l 12 4
  let modulus := (l.drop 64).take 512
  if imgNum l 0 4 ≠ 0x57464F45 ∨ imgNum l 4 2 ≠ 1 ∨ imgNum l 16 48 ≠ 0 ∨ imgNum l 1088 64 ≠ 0 then some 1
  else if size = 0 ∨ size % 64 ≠ 0 ∨ 2 ^ 23 < size ∨ entry % 4 ≠ 0 ∨ size ≤ entry then some 2
  else if !(List.finRange 4).any (fun k => !(Config.keySlot k).2 && decide ((Config.keySlot k).1 = sha512 modulus)) then some 3
  else if imgNum l 6 2 < s.hub.minSvn.toNat then some 4
  else if pssVerifies modulus ((l.take 576) ++ (l.drop 1152)) ((l.drop 576).take 512) = false then some 5
  else none

/-- IMAGE_VERIFIED: RUN with the firmware begun at ENTRY and system queue 0 enabled, or FAIL (R418, R419). The firmware sets the system arena;
the spec does not say where. It may raise the minimum SVN; the spec does not say when or how far (log entry 3). -/
def imageVerified (s : State) : State :=
  if s.hub.bootState ≠ 3 then s
  else match imageErr s with
  | some e => { s with hub := { s.hub with bootState := 7, bootErr := e } }
  | none =>
    let h := s.hub
    let q0 : LaunchQ :=
      { base := h.sq0base, ctl := h.sq0ctl, cfg := BitVec.ofNat 32 (h.sq0log.toNat + 1 * 2 ^ 5 + 2 ^ 19 + 2 ^ 20) }
    bump { s with hub := { h with
      bootState := 4
      minSvn := if freeN s 2 % 2 = 0 ∨ freeN s 3 % 65536 ≤ h.minSvn.toNat then h.minSvn else BitVec.ofNat 16 (freeN s 3)
      fwEntry := some (imgNum h.image 12 4)
      svn := BitVec.ofNat 16 (imgNum h.image 6 2)
      fwDigest := sha512 h.image
      sysBase := BitVec.ofNat 64 (freeN s 0 % 2 ^ 36 * 65536)
      sysSize := BitVec.ofNat 64 (freeN s 1 % 2 ^ 24 * 65536)
      lq := tset {} h.lq 0 q0 } }

/-! ## Registers and host accesses (R9, R408 to R410, R418, R429) -/

/-- REGISTER_WRITE: boot registers in TRAIN and WAIT, counters at any time, ERRSTAT by ones. -/
def registerWrite (s : State) (off : Nat) (v : Word) : State :=
  let h := s.hub
  let boot := decide (h.bootState ≤ 1)
  if off = 0x08 then (if boot then { s with hub := { h with jmbase := v } } else s)
  else if off = 0x10 then { s with hub := { h with linkstat := setFld h.linkstat 8 24 (fld v 8 24) } }
  else if off = 0x20 then
    if boot then
      let s := { s with hub := { h with sq0log := BitVec.ofNat 5 (fld v 16 5) } }
      if bit v 0 then bootGo s else s
    else s
  else if off = 0x28 then (if boot then { s with hub := { h with bootaddr := v &&& 0xFFFFFFFFFFFFF } } else s)
  else if off = 0x30 then (if boot then { s with hub := { h with sq0base := v &&& 0xFFFFFFFFFFFFF } } else s)
  else if off = 0x38 then (if boot then { s with hub := { h with sq0ctl := v &&& 0xFFFFFFFFFFFFF } } else s)
  else if off = 0x50 then { s with hub := { h with errstat := h.errstat &&& ~~~v } }
  else if 0x100 ≤ off ∧ off < 0x1C0 ∧ off % 8 = 0 then
    let p := (off - 0x100) / 8
    setFport s p (setFld (fport s p) 8 48 (fld v 8 48))
  else s

/-- A host access of n bytes lies in a memory: the memory aperture, or host memory (R408). -/
def hostOk (pa n : Nat) : Bool := decide (n ≠ 0) && decide (n ≤ 128) && paOk pa && paOk (pa + n - 1) && decide (pa + n ≤ 2 ^ 52)

/-- HOST_MEMORY_WRITE: a host store of n bytes performs at its home, device memory or host memory, and ends the watches on its bytes (R410). -/
def hostWrite (s : State) (pa n : Nat) (v : Line) : State :=
  if hostOk pa n then madeDone (errClear (wr s pa n v.toNat) pa n) pa n else s

/-- The doubleword of the register aperture at offset 8 w (Table 5 of chapter 18, Table 2 of chapter 20); GO reads zero (R9). An offset that no
table lists reads as a free value. -/
def apertureWord (s : State) (w : Nat) : Word :=
  let h := s.hub
  if 0x20 ≤ w ∧ w < 0x20 + 24 then fport s (w - 0x20)
  else if 0x1000 ≤ w ∧ w < 0x5000 then
    match h.journal.find? (fun e => decide (e.seq.toNat % 4096 = (w - 0x1000) / 4)) with
    | some e => [e.seq, e.j1, e.time, e.arg].getD (w % 4) 0
    | none => 0
  else match w with
    | 0 => BitVec.ofNat 64 h.jseq
    | 1 => h.jmbase
    | 2 => h.linkstat
    | 3 => h.revid
    | 4 => BitVec.ofNat 64 (h.bootState * 2 + h.bootErr * 2 ^ 8 + h.sq0log.toNat * 2 ^ 16)
    | 5 => h.bootaddr
    | 6 => h.sq0base
    | 7 => h.sq0ctl
    | 8 => devId.extractLsb' 0 64
    | 9 => devId.extractLsb' 64 64
    | 10 => h.errstat
    | _ => BitVec.ofNat 64 (freeN s w)

/-- n bytes of the aperture from an offset, as a number. -/
def apertureRead (s : State) (off : Nat) : Nat → Nat
  | 0 => 0
  | n + 1 => fld (apertureWord s (off / 8)) (8 * (off % 8)) 8 + 256 * apertureRead s (off + 1) n

/-- HOST_MEMORY_READ: a host read of n bytes returns through the memory aperture or, from 2^52 up, the register aperture (R408, R409). Data with
an uncorrectable error is undefined (R428). -/
def hostRead (s : State) (pa n : Nat) : State :=
  if 2 ^ 52 ≤ pa ∧ n ≤ 128 then bump { s with hub := { s.hub with hostData := BitVec.ofNat 1024 (apertureRead s (pa - 2 ^ 52) n) } }
  else if hostOk pa n then
    match errIn s pa n with
    | some _ => let t := countErr s .uecc; bump { t with hub := { t.hub with hostData := BitVec.ofNat 1024 (freeN s 0) } }
    | none => { s with hub := { s.hub with hostData := BitVec.ofNat 1024 (rd s pa n) } }
  else s

/-! ## The mirror (R412) -/

/-- JOURNAL_MIRROR_WRITE: the next entry that the hub still holds goes to host memory, in ascending SEQ. -/
def mirror (s : State) : State :=
  let h := s.hub
  let n := Nat.max (h.mirrored + 1) (h.jseq - 4095)
  match h.journal.find? (fun e => decide (e.seq.toNat = n)) with
  | none => s
  | some e =>
    let a := 2 ^ 51 + (fld h.jmbase 0 50 + 32 * (n % 4096)) % 2 ^ 50
    if h.bootState ≠ 4 then s
    else
      let s := { s with hub := { h with mirrored := n } }
      wrWords s a [e.seq, e.j1, e.time, e.arg]

/-! ## Integrity (R428, R429) -/

/-- The word at location a has an uncorrectable error from now on: its bytes are undefined until a store has written all of it. -/
def strike (s : State) (a : Nat) : State := { wr s a 8 (freeN s 0) with uecc := if s.uecc.contains a then s.uecc else a :: s.uecc }

/-- A task that runs on core k stops for an uncorrectable error in state of the core without an address: ENGINE names the part, and the physical
address is zero (R388, R428). -/
def partError (s : State) (k engine : Nat) : State :=
  if (core s k).run = .running ∨ (core s k).run = .ending then
    lateTrap s k { info := { code := .uecc, prec := 1, engine := engine }, off := repOff s (core s k) }
  else s

/-- The part of a core that a kind names, with its data undefined from now on: 0 tile register, 1 B tile, 2 accumulator bank, 3 landing entry in
the lehr, 4 queue, 6 vector register, 7 scalar register, 8 scale register, each by its number; other kinds: control state, whose values stand in
no register. Second: its ENGINE (R390). -/
def spoilPart (s : State) (c : Core) (kind i : Nat) : Core × Nat :=
  let v := fun (j : Nat) => freeN s (2 ^ 82 + j)
  match kind with
  | 0 => ({ c with t := tset 0 c.t (i % 16) (BitVec.ofNat 131072 (v 0)) }, 4)
  | 1 => ({ c with bt := tset 0 c.bt (i % 64) (BitVec.ofNat 131072 (v 0)) }, 4)
  | 2 => ({ c with acc := tset 0 c.acc (i % 128) (BitVec.ofNat 16384 (v 0)) }, 4)
  | 3 => ({ c with land := c.land.map (fun l => if l.id = i then
      { l with parts := l.parts.zipIdx.map (fun p => { p.1 with data := p.1.data.map (fun _ => BitVec.ofNat 1024 (v p.2)) }) } else l) }, 2)
  | 4 =>
    let q := tget {} c.q (i % 16)
    ({ c with q := tset {} c.q (i % 16) { q with ents := q.ents.zipIdx.map (fun e => BitVec.ofNat 1024 (v e.2)) } }, 7)
  | 6 => ({ c with v := tset 0 c.v (i % 32) (BitVec.ofNat 4096 (v 0)) }, 3)
  | 7 => ({ c with x := if i % 64 = 0 then c.x else tset 0 c.x (i % 64) (BitVec.ofNat 64 (v 0)) }, 1)
  | 8 => ({ c with sc := tset 0 c.sc (i % 64) (BitVec.ofNat 128 (v 0)) }, 5)
  | _ => (c, 0)

/-- A residue of the matrix array does not match: the pass is repeated, and the busy marks of its instruction stand n ccy longer (Table 6 of
chapter 20, R239). -/
def repeatPass (c : Core) (n : Nat) : Core :=
  let ends := (c.busy.filter (·.mm)).map (·.wall)
  { c with busy := c.busy.map (fun b => if b.land.isNone ∧ (ends.contains b.wall ∨ ends.contains (b.wall + 4)) then { b with wall := b.wall + n } else b) }

/-- An error in state without an address: that of core l % 512, of kind l / 512 % 16, with number l / 8192. Kind 5 is a first mismatch of a pass
whose P the number gives; a second one is an error of kind 2 in a bank that the pass writes (R428). -/
def partCheck (s : State) (l : Nat) : State :=
  let k := l % 512
  let kind := l / 512 % 16
  if kind = 5 then { modCore s k (fun c => repeatPass c (l / 8192)) with hub := { s.hub with errstat := satAdd s.hub.errstat 0 32 } }
  else
    let x := spoilPart s (core s k) kind (l / 8192)
    bump (partError (setCore { s with hub := { s.hub with errstat := satAdd s.hub.errstat 32 16 } } k x.1) k x.2)

/-- SCRUB of the 64-bit word at a location: a corrected error is counted; an uncorrectable one is counted and reported. From 2^57 up: state
without an address. From 2^60 up, `bad`: the word's stored data has become uncorrectable, and an access or a later check will find it (R428).
DESIGN CHOICE (log entry 78): the places that these numbers name. -/
def scrub (s : State) (loc : Nat) (bad : Bool) : State :=
  let e := s.hub.errstat
  if 2 ^ 60 ≤ loc ∧ bad then bump (strike s ((loc - 2 ^ 60) / 8 * 8))
  else if 2 ^ 57 ≤ loc ∧ loc < 2 ^ 60 ∧ bad then partCheck s (loc - 2 ^ 57)
  else if bad then
    let a := loc / 8 * 8
    let s := strike { s with hub := { s.hub with errstat := satAdd e 32 16 } } a
    match (List.range 64).find? (ctxValid s) with
    | some n => bump (reportCtx s n { code := .uecc, prec := 1, engine := 10, pa := if a < 2 ^ 52 then a else 0 } 0 0 0 [])
    | none => bump s
  else { s with hub := { s.hub with errstat := satAdd e 0 32 } }

/-- The pod's count of flit times as port training leaves it: the first port that comes up takes it over from the neighbour, the others find it
(R402). -/
def alignSlots (s : State) (port : Nat) (up : Bool) : State :=
  if up = false then s
  else
    let alone := (List.range 24).all (fun p => decide (p = port) || !bit (fport s p) 0)
    let t := if alone then s.hub.flit + freeN s 4 % 256 else s.hub.flit
    let u := { s with hub := { s.hub with flit := t, slotAt := tset 0 s.hub.slotAt port t } }
    if alone then bump u else u

/-! ## Meanings -/

def execPackageReset (s : State) : Host.Outcome State Fault Refusal := .next (packageReset s)
def execLinkTrained (s : State) : Host.Outcome State Fault Refusal := .next (linkTrained s)
def execBootctlGo (s : State) : Host.Outcome State Fault Refusal := .next (bootGo s)
def execImageLoaded (ok : Bool) (s : State) : Host.Outcome State Fault Refusal := .next (imageLoaded s ok)
def execImageVerified (s : State) : Host.Outcome State Fault Refusal := .next (imageVerified s)
def execRegisterWrite (off : Nat) (v : BitVec 64) (s : State) : Host.Outcome State Fault Refusal := .next (registerWrite s off v)
def execHostMemoryWrite (pa n : Nat) (v : BitVec 1024) (s : State) : Host.Outcome State Fault Refusal := .next (hostWrite s pa n v)
def execHostMemoryRead (pa n : Nat) (s : State) : Host.Outcome State Fault Refusal := .next (hostRead s pa n)
def execJournalMirrorWrite (s : State) : Host.Outcome State Fault Refusal := .next (mirror s)
def execScrub (loc : Nat) (bad : Bool) (s : State) : Host.Outcome State Fault Refusal := .next (scrub s loc bad)
def execLinkStateChange (up : Bool) (width rate : BitVec 2) (s : State) : Host.Outcome State Fault Refusal :=
  let l := setFld s.hub.linkstat 0 5 (b2n up + width.toNat * 2 + rate.toNat * 8)
  .next (linkJournal { s with hub := { s.hub with linkstat := l } } 31 up)
def execPortStateChange (port : Nat) (up : Bool) (ldelay : BitVec 8) (s : State) : Host.Outcome State Fault Refusal :=
  .next (if port < 24 then
    linkJournal (alignSlots (setFport s port (setFld (setFld (fport s port) 0 1 (b2n up)) 56 8 ldelay.toNat)) port up) port up else s)
def execFlitRetry (port : Nat) (s : State) : Host.Outcome State Fault Refusal :=
  .next (if port < 24 then setFport s port (satAdd (fport s port) 8 16)
    else if port = 31 then { s with hub := { s.hub with linkstat := satAdd s.hub.linkstat 8 24 } } else s)

end Sys2Proof.Machine
end

