-- ==== Sys2Proof/Machine/Cmd.lean ====
section
/-! DEFINITION. The state commands of the system queues (R364 and Table 4 of chapter 16) but for those that pre-empt (Preempt.lean):
contexts, clusters, code, queues, partitions, translations, fault rings, fabric plans, power and attestation. -/
namespace Sys2Proof.Machine

/-! ## Beginning and ending a command (R364) -/

def op0 (r : Line) : Word := lw r 9
def op1 (r : Line) : Word := lw r 10
def op2 (r : Line) : Word := lw r 11

/-- Commands whose OP0[5:0] names a context. -/
def cmdHasCtx (c : Nat) : Bool := [1, 2, 3, 4, 6, 7, 8, 9, 0xA, 0xB, 0xD, 0xE, 0xF, 0x13].contains c
/-- The context that a command's journal entry names. -/
def cmdCtx (c : Nat) (o : Word) : Nat := if cmdHasCtx c then fld o 0 6 else 0

/-- The head of queue q if it is command c, of the variant `sub`, and the sequencer serves it now. -/
def cmdHead (s : State) (q c : Nat) (sub : Line → Bool) : Option (Line × State) :=
  served? s q (fun r => decide (lKind r = 2) && decide (lCmd r = c) && sub r)

/-- The end of a command whose record is r. -/
def endCmd (s : State) (q : Nat) (r : Line) (result : Nat) (code : Option Code) : State :=
  let x := lqOf s q
  finish s q x.ctx x.sysq (lw r 2) (lw r 3) 3 result (code.elim 0 Code.num) false 0 (cmdCtx (lCmd r) (op0 r))

/-- A command that finishes at once, or is refused. -/
def cmdNow (s : State) (q c : Nat) (sub : Line → Bool) (act : State → Word → Word → Word → Except Code State) : State :=
  match cmdHead s q c sub with
  | none => s
  | some (r, t) =>
    match lrecFail s q r with
    | some e => bump (refuse t q r e)
    | none => match act t (op0 r) (op1 r) (op2 r) with
      | .error e => bump (endCmd t q r 2 (some e))
      | .ok u => bump (endCmd u q r 0 none)

/-- A command in progress. -/
def newCmd (s : State) (q : Nat) (r : Line) (ids : List Nat) : Cmd :=
  { q := q, cmd := lCmd r, op0 := op0 r, op1 := op1 r, op2 := op2 r, cmpaddr := lw r 2, cmpval := lw r 3, idx := (lqOf s q).head.toNat
    ids := ids }

/-- A command that goes on after it has begun, or is refused. -/
def cmdStart (s : State) (q c : Nat) (sub : Line → Bool) (act : State → Word → Word → Word → Except Code (State × List Nat)) : State :=
  match cmdHead s q c sub with
  | none => s
  | some (r, t) =>
    match lrecFail s q r with
    | some e => bump (refuse t q r e)
    | none => match act t (op0 r) (op1 r) (op2 r) with
      | .error e => bump (endCmd t q r 2 (some e))
      | .ok u => bump { u.1 with hub := { u.1.hub with cmds := u.1.hub.cmds ++ [newCmd s q r u.2] } }

/-- The command c of queue q in progress. -/
def cmdRun (s : State) (q c : Nat) : Option Cmd := s.hub.cmds.find? (fun m => decide (m.q = q) && decide (m.cmd = c))

/-- A function applied to a command in progress. -/
def setCmd (s : State) (m : Cmd) (f : Cmd → Cmd) : State :=
  { s with hub := { s.hub with cmds := s.hub.cmds.map (fun e => if e = m then f e else e) } }

/-- A command in progress ends. -/
def endRun (s : State) (m : Cmd) (result : Nat) (code : Option Code) : State :=
  let s := { s with hub := { s.hub with cmds := s.hub.cmds.erase m } }
  finish s m.q (lqOf s m.q).ctx true m.cmpaddr m.cmpval 3 result (code.elim 0 Code.num) false 0 (cmdCtx m.cmd m.op0)

/-- A physical operand that breaks its alignment, has a bit above 51, or lies outside the physical map (R364, R376). -/
def physBad (a : Word) (al : Nat) : Bool := decide (fld a 52 12 ≠ 0) || decide (a.toNat % al ≠ 0) || !paOk (fld a 0 52)

/-- An operand has a bit outside those of a mask. -/
def extra (a m : Word) : Bool := decide (a &&& ~~~m ≠ 0)

/-! ## CTXSET (R340 to R342, R351, R376) -/

/-- Reserved fields of an entry (Table 2 of chapter 15). -/
def entReserved (d : Nat → Word) : Bool :=
  decide (fld (d 0) 22 2 ≠ 0) || decide (fld (d 0) 27 37 ≠ 0) || decide (fld (d 1) 52 12 ≠ 0) || decide (fld (d 2) 41 23 ≠ 0) ||
    bit (d 6) 5 || decide (fld (d 6) 12 52 ≠ 0) || decide (fld (d 7) 17 47 ≠ 0) || decide (fld (d 8) 16 48 ≠ 0) ||
    decide (fld (d 10) 41 23 ≠ 0) || decide (fld (d 11) 21 43 ≠ 0) || (List.range 16).any (fun j => decide (fld (d (12 + j)) 41 23 ≠ 0)) ||
    decide (d 29 ≠ 0) || decide (d 30 ≠ 0) || decide (d 31 ≠ 0)

/-- Misaligned bases, and fields whose low or high bits must be zero. -/
def entMisaligned (d : Nat → Word) : Bool :=
  decide (fld (d 1) 0 16 ≠ 0) || decide (fld (d 2) 0 16 ≠ 0) || decide (fld (d 3) 0 6 ≠ 0) || decide (fld (d 3) 48 16 ≠ 0) ||
    decide (fld (d 4) 0 4 ≠ 0) || decide (fld (d 4) 48 16 ≠ 0) || decide (fld (d 5) 0 9 ≠ 0) || decide (fld (d 5) 52 12 ≠ 0) ||
    decide (fld (d 10) 0 5 ≠ 0) || (List.range 16).any (fun j => decide (fld (d (12 + j)) 0 5 ≠ 0))

/-- Allotments beyond their limits, and an arena of more than 2^40 bytes or outside the physical map. -/
def entRange (d : Nat → Word) : Bool :=
  let a := fld (d 1) 0 52
  let n := fld (d 2) 0 41
  decide (32 < fld (d 6) 0 5 + fld (d 6) 6 6) || decide (256 < fld (d 7) 0 8 + fld (d 7) 8 9) || decide (192 < fld (d 8) 0 8 + fld (d 8) 8 8) ||
    decide (2 ^ 40 < n) || (decide (n ≠ 0) && !rangeOk a n)

/-- EMUREC while EMUEN = 1. -/
def entEmurec (d : Nat → Word) : Bool :=
  bit (d 10) 40 && (decide (fld (d 11) 0 7 ≠ 0) || !inUnits (fld (d 11) 0 21) 128 (fld (d 6) 0 5) (fld (d 6) 6 6) 65536)

/-- An entry that may not be VALID (R342, R345). -/
def entBad (s : State) (n : Nat) (d : Nat → Word) : Bool :=
  let asid := fld (d 0) 0 16
  entReserved d || decide (asid = 0) || (otherCtxs n).any (fun m => ctxValid s m && decide (fld (ctxD s m 0) 0 16 = asid)) || entMisaligned d ||
    entRange d || entEmurec d || !partOk s (fld (d 0) 25 2)

/-- The doublewords after a masked write: CTX, CLOWN and CLSW are read-only. -/
def entNew (s : State) (n : Nat) (img : Nat) (mask : Nat) (j : Nat) : Word :=
  let old := tget 0 (ctx s n).d j
  if mask.testBit j && decide (j ≠ 9) && decide (j ≠ 28) then
    let v := BitVec.ofNat 64 (rd s (img + 8 * j) 8)
    if j = 0 then setFld v 16 6 0 else v
  else old

/-- Lines of a range of physical memory leave every instruction cache: when a context becomes VALID, and when the arena of a VALID one moves,
so that no fetch returns bytes of another context (R351, R352). -/
def clearIc (s : State) (a n : Nat) : State :=
  { s with cores := (s.cores.map (·.1)).foldl (fun t k =>
      let c : Core := tget {} t k
      tset {} t k { c with ic := c.ic.filter (fun e => !(decide (a ≤ e.1) && decide (e.1 < a + n))) }) s.cores }

/-- CTXSET. A context that becomes VALID is created, with its windows at reset (R11). Sealed objects stay where they are when the arena changes
(R351). DESIGN CHOICE (log entry 83): a context that no longer is VALID has no code. -/
def ctxset (s : State) (a b c : Word) : Except Code State :=
  let n := fld a 0 6
  let mask := fld c 0 32
  if extra a 0x3F ∨ physBad b 1 ∨ extra c 0xFFFFFFFF then .error .cmdbad
  else if flying s n ∧ (List.range 32).any (fun j => mask.testBit j && !(decide (10 ≤ j) && decide (j ≤ 27))) then .error .ctxbusy
  else
    let d := entNew s n b.toNat mask
    if bit (d 0) 24 ∧ entBad s n (fun j => if j = 0 then d 0 else d j) then .error .ctxbad
    else
      let was := ctxValid s n
      let now := bit (d 0) 24
      let x := ctx s n
      let moved := decide (d 1 ≠ tget 0 x.d 1)
      let t := setCtx s n { x with
        d := (List.range 32).foldl (fun t j => tset 0 t j (d j)) x.d
        rwin := if was = false ∧ now = true then [] else x.rwin
        objs := if was = true ∧ now = false then [] else x.objs }
      let t := if moved ∨ (was = true ∧ now = false) then { t with svi := tset [] t.svi n [] } else t
      .ok (if (was = false ∨ moved ∨ d 2 ≠ tget 0 x.d 2) ∧ now = true then clearIc t (arenaOf t n).1 (arenaOf t n).2 else t)

/-! ## CLASSIGN and CLRELEASE (R43, R344, R345) -/

/-- The global clusters of a mask on a die, in ascending order. -/
def maskClus (die mask : Nat) : List Nat := ((List.range 16).filter (fun k => mask.testBit k)).map (16 * die + ·)

/-- A die is powered (R345, R425). -/
def powered (cfg : Word) (d : Nat) : Bool :=
  bit cfg (2 + (match fld cfg 0 2 with
    | 0 => 0
    | 1 => d / 2
    | _ => d))

/-- The ring registers of one cluster in an image (R344, Table 7 of chapter 16). -/
def ringImage (s : State) (a : Nat) : List (Nat × Ring) :=
  (List.range 4).map (fun q =>
    let w := fun (i : Nat) => BitVec.ofNat 64 (rd s (a + 32 * q + 8 * i) 8)
    (q, ⟨w 0, w 1, w 2, w 3⟩))

/-- The checks of R43. -/
def ringBad (r : Ring) : Bool :=
  decide (fld r.base 0 12 ≠ 0) || decide (fld r.base 48 16 ≠ 0) || decide (fld r.size 5 59 ≠ 0) || decide (fld r.head 32 32 ≠ 0) ||
    decide (fld r.tail 32 32 ≠ 0)

/-- The checks of an assignment of clusters to context n (R344), with the address of each cluster's ring image. -/
def assignFail (s : State) (n : Nat) (cl : List (Nat × Nat)) : Option Code :=
  if ctxValid s n = false then some .ctxbad
  else if cl.any (fun e => (List.range 64).any (fun m => decide (m ≠ n) && bit (ctxD s m 9) e.1)) then some .clbusy
  else if cl.any (fun e => !inPart s (fld (ctxD s n 0) 25 2) (e.1 / 16) || !powered s.hub.partcfg (e.1 / 16)) then some .ctxbad
  else if cl.any (fun e => (ringImage s e.2).any (fun r => ringBad r.2)) then some .ctxbad
  else none

/-- Bit c of an ownership word set or cleared. -/
def setOwn (s : State) (n j c : Nat) (v : Bool) : State :=
  let x := ctx s n
  setCtx s n { x with d := tset 0 x.d j (setFld (tget 0 x.d j) c 1 (b2n v)) }

/-- One cluster is assigned: CLOWN, cleared event bits, ring registers (R344). -/
def assignOne (n : Nat) (s : State) (e : Nat × Nat) : State :=
  let own := bit (ctxD s n 9) e.1
  let r := (ringImage s e.2).foldl (fun t q => tset {} t q.1 q.2) []
  let m := clu s e.1
  let m := { m with ev := [], evS := [], evC := [], ring := r, noDisp := false }
  setClu (setOwn s n 9 e.1 true) e.1 (if own then m else { m with frz := [], age := [], aged := [], rq := [] })

def classign (s : State) (a b c : Word) : Except Code State :=
  let n := fld a 0 6
  if extra a 0x33F ∨ physBad b 1 ∨ extra c 0xFFFF then .error .cmdbad
  else
    let cl := (maskClus (fld a 8 2) (fld c 0 16)).zipIdx.map (fun e => (e.1, b.toNat + 128 * e.2))
    match assignFail s n cl with
    | some e => .error e
    | none => .ok (cl.foldl (assignOne n) s)

/-- A record of the context is queued in the cluster, parked in a frame of it, or running there (R344). -/
def cluBusy (s : State) (n c : Nat) : Bool :=
  let m := clu s c
  (List.range 4).any (fun q => !(rqOf m q).isEmpty || (decide ((ringOf m q).cap ≠ 0) && decide ((ringOf m q).cnt ≠ 0))) ||
    (List.range 8).any (fun k => decide ((core s (8 * c + k)).run ≠ .idle)) ||
    (liveAll s).any (fun e => decide (e.1 = n) && decide (e.2.1 = c))

/-- One cluster is released. DESIGN CHOICE (log entry 26): this ends the freezes of R37 and R46, as assignment and RESUME with ABORT do. -/
def releaseOne (n : Nat) (s : State) (c : Nat) : State :=
  let s := setOwn s n 9 c false
  let m := clu s c
  let s := setClu s c { m with rq := [], ring := [], frz := [], age := [], aged := [], noDisp := false }
  (List.range 8).foldl (fun s k => modCore s (8 * c + k) (fun x => if x.run = .idle then { x with pre := .none } else x)) s

def clrelease (s : State) (a b c : Word) : Except Code State :=
  let n := fld a 0 6
  let cl := maskClus (fld a 8 2) (fld c 0 16)
  if extra a 0x33F ∨ b ≠ 0 ∨ extra c 0xFFFF then .error .cmdbad
  else if cl.any (fun e => !bit (ctxD s n 9) e) then .error .ctxbad
  else if cl.any (cluBusy s n) then .error .clbusy
  else .ok (cl.foldl (releaseOne n) s)

/-! ## PLACE, QCONF, SAVECFG (R349, R350, R359, R364, R369) -/

/-- The refusal of a loader placement (R350). -/
def placeCode (c : Nat) : Code :=
  match c with
  | 1 => .pubenc
  | 2 => .pubsys
  | 3 => .pubtgt
  | 4 => .pubread
  | _ => .pubfull

/-- The sizes that PLACE and `publish` take (R349). -/
def sizeBad (z : Nat) : Bool := decide (z = 0) || decide (z % 32 ≠ 0) || decide (2 ^ 24 < z)

/-- A context has one SVI image more (R322). -/
def addSvi (s : State) (cx : Nat) (i : SviImg) : State := { s with svi := tset [] s.svi cx (tget [] s.svi cx ++ [i]) }

/-- PLACE: an object of a loader. One that the loader has translated from SVI text brings the context's SVI image with it (R322). -/
def place (s : State) (a b c : Word) : Except Code State :=
  let n := fld a 0 6
  let z := c.toNat
  if extra a 0x3F ∨ fld b 52 12 ≠ 0 ∨ sizeBad z then .error .cmdbad
  else
    let v := if paOk b.toNat && paOk (b.toNat + z - 1) && (errIn s b.toNat z).isNone then some (rd s b.toNat z) else none
    match placeObj s n false (bit (ctxD s n 10) 40) z v with
    | .ok r => .ok (match v.bind (Config.sviText · z) with
      | some b => addSvi r.1 n { base := b % 2 ^ 52, size := z / 8, off := r.2 }
      | none => r.1)
    | .error e => .error (placeCode e.1)

/-- QCONF: HEAD stays, TAIL is read at once. A system queue lies in the physical map with its whole ring (R376). -/
def qconf (s : State) (a b c : Word) : Except Code State :=
  let q := fld a 0 14
  let cfg := BitVec.ofNat 32 (fld a 32 32)
  let x := lqOf s q
  let sys := bit cfg 19
  if fld a 14 18 ≠ 0 ∨ fld cfg 21 11 ≠ 0 ∨ fld b 0 7 ≠ 0 ∨ fld c 0 7 ≠ 0 ∨ (sys ∧ (fld b 52 12 ≠ 0 ∨ fld c 52 12 ≠ 0)) then .error .cmdbad
  else if x.pending ≠ 0 ∧ x.en then .error .ctxbusy
  else if sys ∧ (rangeOk b.toNat (128 * 2 ^ fld cfg 0 5) = false ∨ rangeOk c.toNat 128 = false) then .error .ctxbad
  else .ok (tailWrite (setLq s q { x with base := b, ctl := c, cfg := cfg, tail := x.head }) q)

/-- The walk of an address meets an entry that names a physical address outside the map (R376). -/
def namesOut (s : State) (root : Word) (va : Nat) : Bool :=
  let rdE := fun (a : Nat) => BitVec.ofNat 64 (rd s a 8)
  let pa := fun (e : Word) => fld e 16 36 * 65536
  let out := fun (e : Word) (n : Nat) => bit e 0 && !(paOk (pa e) && paOk (pa e + n - 1))
  let e3 := rdE (fld root 9 43 * 512 + 8 * nfld va 42 6)
  let e2 := rdE (pa e3 + 8 * nfld va 29 13)
  let e1 := rdE (pa e2 + 8 * nfld va 16 13)
  out e3 65536 || (bit e3 0 && (out e2 (if bit e2 1 then 2 ^ 29 else 65536) || (bit e2 0 && !bit e2 1 && out e1 65536)))

/-- A page of a save region of n blocks is mapped outside the physical map (R376). -/
def regionOut (s : State) (cx : Nat) (b : Word) (n : Nat) : Bool :=
  (List.range (32 * n)).any (fun i => namesOut s (ctxD s cx 5) (nfld (b.toNat + 65536 * i) 0 48))

def savecfg (s : State) (a b c : Word) : Except Code State :=
  let n := fld a 0 6
  let x := ctx s n
  if extra a 0x3F ∨ fld b 0 21 ≠ 0 ∨ fld b 48 16 ≠ 0 ∨ extra c 0xFFFFF then .error .cmdbad
  else if x.saveUsed ≠ [] then .error .ctxbusy
  else if regionOut s n b c.toNat then .error .ctxbad
  else .ok (setCtx s n { x with saveBase := b, saveCnt := c.toNat })

/-! ## PARTSET (R345, R425) -/

/-- The units of a die without power, and as they come up: they keep no state, SRAM is zero with valid check bits, cores and clusters are at
reset (R425). -/
def dieFresh (s : State) (d : Nat) : State :=
  let inDie := fun (l : Nat) => (decide (spLoc (128 * d) 0 ≤ l) && decide (l < spLoc (128 * d + 128) 0)) ||
    (decide (ringLoc d 0 ≤ l) && decide (l < ringLoc (d + 1) 0))
  { s with
    mem := s.mem.filter (fun e => !inDie e.1)
    uecc := s.uecc.filter (fun w => !inDie w)
    tlb := s.tlb.filter (fun e => !(decide (e.place < 512) && decide (dieOf e.place = d)) && !decide (e.place / 16 = 64 + d))
    cores := s.cores.filter (fun e => !decide (dieOf e.1 = d))
    clus := s.clus.filter (fun e => !decide (e.1 / 16 = d)) }

def partset (s : State) (a b c : Word) : Except Code State :=
  if extra a 0x3F ∨ b ≠ 0 ∨ c ≠ 0 then .error .cmdbad
  else if (List.range 64).any (ctxValid s) then .error .ctxbusy
  else if fld a 0 2 = 3 then .error .ctxbad
  else
    let turned := (List.range 4).filter (fun d => powered a d ≠ powered s.hub.partcfg d)
    let s := turned.foldl dieFresh s
    .ok { s with hub := { s.hub with partcfg := a } }

/-! ## TLBINV (R384, R385) -/

/-- Copy programs of a context with an older generation than g. -/
def oldCopies (s : State) (n : Nat) (g : BitVec 8) : Bool :=
  let old := fun (p : CopyProg) => decide (p.ctx = n) && decide (1 ≤ (g - p.gen).toNat) && decide ((g - p.gen).toNat < 128)
  s.cores.any (fun e => e.2.ch.any (fun x => x.2.live.any old || x.2.pend.any old))

/-- The begin instant: entries leave every TLB, GEN rises, and the requests of older tags are remembered. -/
def tlbinvBegin (s : State) (n : Nat) (hit : TlbEnt → Bool) : State × List Nat :=
  let x := ctx s n
  let ids := (s.reqs.filter (fun r => decide (r.ctx = n) && decide (r.stage = .out))).map (·.id)
  (setCtx { s with tlb := s.tlb.filter (fun e => !(decide (e.ctx = n) && hit e)) } n { x with gen := x.gen + 1 }, ids)

def tlbinvRange (s : State) (a b c : Word) : Except Code (State × List Nat) :=
  if extra a 0x13F ∨ extra b 0xFFFFFFFF0000 ∨ extra c 0xFFFFFFFF ∨ c = 0 then .error .cmdbad
  else .ok (tlbinvBegin s (fld a 0 6) (fun e => overlap e.va e.size b.toNat (65536 * c.toNat)))

def tlbinvAll (s : State) (a b c : Word) : Except Code (State × List Nat) :=
  if extra a 0x13F ∨ b ≠ 0 ∨ c ≠ 0 then .error .cmdbad
  else .ok (tlbinvBegin s (fld a 0 6) (fun _ => true))

/-- A TLBINV begins; the generation that its begin instant makes is kept as its phase. -/
def tlbinvStart (s : State) (q : Nat) (all : Bool) : State :=
  let t := cmdStart s q 0xD (fun r => decide (bit (op0 r) 8 = all)) (fun s a b c => if all then tlbinvAll s a b c else tlbinvRange s a b c)
  { t with hub := { t.hub with cmds := t.hub.cmds.map (fun m =>
      if m.cmd = 0xD ∧ m.q = q ∧ s.hub.cmds.contains m = false then { m with phase := (ctx t (fld m.op0 0 6)).gen.toNat } else m) } }

/-- TLBINV_END. -/
def tlbinvFinish (s : State) (q : Nat) : State :=
  match cmdRun s q 0xD with
  | none => s
  | some m => if performed s m.ids ∧ oldCopies s (fld m.op0 0 6) (BitVec.ofNat 8 m.phase) = false then endRun s m 0 none else s

/-! ## Fault rings and stopped tasks (R390 to R392) -/

/-- Waiting records move into the ring while it has room; with none left and room, an overflow episode ends. -/
def ringDrain (s : State) (cx : Nat) : Nat → State
  | 0 => s
  | n + 1 =>
    let x := ctx s cx
    match x.fr.wait with
    | [] => setCtx s cx { x with fr := { x.fr with ovfl := x.fr.ovfl && !x.fr.room } }
    | r :: t =>
      if x.fr.room then
        let s := ringPut s x.fr.base x.fr.log2n x.fr.tail r
        ringDrain (setCtx s cx { x with fr := { x.fr with tail := (x.fr.tail + 1) % 2 ^ 32, wait := t } }) cx n
      else s

def drainAll (s : State) (cx : Nat) : State := ringDrain s cx ((ctx s cx).fr.wait.length + 1)

/-- FAULT_RING_HEAD_WRITE. -/
def ringHead (s : State) (cx : Nat) : State :=
  let x := ctx s cx
  let s := cleanLine s (16384 + cx)
  if x.fr.log2n = 0 then s else drainAll (setCtx s cx { x with fr := { x.fr with head := rd s x.fr.base 4 } }) cx

/-- The hub reads a changed control line again (R360, R390, R410). -/
def reread (s : State) (i : Nat) : State := if i < 16384 then tailWrite s i else ringHead s (i - 16384)

/-- FAULT action 0: the ring begins empty at the HEAD that its control line holds. -/
def ringConfig (s : State) (a b c : Word) : Except Code State :=
  let n := fld a 0 6
  if extra a 0x33F ∨ physBad b 128 ∨ c.toNat < 4 ∨ 16 < c.toNat then .error .cmdbad
  else
    let h := rd s b.toNat 4
    let x := ctx s n
    let s := wr s (b.toNat + 8) 4 h
    .ok (drainAll (setCtx s n { x with fr := { x.fr with base := b.toNat, log2n := c.toNat, head := h, tail := h } }) n)

/-- The core that holds the stopped task of a FRAME (R392). -/
def stoppedCore (s : State) (n : Nat) (f : Word) : Option Nat :=
  (s.cores.find? (fun e => decide (e.2.run = .stopped) && decide (e.2.ctx = n) && decide (e.2.trec.w1 = f))).map (·.1)

/-- The written-back stopped task of a FRAME: its cluster. -/
def stoppedRec (s : State) (n : Nat) (f : Word) : Option Nat := ((ctx s n).wbStop.find? (fun e => decide (e.2 = f))).map (·.1)

/-- The frame slot of a record of context n in global cluster c. -/
def slotAt (s : State) (n c : Nat) (f : Word) : Nat := frameHome s n (c / 16) f

/-- A written-back task no longer counts as stopped. -/
def unwb (s : State) (n c : Nat) (f : Word) : State :=
  let x := ctx s n
  let q := (rdRec s (slotAt s n c f)).qid
  let s := setCtx s n { x with wbStop := x.wbStop.erase (c, f), wbLost := x.wbLost.filter (· ≠ (c, f)) }
  if (swImage s n c).isSome then s else thawQ s c q

/-- What a resumed or kept core's pre-emption becomes (R365, R389): a drained loop still is to be written back. -/
def preAfter (c : Core) : Pre :=
  match c.pre with
  | .none => .none
  | .taking => .taking
  | .saving => .saving
  | _ => if drained c then .taking else if c.trec.preempt then .armed else .finishing

/-- The records of a ring of global cluster cl, from HEAD on. -/
def ringList (s : State) (cx cl : Nat) (g : Ring) : List Rec :=
  (List.range g.cnt).map (fun i => match ringEnt s cx cl g (fld g.head 0 32 + i) false with
    | .ok a => rdRec s a
    | .error _ => {})

/-- Records written up to TAIL; HEAD follows them. -/
def ringStore (s : State) (cx cl : Nat) (g : Ring) (l : List Rec) : State × Ring :=
  let h := (fld g.tail 0 32 + 2 ^ 32 - l.length) % 2 ^ 32
  (l.zipIdx.foldl (fun t e => match ringEnt s cx cl g (h + e.2) true with
    | .ok a => wrRec t a e.1
    | .error _ => t) s, { g with head := BitVec.ofNat 64 h })

/-- The ring of queue q of a cluster, on the device or in its switch image. -/
def ringHere (s : State) (n c q : Nat) : Ring :=
  match swImage s n c with
  | some img => ((ringImage s (img + 32)).getD q (q, {})).2
  | none => ringOf (clu s c) q
def setRingHere (s : State) (n c q : Nat) (g : Ring) : State :=
  match swImage s n c with
  | some img => wrWords s (img + 32 + 32 * q) [g.base, g.size, g.head, g.tail]
  | none => setClu s c { clu s c with ring := tset {} (clu s c).ring q g }

/-- A function applied to a queue of a cluster, hardware entries and ring alike; a switched-out cluster's hardware queue is another context's
(R374, R392). `f` keeps, changes or drops a record. -/
def mapQueue (s : State) (n c q : Nat) (f : Rec → Option Rec) : State :=
  let m := clu s c
  let l := (rqOf m q).filterMap f
  let m := if l.head?.map (·.w1) = (rqOf m q).head?.map (·.w1) then m else newHead m q
  let s := if (swImage s n c).isSome then s else setClu s c { m with rq := tset [] m.rq q l }
  let g := ringHere s n c q
  if g.cap = 0 ∨ g.cnt = 0 then s
  else
    let l := ringList s n c g
    if l.filterMap f = l then s
    else
      let r := ringStore s n c g (l.filterMap f)
      setRingHere r.1 n c q r.2

/-- FAULT action 1. A task that UECC or FRZTO has stopped cannot be resumed (R393, R428). DESIGN CHOICE (log entry 77): the answer is NOFAULT. -/
def faultResume (s : State) (a b c : Word) : Except Code State :=
  let n := fld a 0 6
  if extra a 0x33F ∨ c ≠ 0 then .error .cmdbad
  else match stoppedCore s n b with
  | some k =>
    let p := preAfter (core s k)
    if (core s k).lost then .error .nofault
    else .ok (modCore (resumeTask s k) k (fun c => { c with pre := p }))
  | none => match stoppedRec s n b with
    | some m => if (ctx s n).wbLost.contains (m, b) then .error .nofault else .ok (unwb s n m b)
    | none => .error .nofault

/-- FAULT action 3: the task ends as by `exit`, without SETMASK and the checks. -/
def discardCore (s : State) (k : Nat) : State :=
  let c := core s k
  let f := c.trec.w1
  let a := frameHome s c.ctx (dieOf k) f
  let s := wr s a 8 ((rdRec s a).setKind 4).w0.toNat
  let s := liveDel s c.ltag c.ctx (homeClu k f) f
  modCore s k (fun c => { coreFree c with acc := [], accAl := 0, pend := [], land := [], busy := [] })

def discardRec (s : State) (n m : Nat) (f : Word) : State :=
  let a := slotAt s n m f
  let r := rdRec s a
  let tag := BitVec.ofNat 16 (rd s (a + 64) 2)
  let s := mapQueue (unwb s n m f) n m r.qid (fun e => if e.w1 = f then none else some e)
  let s := wr s a 8 (r.setKind 4).w0.toNat
  let x := ctx s n
  liveDel (setCtx s n { x with saveUsed := x.saveUsed.erase (r.saveix - 1) }) tag n m f

def faultDiscard (s : State) (a b c : Word) : Except Code State :=
  let n := fld a 0 6
  if extra a 0x33F ∨ c ≠ 0 then .error .cmdbad
  else match stoppedCore s n b with
  | some k => .ok (discardCore (thawQ s (homeClu k b) (core s k).trec.qid) k)
  | none => match stoppedRec s n b with
    | some m => .ok (discardRec s n m b)
    | none => .error .nofault

/-- The record of a replay (Table 8 of chapter 17). -/
def replayed (pc : Word) (r : Rec) : Rec := ((r.setPc (fld pc 0 40)).setKind 0).setJoin 0

def replayRec (s : State) (n m : Nat) (f pc : Word) : State :=
  let a := slotAt s n m f
  let r := rdRec s a
  let s := mapQueue (unwb s n m f) n m r.qid (fun e => some (if e.w1 = f then replayed pc e else e))
  let x := ctx s n
  wrRec (setCtx s n { x with saveUsed := x.saveUsed.erase (r.saveix - 1) }) a (replayed pc r)

/-- FAULT action 2 begins: a written-back task at once, a task on its core once its completions have come. -/
def replayBegin (s : State) (a b c : Word) : Except Code (State × Bool) :=
  let n := fld a 0 6
  if extra a 0x33F ∨ fld c 0 5 ≠ 0 ∨ fld c 40 24 ≠ 0 then .error .cmdbad
  else match stoppedCore s n b with
  | some k => if (core s k).trec.committed then .error .commit else .ok (s, false)
  | none => match stoppedRec s n b with
    | some m => if (rdRec s (slotAt s n m b)).committed then .error .commit else .ok (replayRec s n m b c, true)
    | none => .error .nofault

/-- The task of core k starts over: its record enters the head of its queue, before the pushes of its ccy (R44). -/
def replayCore (s : State) (k : Nat) (pc : Word) : State :=
  let c := core s k
  let f := c.trec.w1
  let m := homeClu k f
  let a := frameHome s c.ctx (dieOf k) f
  let r := replayed pc (rdRec s a)
  let s := thawQ (wrRec s a r) m r.qid
  let s := writeBack (m, r) (if (clu s m).pushCcy = s.ccy then newCcy s else s)
  modCore s k (fun c => { coreFree c with acc := [], accAl := 0, joincnt := 0 })

/-- FAULT_REPLAY: the command's record, or one in progress whose task owes no completion (R392). -/
def faultReplay (s : State) (q : Nat) : State :=
  match cmdRun s q 0xE with
  | some m =>
    match stoppedCore s (fld m.op0 0 6) m.op1 with
    | some k => if joinSum s k = 0 then endRun (replayCore s k m.op2) m 0 none else s
    | none => match stoppedRec s (fld m.op0 0 6) m.op1 with
      | some c => endRun (replayRec s (fld m.op0 0 6) c m.op1 m.op2) m 0 none
      | none => endRun s m 2 (some .nofault)
  | none =>
    match cmdHead s q 0xE (fun r => decide (fld (op0 r) 8 2 = 2)) with
    | none => s
    | some (r, t) =>
      match lrecFail s q r with
      | some e => bump (refuse t q r e)
      | none => match replayBegin t (op0 r) (op1 r) (op2 r) with
        | .error e => bump (endCmd t q r 2 (some e))
        | .ok (u, true) => bump (endCmd u q r 0 none)
        | .ok (u, false) => bump { u with hub := { u.hub with cmds := u.hub.cmds ++ [newCmd s q r []] } }

/-! ## FPLAN (R400) -/

/-- The plan at a location. -/
def readPlan (s : State) (a : Nat) : Plan :=
  let b := fun (i : Nat) => (rdB s (a + i)).toNat
  let circ := (b 3).testBit 0
  { dx := b 0 % 16 + 1, dy := b 0 / 16 + 1, dz := b 1 % 16 + 1, mx := b 1 / 16, my := b 2 % 16, mz := b 2 / 16, circ := circ
    degr := (b 3).testBit 1
    ring := (List.range (rd s (a + 4) 2 % 4096 + 1)).map (fun k => BitVec.ofNat 12 (rd s (a + 64 + 2 * k) 2))
    slots := if circ then (List.range 6144).foldl (fun t k => tset 0 t k (BitVec.ofNat 16 (rd s (a + 8256 + 2 * k) 2))) [] else [] }

/-- A breach of Table 2 of chapter 18. -/
def planBad (s : State) (a : Nat) (p : Plan) : Bool :=
  let halves := (List.range p.ring.length).map (fun k => rd s (a + 64 + 2 * k) 2)
  let me := BitVec.ofNat 12 (p.mx + p.my * 16 + p.mz * 256)
  decide (rd s (a + 3) 1 / 4 ≠ 0) || decide (rd s (a + 4) 2 / 4096 ≠ 0) || decide (rd s (a + 6) 58 ≠ 0) ||
    halves.any (fun h => decide (4096 ≤ h) || !(decide (h % 16 < p.dx) && decide (h / 16 % 16 < p.dy) && decide (h / 256 % 16 < p.dz))) ||
    !decide p.ring.Nodup || !p.ring.contains me ||
    p.slots.any (fun e => decide (fld e.2 12 4 ≠ 0) || decide (fld e.2 1 3 = 7)) ||
    (List.range 24).any (fun q => decide (224 < p.slots.countP (fun e => decide (e.1 / 256 = q) && bit e.2 0))) ||
    (match s.hub.geom with
     | none => false
     | some g => decide (g ≠ (p.dx, p.dy, p.dz)))

def fplan (s : State) (a b c : Word) : Except Code State :=
  let n := fld a 0 6
  if extra a 0x3F ∨ physBad b 64 ∨ extra c 1 then .error .cmdbad
  else if flying s n then .error .ctxbusy
  else
    let p := readPlan s b.toNat
    if planBad s b.toNat p then .error .ctxbad
    else .ok (setCtx { s with hub := { s.hub with geom := some (p.dx, p.dy, p.dz) } } n { ctx s n with plan := some p })

/-- DEGRONLY: the DEGR bit alone; a context without a plan has none to change. -/
def fplanDegr (s : State) (a b c : Word) : Except Code State :=
  let n := fld a 0 6
  if extra a 0x3F ∨ physBad b 64 ∨ extra c 1 then .error .cmdbad
  else .ok (setCtx s n { ctx s n with plan := (ctx s n).plan.map (fun p => { p with degr := (rdB s (b.toNat + 3)).toNat.testBit 1 }) })

/-! ## Power (R423, R424, R426, R427) -/

def opset (s : State) (a b c : Word) : Except Code (State × List Nat) :=
  if extra a 7 ∨ b ≠ 0 ∨ c ≠ 0 then .error .cmdbad
  else .ok ({ s with hub := { s.hub with opNext := s.hub.opNext ++ [{ op := BitVec.ofNat 3 (fld a 0 3), at_ := s.hub.ticks }] } }, [])

/-- OPERATING_POINT_CHANGE: the oldest change takes effect. A trip is journalled, and the commands begun before that, or in the same tick, end at
its emergency point; a command ends (R426, R427). -/
def opChange (s : State) : State :=
  match s.hub.opNext with
  | [] => s
  | e :: t =>
    let h := s.hub
    if e.trip then
      journal { s with hub := { h with
        op := e.op, tripAt := some (h.ticks, e.op), opNext := t.map (fun x => if x.trip then x else { x with op := e.op }) } } 6 0 0 0 0 e.arg
    else
      let p := match h.tripAt with
        | some (i, q) => if i = e.at_ then q else e.op
        | none => e.op
      let s := { s with hub := { h with op := p, opNext := t } }
      match s.hub.cmds.find? (fun m => decide (m.cmd = 0x10)) with
      | some m => endRun s m 0 none
      | none => s

def anset (s : State) (a b c : Word) : Except Code State :=
  if extra a 7 ∨ extra b 0xFFFF ∨ extra c 0xFFFF then .error .cmdbad
  else
    let e := BitVec.ofNat 33 (b.toNat + c.toNat * 65536 + 2 ^ 32)
    .ok { s with hub := { s.hub with budget := tset 0 s.hub.budget (fld a 0 3) e } }

def tripset (s : State) (a b c : Word) : Except Code State :=
  if extra a 7 ∨ extra b 0xFF ∨ c ≠ 0 then .error .cmdbad
  else .ok { s with hub := { s.hub with emerg := BitVec.ofNat 3 (fld a 0 3), trip := BitVec.ofNat 8 (fld b 0 8) } }

/-- THERMAL_TRIP: a reading at or above the trip temperature (R426). -/
def thermal (s : State) (die : BitVec 2) (temp : BitVec 8) : State :=
  if temp < s.hub.trip then s
  else
    let arg := BitVec.ofNat 64 (die.toNat + s.hub.emerg.toNat * 4 + temp.toNat * 256)
    { s with hub := { s.hub with opNext := s.hub.opNext ++ [{ op := s.hub.emerg, trip := true, arg := arg, at_ := s.hub.ticks }] } }

/-! ## ATTEST (R351, R422) -/

/-- The report: the fields in the order of R422, each little-endian, then the signature. Whoever knows DEVID finds it in the report, holds the
digest of the report's public key against it, and verifies the signature under that key. -/
def report422 (s : State) (n : Nat) (nonce : Nat) : List Byte :=
  let body := numBytes 32 (rd s nonce 32) ++ numBytes 2 s.hub.revid.toNat ++ numBytes 16 devId.toNat ++ numBytes 2 s.hub.svn.toNat ++
    numBytes 64 s.hub.fwDigest.toNat ++ numBytes 8 s.hub.partcfg.toNat ++
    ((ctx s n).objs.map (fun o => numBytes 64 o.sum.toNat)).flatten ++
    identityPub ++ Config.certificate
  body ++ identitySign (freeN s (2 ^ 96)) body

def attest (s : State) (a b c : Word) : Except Code State :=
  if extra a 0x3F ∨ physBad b 1 ∨ physBad c 1 then .error .cmdbad
  else .ok { s with mem := wrList s.mem c.toNat ((report422 s (fld a 0 6) b.toNat).zipIdx.map (fun e => (e.2, e.1))) }

/-! ## Meanings -/

/-- A command without variants. -/
def anyRec (_ : Line) : Bool := true

def execCtxset (q : Nat) (s : State) : Host.Outcome State Fault Refusal := .next (cmdNow s q 1 anyRec ctxset)
def execClassign (q : Nat) (s : State) : Host.Outcome State Fault Refusal := .next (cmdNow s q 2 anyRec classign)
def execClrelease (q : Nat) (s : State) : Host.Outcome State Fault Refusal := .next (cmdNow s q 3 anyRec clrelease)
def execPlace (q : Nat) (s : State) : Host.Outcome State Fault Refusal := .next (cmdNow s q 4 anyRec place)
def execQconf (q : Nat) (s : State) : Host.Outcome State Fault Refusal := .next (cmdNow s q 5 anyRec qconf)
def execSavecfg (q : Nat) (s : State) : Host.Outcome State Fault Refusal := .next (cmdNow s q 6 anyRec savecfg)
def execPartset (q : Nat) (s : State) : Host.Outcome State Fault Refusal := .next (cmdNow s q 0xC anyRec partset)
def execTlbinv (q : Nat) (s : State) : Host.Outcome State Fault Refusal := .next (tlbinvStart s q false)
def execTlbinvAll (q : Nat) (s : State) : Host.Outcome State Fault Refusal := .next (tlbinvStart s q true)
def execTlbinvEnd (q : Nat) (s : State) : Host.Outcome State Fault Refusal := .next (tlbinvFinish s q)
def execFaultRingConfig (q : Nat) (s : State) : Host.Outcome State Fault Refusal :=
  .next (cmdNow s q 0xE (fun r => decide (fld (op0 r) 8 2 = 0)) ringConfig)
def execFaultResume (q : Nat) (s : State) : Host.Outcome State Fault Refusal :=
  .next (cmdNow s q 0xE (fun r => decide (fld (op0 r) 8 2 = 1)) faultResume)
def execFaultReplay (q : Nat) (s : State) : Host.Outcome State Fault Refusal := .next (faultReplay s q)
def execFaultDiscard (q : Nat) (s : State) : Host.Outcome State Fault Refusal :=
  .next (cmdNow s q 0xE (fun r => decide (fld (op0 r) 8 2 = 3)) faultDiscard)
def execFaultRingHeadWrite (ctx : Nat) (s : State) : Host.Outcome State Fault Refusal := .next (ringHead s ctx)
def execFplan (q : Nat) (s : State) : Host.Outcome State Fault Refusal := .next (cmdNow s q 0xF (fun r => !bit (op2 r) 0) fplan)
def execFplanDegronly (q : Nat) (s : State) : Host.Outcome State Fault Refusal :=
  .next (cmdNow s q 0xF (fun r => bit (op2 r) 0) fplanDegr)
def execOpset (q : Nat) (s : State) : Host.Outcome State Fault Refusal := .next (cmdStart s q 0x10 anyRec opset)
def execOperatingPointChange (s : State) : Host.Outcome State Fault Refusal := .next (opChange s)
def execAnset (q : Nat) (s : State) : Host.Outcome State Fault Refusal := .next (cmdNow s q 0x11 anyRec anset)
def execTripset (q : Nat) (s : State) : Host.Outcome State Fault Refusal := .next (cmdNow s q 0x12 anyRec tripset)
def execThermalTrip (die : BitVec 2) (temp : BitVec 8) (s : State) : Host.Outcome State Fault Refusal := .next (thermal s die temp)
def execAttest (q : Nat) (s : State) : Host.Outcome State Fault Refusal := .next (cmdNow s q 0x13 anyRec attest)

end Sys2Proof.Machine
end

