-- ==== Sys2Proof/Machine/Fabric.lean ====
section
/-! DEFINITION. The fabric (R395 to R407), slack and arbitration (R114 to R117), and the TLBs (R379, R382, R383).

A packet waits in the router of a die, at one of seven inputs: 0 to 5 the die's ports by direction, 6 local injection. A place of an arbiter is 0
to 23 the output of that port, 24 + d the ejection at die d, 28 + h the service queue of home h. -/
namespace Sys2Proof.Machine

/-! ## Routes (R395, R397) -/

/-- The geometry that transit packets meet: that of the plans installed since reset, all alike (R400). -/
def anyPlan (s : State) : Plan := (s.ctxs.findSome? (fun e => e.2.plan)).getD {}

/-- Size of dimension i, and the own coordinate along it. -/
def Plan.size (p : Plan) (i : Nat) : Nat := if i = 0 then p.dx else if i = 1 then p.dy else p.dz
def Plan.here (p : Plan) (i : Nat) : Nat := if i = 0 then p.mx else if i = 1 then p.my else p.mz

/-- Virtual channel of a packet (R398). -/
def Pkt.vc (p : Pkt) : Nat := fld p.hdr 2 1

/-- The virtual channel of a packet once it has left in a direction: 1 beyond the dateline of the ring it is on, 0 on entering another ring
(R399). The hop over the dateline is itself on channel 1. -/
def nextVc (pl : Plan) (x : Pkt) (dir : Nat) : Nat :=
  let i := dir / 2
  let cross := if dir % 2 = 0 then decide (pl.here i + 1 = pl.size i) else decide (pl.here i = 0)
  if cross then 1 else if x.inp < 6 ∧ x.inp / 2 = i then x.vc else 0

/-- Flits free in the neighbour's buffer of a port, class and virtual channel (R403). -/
def credit (s : State) (port cls vc : Nat) : Nat := 24 - tget 0 s.hub.used (4 * port + 2 * cls + vc)

/-- Free space on the virtual channel that the packet would use in a direction. -/
def roomTo (s : State) (x : Pkt) (dir : Nat) : Nat := credit s (6 * x.die + dir) (hClass x.hdr) (nextVc (anyPlan s) x dir)

/-- Entry e of a port's table carries circuit flit p; some entry of the port does (R402). -/
def slotCarries (e : BitVec 16) (p : Pkt) : Bool := bit e 0 && decide (fld e 1 3 = p.inp) && decide (fld e 4 8 = hCid p.hdr)
def hasSlot (s : State) (port : Nat) (p : Pkt) : Bool :=
  (List.range 256).any (fun k => slotCarries (tget 0 s.hub.slots (256 * port + k)) p)

/-- The trained minimal directions of a packet, in the order X, Y, Z (R397, R408). -/
def openDirs (s : State) (x : Pkt) : List Nat :=
  (minDirs (anyPlan s) (hDest x.hdr)).filter (fun d => bit (fport s (6 * x.die + d)) 0)

/-- The place for which a packet waits: ejection at its target; a circuit flit the first minimal output that holds a slot for it; else the output
with the most free buffer space, after 64 ticks without credit the first dimension (R397). -/
def routeOf (s : State) (x : Pkt) : Option Nat :=
  if hDest x.hdr = myCoord (anyPlan s) then some (24 + x.die)
  else
    let ds := openDirs s x
    let best := ds.foldl (fun (b : Option Nat) d => match b with
      | none => some d
      | some c => if roomTo s x c < roomTo s x d then some d else some c) none
    let d := if hClass x.hdr = 2 then (ds.find? (fun d => hasSlot s (6 * x.die + d) x)).or best
      else if 64 ≤ x.ticks then ds.head? else best
    d.map (6 * x.die + ·)

/-! ## Buffers (R403) -/

/-- The packets in one virtual channel of an input, oldest first, and the flits they take. -/
def chanPkts (s : State) (d inp cls vc : Nat) : List Pkt :=
  s.pkts.filter (fun p => decide (p.die = d) && decide (p.inp = inp) && decide (hClass p.hdr = cls) && decide (p.vc = vc))
def chanFlits (s : State) (d inp cls vc : Nat) : Nat := ((chanPkts s d inp cls vc).map Pkt.flits).sum

/-- A packet has room at its input; circuit flits take none. -/
def hasRoom (s : State) (p : Pkt) : Bool := decide (hClass p.hdr = 2) || decide (chanFlits s p.die p.inp (hClass p.hdr) p.vc + p.flits ≤ 24)

/-- The packet is at the head of its virtual channel. -/
def isHead (s : State) (p : Pkt) : Bool :=
  decide (hClass p.hdr < 2) && decide ((chanPkts s p.die p.inp (hClass p.hdr) p.vc).head?.map (·.id) = some p.id)

/-- The heads that contend at a place, oldest first. -/
def contendersAt (s : State) (place : Nat) : List Pkt := s.pkts.filter (fun p => isHead s p && decide (routeOf s p = some place))

def Pkt.urg (p : Pkt) : Urg := ⟨hExh p.hdr, hSlack p.hdr, hPrio p.hdr, p.seen⟩

/-! ## Injection (R396) -/

/-- The packet of an own request for another package; a partial of a collective is a circuit flit where its word says so (R402). -/
def reqPkt (s : State) (r : Req) : Pkt :=
  let p := planOf s r.ctx
  let part := decide (r.h = 38)
  let kind := match r.kind with
    | .load => if r.dst = .gen then 34 else 32
    | .store => if part then 38 else if r.dst = .gen then 35 else 33
    | .amo => r.h
  let data := match r.kind with
    | .store => (r.wr.map (fun e => e.2.toNat * 2 ^ (8 * e.1))).sum
    | _ => r.op.toNat + r.op2.toNat * 2 ^ 64 + r.op3.toNat * 2 ^ 128 + r.op4.toNat * 2 ^ 192
  let circ := part && decide (r.op ≠ 0)
  { id := r.id, die := dieOf r.core, inp := 6, n := r.n, post := decide (r.dst = .none), ord := r.ord, addr := r.addr, data := BitVec.ofNat 1024 data
    hdr := setFld (mkHdr (if circ then 2 else 0) r.slack r.prio (dieOf r.core) (meshCoord (fld r.addr 56 4) (fld r.addr 52 4) (fld r.addr 48 4))
      (myCoord p) (fld (ctxD s r.ctx 0) 0 16) kind r.core r.id r.exh r.win) 72 8 (if circ then r.op.toNat - 1 else 0) }

/-- The reply or acknowledgement of a request that another package has sent (R396): acknowledgements for stores and for atomics that expect no
old value. The address names a failure (log entry 11). -/
def replyPkt (s : State) (r : Req) (h : BitVec 128) : Pkt :=
  let ack := decide (r.kind = .store) || r.posted
  { id := r.id, die := hLane h, inp := 6, n := if ack then 0 else r.n, addr := if r.bad then r.op else 0
    data := if r.bad then BitVec.ofNat 1024 (freeN s r.id) else r.res
    hdr := mkHdr 1 r.slack (hPrio h) (hLane h) (hSrc h) (hDest h) (hAsid h) (if ack then 37 else 36) (fld h 80 9) (hTag h) r.exh false }

/-- The WAKE of a phase that an atomic of another package has completed here: handler 17 at that package, for the core that it came from (R194). -/
def wakePkt (r : Req) (h : BitVec 128) : Pkt :=
  { id := r.id, die := hLane h, inp := 6, addr := r.addr, data := 0, post := true
    hdr := mkHdr 0 r.slack (hPrio h) (hLane h) (hSrc h) (hDest h) (hAsid h) 17 (fld h 80 9) r.id r.exh false }

/-- What the package itself has for the injection of die d: its packet, while it waits for room (R403). -/
def ownPkt (s : State) (d : Nat) (r : Req) : Option Pkt :=
  match r.stage, r.dst with
  | .out, _ =>
    if !r.sent && r.loc.isNone && offPackage s r.ctx r.addr && decide (dieOf r.core = d) && performed s r.deps && (!r.rel || r.deps.isEmpty)
    then some (reqPkt s r) else none
  | .done, .remote h => if hLane h = d then some (replyPkt s r h) else none
  | .done, .wake h => if hLane h = d then some (wakePkt r h) else none
  | _, _ => none

/-- The injection arbiter of die d grants one packet of the package (R117, R405). -/
def injectOne (s : State) (d : Nat) : Option State :=
  let q := (s.reqs.filter (fun r => (ownPkt s d r).any (fun p => hasRoom s p.fit))).foldl (fun l r => insArr r l) []
  match grantBy Req.urg q with
  | none => none
  | some g => (ownPkt s d g).map (fun p =>
      let ids := (q.filter (fun r => decide (r.id ≠ g.id))).map (·.id)
      let s := takeIn s p
      let keep := s.reqs.filter (fun r => decide (r.id ≠ g.id) || decide (r.stage = .out))
      { s with reqs := keep.map (fun r =>
          if r.id = g.id then { r with sent := true, seen := 0 } else if ids.contains r.id then { r with seen := r.seen + 1 } else r) })

/-- Injection at die d until nothing more has room. -/
def injectN : Nat → Nat → State → State
  | 0, _, s => s
  | n + 1, d, s => match injectOne s d with
    | none => s
    | some t => injectN n d t
def inject (s : State) (d : Nat) : State := injectN s.reqs.length d s

/-! ## Merging in reduction windows (R406, R407) -/

/-- Sum, NaI and count that a packet carries. -/
def addOf (p : Pkt) : Int × Bool × Nat :=
  if hKind p.hdr = 39 then (sextI (fld p.data 0 48) 48, bit p.data 48, fld p.data 49 16 + 1)
  else (sextI (fld p.data 0 32) 32, decide (fld p.data 0 32 = 0x80000000), 1)

/-- A packet may be an input of a merge (R406). -/
def addsWide (p : Pkt) : Bool :=
  decide (hClass p.hdr = 0) && (decide (hKind p.hdr = 39) || (decide (hKind p.hdr = 23) && p.post && !p.ord)) && hWin p.hdr

/-- Two packets at one output may merge. -/
def mergeable (a b : Pkt) : Bool :=
  let x := addOf a
  let y := addOf b
  let sum := x.1 + y.1
  addsWide a && addsWide b && decide (a.id ≠ b.id) && decide (a.vc = b.vc) && decide (hAsid a.hdr = hAsid b.hdr) &&
    decide (hDest a.hdr = hDest b.hdr) && decide (a.addr = b.addr) && decide (x.2.2 + y.2.2 ≤ 65536) &&
    (x.2.1 || y.2.1 || (decide (-(2 : Int) ^ 47 ≤ sum) && decide (sum < (2 : Int) ^ 47)))

/-- The merged packet stands where the older of the two, `a`, stood. -/
def mergeOf (id : Nat) (me : Nat) (a b : Pkt) : Pkt :=
  let x := addOf a
  let y := addOf b
  let nai := x.2.1 || y.2.1
  let sum := if nai then 0 else x.1 + y.1
  { a with
    id := id, post := true, seen := Nat.max a.seen b.seen, ticks := Nat.max a.ticks b.ticks
    hdr := setFld (mkHdr 0 (Nat.min (hSlack a.hdr) (hSlack b.hdr)) (Nat.max (hPrio a.hdr) (hPrio b.hdr)) (hLane a.hdr) (hDest a.hdr) me
      (hAsid a.hdr) 39 0 id (hExh a.hdr || hExh b.hdr) true) 2 1 a.vc
    data := BitVec.ofNat 1024 ((sum % (2 : Int) ^ 48).toNat + b2n nai * 2 ^ 48 + (x.2.2 + y.2.2 - 1) * 2 ^ 49) }

/-- The first pair of a list that may merge, the older first. -/
def mergePair : List Pkt → Option (Pkt × Pkt)
  | [] => none
  | a :: t => ((t.find? (mergeable a)).map (fun b => (a, b))).or (mergePair t)

/-- A router may merge two packets that wait at port p: a free value says whether it does. -/
def mergeAt (s : State) (port : Nat) : State :=
  match mergePair (s.pkts.filter (fun p => decide (routeOf s p = some port))) with
  | none => s
  | some (a, b) =>
    if freeN s 0 % 2 = 0 ∨ 256 ≤ s.merges.countP (fun m => decide (m.port = port)) then bump s
    else
      let m := mergeOf s.nextId (myCoord (anyPlan s)) a b
      bump (setFport { s with
        nextId := s.nextId + 1
        merges := s.merges ++ [⟨s.nextId, port, a.hdr, b.hdr⟩]
        pkts := (s.pkts.map (fun p => if p.id = a.id then m else p)).filter (fun p => decide (p.id ≠ b.id)) } port
        (satAdd (fport s port) 40 16))

/-! ## Leaving through a port (R401 to R403) -/

/-- The flit time at which a port goes on, in the pod's count, and the number of that slot. -/
def portTime (s : State) (port : Nat) : Nat := Nat.max (tget 0 s.hub.slotAt port) s.hub.flit
def slotNo (s : State) (port : Nat) : Nat := portTime s port % 256
/-- A flit time of a port has passed. -/
def slotDone (s : State) (port : Nat) : State :=
  { s with hub := { s.hub with slotAt := tset 0 s.hub.slotAt port (tget 0 s.hub.slotAt port + 1) } }

/-- A packet or circuit flit leaves through a port: its virtual channel, the credit that it takes, and what the wire carries. -/
def sendOut (s : State) (port : Nat) (g : Pkt) : State :=
  let vc := nextVc (anyPlan s) g (port % 6)
  let g' := if hClass g.hdr = 2 then g else { g with hdr := setFld g.hdr 2 1 vc }
  let k := 4 * port + 2 * hClass g.hdr + vc
  { s with
    pkts := s.pkts.filter (fun p => decide (p.id ≠ g.id))
    wire := s.wire.filter (fun e => decide (e.1 ≠ port)) ++ [(port, g')]
    hub := if hClass g.hdr = 2 then s.hub else { s.hub with used := tset 0 s.hub.used k (tget 0 s.hub.used k + g.flits) } }

/-- A circuit flit as it goes on where no slot is for it. -/
def Pkt.exhausted (x : Pkt) : Pkt := { x with hdr := setFld (setFld (setFld (setFld x.hdr 0 3 0) 4 12 0) 3 1 1) 72 8 0 }

/-- Circuit flits that wait at a port without any slot go on as exhausted packets, once their input has room, and are counted (R402, R403). -/
def demote (s : State) (port : Nat) : State :=
  let lost := s.pkts.filter (fun p => decide (hClass p.hdr = 2) && decide (routeOf s p = some port) && !hasSlot s port p)
  lost.foldl (fun s p =>
    if hasRoom s p.exhausted then
      setFport { s with pkts := s.pkts.map (fun x => if x.id = p.id then x.exhausted else x) } port (satAdd (fport s port) 24 16)
    else s) s

/-- The circuit flit that the next slot of a port carries: one that has come by then. -/
def slotFlit (s : State) (port : Nat) : Option Pkt :=
  let t := tget 0 s.hub.slotAt port
  s.pkts.find? (fun p => decide (hClass p.hdr = 2) && decide (routeOf s p = some port) && decide (p.at_ ≤ t) &&
    slotCarries (tget 0 s.hub.slots (256 * port + t % 256)) p)

/-- n slots of a port pass, each with the circuit flit that its entry names. -/
def passSlots : Nat → Nat → State → State
  | 0, _, s => s
  | n + 1, port, s => passSlots n port (slotDone (match slotFlit s port with
    | none => s
    | some p => sendOut s port p) port)

/-- A port goes on at its time: the slots that have passed since its last one have carried the circuit flits that waited for them. -/
def slotBegin (s : State) (port : Nat) : State :=
  let t := portTime s port
  let u := if s.pkts.any (fun p => decide (hClass p.hdr = 2)) then passSlots (t - tget 0 s.hub.slotAt port) port s else s
  { u with hub := { u.hub with flit := t, slotAt := tset 0 u.hub.slotAt port t } }

/-- The slots of a port pass, each with its circuit flit, until one is free. -/
def toFree : Nat → Nat → State → State
  | 0, _, s => s
  | n + 1, port, s => match slotFlit s port with
    | none => s
    | some p => toFree n port (slotDone (sendOut s port p) port)

/-- The slots of a port pass up to and with slot k. -/
def toSlot : Nat → Nat → Nat → State → State
  | 0, _, _, s => s
  | n + 1, port, k, s =>
    let t := slotDone (match slotFlit s port with
      | none => s
      | some p => sendOut s port p) port
    if slotNo s port = k then t else toSlot n port k t

/-- n free slots of a port pass. -/
def freeSlots : Nat → Nat → State → State
  | 0, _, s => s
  | n + 1, port, s => freeSlots n port (slotDone (toFree 257 port s) port)

/-! ## Arbitration (R117, R403) -/

/-- A grant at a place to `g`: every other packet that waits for it has seen one grant more. -/
def seeGrant (s : State) (place : Nat) (g : Pkt) : State :=
  { s with pkts := s.pkts.map (fun p => if p.id ≠ g.id ∧ routeOf s p = some place then { p with seen := p.seen + 1 } else p) }

/-- The grant of a port: the packet that R117 puts first, once there is credit for it, for all of its flits. -/
def portGrant (s : State) (port : Nat) : State :=
  match grantBy Pkt.urg (contendersAt s port) with
  | none => s
  | some g => if roomTo s g (port % 6) < g.flits then s else freeSlots g.flits port (slotBegin (sendOut (seeGrant s port g) port g) port)

/-! ## Ejection (R381, R396, R407) -/

/-- A request of another package becomes a request at die d, with this package's own coordinate as its context has it. -/
def ejectReq (s : State) (d : Nat) (g : Pkt) : State :=
  let cx := (asidCtx s (hAsid g.hdr)).getD 64
  let k := hKind g.hdr
  let p := planOf s cx
  let kind : ReqKind := if k = 32 ∨ k = 34 then .load else if k = 33 ∨ k = 35 then .store else .amo
  let w := fun (i : Nat) => g.data.extractLsb' (64 * i) 64
  let h := if k = 39 then 23 else k
  let n := Nat.max 1 (Nat.min g.n (128 - g.addr.toNat % 128))
  let widths := (List.range 4).map (amoN h)
  let m := addOf g
  let r : Req :=
    { id := s.nextId, core := 512 + 128 * d, kind := kind, loc := none
      addr := setFld g.addr 48 12 (p.mx * 256 + p.my * 16 + p.mz)
      n := if kind = .amo then (if widths.contains g.n then g.n else widths.headD 8) else n
      wr := if kind = .store then bytesOf 0 n g.data.toNat else []
      h := h
      op := if k = 39 then BitVec.ofInt 64 m.1 else w 0
      op2 := if k = 39 then 1 else if k = 23 then 0 else w 1
      op3 := if k = 39 then BitVec.ofNat 64 (b2n m.2.1) else if k = 23 then 0 else w 2
      op4 := w 3, slack := hSlack g.hdr, exh := hExh g.hdr, prio := hPrio g.hdr, ctx := cx, gen := (ctx s cx).gen
      ord := g.ord, posted := k = 39 || (kind = .amo && g.post), dst := .remote g.hdr }
  { s with nextId := s.nextId + 1, reqs := s.reqs ++ [r] }

/-- The partial of a collective has reached this package: it is acknowledged. What it adds there is a free value (log entry 11). -/
def ejectPart (s : State) (g : Pkt) : State :=
  outReq s { id := 0, core := 512, kind := .store, addr := 0, loc := none, n := 0, slack := hSlack g.hdr, exh := hExh g.hdr, dst := .remote g.hdr }

/-- An own request has performed on its target, as an acknowledgement of header a says, or has failed there with f (R140, R388). -/
def ackOwn (a : BitVec 128) (f : Word) (r : Req) (s : State) : State :=
  let r := { r with exh := hExh a, slack := hSlack a }
  let s := setReq s r.id (fun _ => r)
  if f = 0 then setReq s r.id (fun r => { r with stage := .done }) else bump (failReq s r 0 (failOf f))

/-- The acknowledgement of one input of a merge, of header a, with its failure f: to an own request, to both inputs of an earlier merge here, or
on to its source. It carries the slack and EXH of the acknowledgement that has come (R388, R407). -/
def ackInput : Nat → BitVec 128 → Word → BitVec 128 → State → State
  | 0, _, _, _, s => s
  | n + 1, a, f, h, s =>
    let me := myCoord (anyPlan s)
    if hSrc h = me ∧ hKind h = 39 then
      match s.merges.find? (fun m => decide (m.id % 2 ^ 32 = hTag h)) with
      | none => s
      | some m => ackInput n a f m.b (ackInput n a f m.a { s with merges := s.merges.erase m })
    else if hSrc h = me then
      match s.reqs.find? (fun r => r.sent && decide (r.stage = .out) && decide (r.id % 2 ^ 32 = hTag h)) with
      | some r => ackOwn a f r s
      | none => s
    else
      outReq s { id := 0, core := 512, kind := .store, addr := 0, loc := none, n := 0, slack := hSlack a, exh := hExh a, op := f
                 bad := decide (f ≠ 0), dst := .remote (setFld h 20 12 me) }

/-- The copy generator counts an exhausted answer for the core of its program; a tile word has no issuing core (R119). -/
def genExh (s : State) (r : Req) (exh : Bool) : State :=
  if r.dst = .gen ∧ s.tiles.all (fun t => !t.far.contains r.id) then exhReply s (r.core % 1024) exh else s

/-- A reply or acknowledgement reaches this package: an own request has performed, or has failed on its target (R140, R388). -/
def ejectReply (s : State) (g : Pkt) : State :=
  match s.merges.find? (fun m => decide (m.id % 2 ^ 32 = hTag g.hdr)) with
  | some m =>
    let n := s.merges.length
    ackInput n g.hdr g.addr m.b (ackInput n g.hdr g.addr m.a { s with merges := s.merges.erase m })
  | none =>
    match s.reqs.find? (fun r => r.sent && decide (r.stage = .out) && decide (r.id % 2 ^ 32 = hTag g.hdr)) with
    | none => s
    | some r =>
      let r := { r with exh := hExh g.hdr, slack := hSlack g.hdr }
      let s := genExh (setReq s r.id (fun _ => r)) r r.exh
      if g.addr = 0 then served s r 0 0 g.data else bump (failReq s r 0 (failOf g.addr))

/-- The WAKE of a phase that a core of this package has completed at the home of another package: a join decrement as seen from that
core (R194). -/
def ejectWake (s : State) (g : Pkt) : State :=
  match asidCtx s (hAsid g.hdr) with
  | none => s
  | some cx =>
    let k := fld g.hdr 80 9
    wakeAt s k cx 0 (hSlack g.hdr) (hExh g.hdr) g.addr
      (fun s => reportCtx s cx { code := .framebad, prec := 1, engine := 9, addr := g.addr, acc := 3, space := spc g.addr } 0 0 0 [])

/-- A packet enters the package at die d. -/
def eject (s : State) (d : Nat) (g : Pkt) : State :=
  let k := hKind g.hdr
  let s := { s with pkts := s.pkts.filter (fun p => decide (p.id ≠ g.id)) }
  if hClass g.hdr = 1 then ejectReply s g
  else if k = 17 then ejectWake s g
  else if k = 38 then ejectPart s g
  else if (28 ≤ k ∧ k < 32) ∨ k = 36 ∨ k = 37 ∨ 39 < k then s
  else ejectReq s d g

/-- The ejection arbiter of die d; circuit flits take no part in it. -/
def ejectGrant (s : State) (d : Nat) : State :=
  match s.pkts.find? (fun p => decide (hClass p.hdr = 2) && decide (routeOf s p = some (24 + d))) with
  | some g => eject s d g
  | none => match grantBy Pkt.urg (contendersAt s (24 + d)) with
    | none => s
    | some g => eject (seeGrant s (24 + d) g) d g

/-- ARBITER_GRANT at a place. -/
def arbiterGrant (s : State) (place : Nat) : State :=
  if 28 ≤ place then homeGrant s (place - 28)
  else if 24 ≤ place then ejectGrant s (place - 24)
  else if bit (fport s place) 0 = false then s
  else portGrant (demote (mergeAt (inject s (place / 6)) place) place) place

/-- PACKET_ARRIVAL: a packet begins to wait. Place 28: a request of this package, by its TAG, at its home. Else place p + 32 n + 2^13 post + 2^14
ord: a packet from the neighbour beyond port p, on its lane, with n bytes of access (8 where n is zero). Nothing comes over a port of a dimension
of size 1, over an untrained port, in the reserved class, or without room at its input (R395, R396, R403). -/
def packetArrival (s : State) (place : Nat) (hdr : BitVec 128) (addr : Word) (data : Line) : State :=
  let port := place % 32
  if port = 28 then homeArrive s (hTag hdr)
  else
    let n := place / 32 % 256
    let p : Pkt :=
      { id := s.nextId, die := port / 6, inp := port % 6, n := if n = 0 then 8 else Nat.min n 128, post := place.testBit 13, ord := place.testBit 14
        hdr := hdr, addr := addr, data := data }
    if 24 ≤ port ∨ bit (fport s port) 0 = false ∨ hLane hdr ≠ port / 6 ∨ hClass hdr = 3 ∨ (anyPlan s).size (port % 6 / 2) ≤ 1 ∨ hasRoom s p = false then s
    else takeIn { s with nextId := s.nextId + 1 } p

/-- CIRCUIT_SLOT: the slots of a port pass up to slot k, each with the flit that its entry names. -/
def circuitSlot (s : State) (port k : Nat) : State :=
  if 24 ≤ port ∨ bit (fport s port) 0 = false then s
  else toSlot 256 port (k % 256) (slotBegin (demote (inject s (port / 6)) port) port)

/-! ## Slack (R114) -/

/-- One tick of a waiting packet. -/
def slackDown (slack : Nat) (exh : Bool) : Nat × Bool := if slack = 0 then (0, true) else (slack - 1, exh)

/-- A request waits in a queue: held in the egress, at the injection of its lane, or at its home; or its reply or a WAKE waits for injection. -/
def waitsQ (s : State) (r : Req) : Bool :=
  !r.sent && (match r.stage with
    | .out => !canGo s r || (r.arr.isSome && !r.go)
    | .done => match r.dst with
      | .remote _ => true
      | .wake _ => true
      | _ => false)

/-- A request on its way to a home of this package, or its reply on the way back, may wait at a router or a ring stop. -/
def underWay (s : State) (r : Req) : Bool :=
  !r.sent && (match r.stage with
    | .out => canGo s r && r.arr.isNone
    | .done => match r.dst with
      | .remote _ => false
      | .wake _ => false
      | _ => true)

/-- A packet lacks credit for the output it waits for (R397). -/
def lacksCredit (s : State) (p : Pkt) : Bool :=
  match routeOf s p with
  | some o => decide (o < 24) && decide (roomTo s p (o % 6) < p.flits)
  | none => false

/-- Watched lines whose change is 255 ticks old are read again (R360, R410). -/
def overdue (s : State) : State :=
  ((s.hub.dirty.filter (fun e => decide (e.2 + 255 ≤ s.hub.ticks))).map (·.1)).foldl reread s

/-- SLACK_TICK: every waiting packet and request loses a tick of slack, and what is under way in the package does where a free value says that it
waits (R114, R119); neighbours have freed any number of their flits. -/
def slackTick (s : State) : State :=
  overdue <| bump { s with
    hub := { s.hub with
      ticks := s.hub.ticks + 1
      used := s.hub.used.foldl (fun t e => tset 0 t e.1 (freeN s e.1 % (e.2 + 1))) s.hub.used }
    pkts := s.pkts.map (fun p =>
      let x := slackDown (hSlack p.hdr) (hExh p.hdr)
      if hClass p.hdr = 2 then p
      else { p with hdr := setFld (setFld p.hdr 4 12 x.1) 3 1 (b2n x.2), ticks := if lacksCredit s p then p.ticks + 1 else p.ticks })
    reqs := s.reqs.map (fun r =>
      let x := slackDown r.slack r.exh
      if waitsQ s r then { r with slack := x.1, exh := x.2 }
      else if underWay s r then
        let w := freeN s (2 ^ 91 + r.id) % 2
        { r with slack := if w = 0 then r.slack else x.1, exh := if w = 0 then r.exh else x.2 }
      else r)
    comps := s.comps.map (fun c =>
      let x := slackDown c.slack c.exh
      let w := freeN s (2 ^ 92 + c.id) % 2
      { c with slack := if w = 0 then c.slack else x.1, exh := if w = 0 then c.exh else x.2 }) }

/-! ## TLBs (R379, R382, R383) -/

/-- The page and the TLB that a move names: page number in [31:0], place above (core k, 1024 + cluster n). -/
def tlbVa (page : Nat) : Nat := page % 2 ^ 32 * 65536
def tlbPlace (page : Nat) : Nat := page / 2 ^ 32

/-- An entry comes into its TLB: a full one, of 64 or 4,096 entries, drops its oldest (R382). -/
def tlbPut (s : State) (e : TlbEnt) : State :=
  let full := decide ((if e.place < 512 then 64 else 4096) ≤ s.tlb.countP (fun x => decide (x.place = e.place)))
  { s with tlb := (if full then s.tlb.eraseP (fun x => decide (x.place = e.place)) else s.tlb) ++ [e] }

/-- The entry that a walk with result x makes in a TLB: 2 MiB for a group that holds its declaration (R379). In a group that breaks it a free
value says which entry's translation the page gets: its own, or the one that another implies. -/
def tlbEntry (s : State) (place cx va : Nat) (x : Xl) : TlbEnt :=
  let root := ctxD s cx 5
  let big := contHolds s root va x
  let own : TlbEnt :=
    { place := place, ctx := cx, gen := (ctx s cx).gen, asid := BitVec.ofNat 16 (fld (ctxD s cx 0) 0 16), va := va / x.size * x.size
      size := x.size, pa := x.pa, r := x.r, w := x.w, cow := x.cow }
  if big then { own with va := va / 2 ^ 21 * 2 ^ 21, size := 2 ^ 21, pa := x.pa - va / 65536 % 32 * 65536 }
  else if decide (x.size = 65536) && bit (l1Entry s root va) 5 then
    let i := va / 65536 % 32
    let j := freeN s 0 % 32
    let vj := va / 2 ^ 21 * 2 ^ 21 + 65536 * j
    match walk s root vj with
    | .ok y =>
      if bit (l1Entry s root vj) 5 ∧ 65536 * j ≤ y.pa + 65536 * i ∧ paOk (y.pa + 65536 * i - 65536 * j) then
        { own with pa := y.pa + 65536 * i - 65536 * j, r := y.r, w := y.w, cow := y.cow }
      else own
    | .error _ => own
  else own

/-- A TLB takes the translation of a page: that of its cluster's TLB, else a walk's; a failed walk is not kept. -/
def tlbFill (s : State) (place cx va : Nat) : State :=
  if (tlbIn s place cx va).isSome then s
  else match tlbFind s place cx va with
  | some e => tlbPut s { e with place := place }
  | none => match walk s (ctxD s cx 5) va with
    | .error _ => s
    | .ok x => bump (tlbPut s (tlbEntry s place cx va x))

/-- PAGE_WALK_COMPLETE: a walk for a core fills its cluster's TLB and its own; a walk for a cluster fills the cluster's. -/
def walkComplete (s : State) (cx page : Nat) : State :=
  let p := tlbPlace page
  if ctxValid s cx = false then s
  else if p < 512 then tlbFill (tlbFill s (cluTlb (cluOf p)) cx (tlbVa page)) p cx (tlbVa page)
  else if 1024 ≤ p ∧ p < 1088 then tlbFill s p cx (tlbVa page)
  else s

/-- TLB_DROP: a TLB drops the entries that cover a page. -/
def tlbDrop (s : State) (cx page : Nat) : State :=
  let va := tlbVa page
  { s with tlb := s.tlb.filter (fun e =>
      !(decide (e.place = tlbPlace page) && decide (e.ctx = cx) && decide (e.va ≤ va) && decide (va < e.va + e.size))) }

/-! ## Meanings -/

def execPacketArrival (place : Nat) (hdr : BitVec 128) (addr : BitVec 64) (data : BitVec 1024) (s : State) :
    Host.Outcome State Fault Refusal := .next (packetArrival s place hdr addr data)
def execArbiterGrant (place : Nat) (s : State) : Host.Outcome State Fault Refusal := .next (arbiterGrant s place)
def execCircuitSlot (port slot : Nat) (s : State) : Host.Outcome State Fault Refusal := .next (circuitSlot s port slot)
def execSlackTick (s : State) : Host.Outcome State Fault Refusal := .next (slackTick s)
def execPageWalkComplete (ctx page : Nat) (s : State) : Host.Outcome State Fault Refusal := .next (walkComplete s ctx page)
def execTlbDrop (ctx page : Nat) (s : State) : Host.Outcome State Fault Refusal := .next (tlbDrop s ctx page)

end Sys2Proof.Machine
end

