-- ==== Sys2Proof/Machine/Preempt.lean ====
section
/-! DEFINITION. The state commands that take cores from their tasks: pre-emption, context switch, the job-wide stop and what releases it
(R365, R370 to R375). -/
namespace Sys2Proof.Machine

/-! ## Requests (R365, Table 5 of chapter 16) -/

/-- A request reaches a core: a running task of context n finishes, arms or ends; an idle core is held; a stopped task is held, and
written back when `back` is set (R389, R394). -/
def askCore (n : Nat) (back : Bool) (c : Core) : Core :=
  match c.run with
  | .idle => { c with pre := .held }
  | .ending => { c with pre := .finishing }
  | .stopped => if c.ctx = n ∧ c.pre ≠ .saving then { c with pre := if back then .taking else .held } else c
  | .running => if c.ctx = n ∧ c.pre = .none then { c with pre := if c.trec.preempt then .armed else .finishing } else c

/-- The cores of a list of global clusters. -/
def coresOf (cl : List Nat) : List Nat := (cl.map (fun c => (List.range 8).map (8 * c + ·))).flatten

def askAll (s : State) (n : Nat) (back : Bool) (ks : List Nat) : State := ks.foldl (fun s k => modCore s k (askCore n back)) s

/-- A core is held (R365, R389). -/
def isHeld (c : Core) : Bool := (decide (c.run = .idle) && decide (c.pre = .held)) || decide (c.run = .stopped)
/-- A core is held with its task written back. -/
def isAway (c : Core) : Bool := decide (c.run = .idle) && decide (c.pre = .held)

/-- Clusters of PREEMPT, and of SWOUT and SWIN. -/
def preemptClus (m : Cmd) : List Nat := maskClus (fld m.op0 8 2) (fld m.op1 0 16)
def switchClus (o : Word) : List Nat := maskClus (fld o 8 2) (fld o 16 16)

def preemptBegin (s : State) (a b c : Word) : Except Code (State × List Nat) :=
  if extra a 0x33F ∨ extra b 0xFFFF ∨ extra c 0xFFFFFFFF then .error .cmdbad
  else .ok (askAll s (fld a 0 6) false (coresOf (maskClus (fld a 8 2) (fld b 0 16))), [])

/-- PREEMPT: it begins; or, in progress, it ends once every named core is held, or one has found no save block. -/
def preempt (s : State) (q : Nat) : State :=
  match cmdRun s q 7 with
  | none => cmdStart s q 7 anyRec preemptBegin
  | some m =>
    if m.phase = phaseFull then endRun s m 1 (some .savefull)
    else if (coresOf (preemptClus m)).all (fun k => isHeld (core s k)) then endRun s m 0 none
    else s

/-! ## SWOUT (R370, R371) -/

/-- R370: a ring that is enabled has 40 free entries. -/
def ringRoom (g : Ring) : Bool := decide (g.cap = 0) || decide (g.cnt + 40 ≤ g.cap)

def swoutBegin (s : State) (a b c : Word) : Except Code (State × List Nat) :=
  let n := fld a 0 6
  let cl := switchClus a
  if extra a 0xFFFF033F ∨ physBad b 1 ∨ extra c 0xFFFFFFFF then .error .cmdbad
  else if cl.any (fun e => !bit (ctxD s n 9) e) then .error .ctxbad
  else if cl.any (fun e => (List.range 4).any (fun q => !ringRoom (ringOf (clu s e) q))) then .error .qroom
  else
    let s := cl.foldl (fun s e => setClu s e { clu s e with noDisp := true }) s
    .ok (askAll s n true (coresOf cl), [])

/-- A frame of a context lies in one of the clusters. -/
def frameIn (cl : List Nat) (d : Nat) (f : Word) : Bool := cl.contains (16 * d + frClu f)

/-- A completion, copy, tile word or WAKE aimed at a frame in the clusters is in flight (R371 step 3). -/
def aimed (s : State) (n : Nat) (cl : List Nat) : Bool :=
  s.comps.any (fun c => decide (c.ctx = n) && frameIn cl c.die c.frame) ||
    s.reqs.any (fun r => match r.dst with
      | .slot _ _ f => decide (r.ctx = n) && frameIn cl (dieOf r.core) f
      | _ => false) ||
    s.tiles.any (fun t => match t.src with
      | .tpost _ f => decide (t.ctx = n) && frameIn cl (dieOf t.core) f
      | _ => false) ||
    s.pkts.any (fun p => decide (hKind p.hdr = 17) && decide (hDest p.hdr = myCoord (anyPlan s)) && decide (asidCtx s (hAsid p.hdr) = some n) &&
      (let k := fld p.hdr 80 9; frameIn cl (dieOf k) (frameCanon k p.addr))) ||
    s.cores.any (fun e =>
      let hit := fun (p : CopyProg) => decide (p.ctx = n) && decide (pf p.f 4 ≠ 0) && frameIn cl (dieOf e.1) (frameCanon e.1 (pf p.f 4))
      e.2.ch.any (fun x => x.2.live.any hit || x.2.pend.any hit))

/-- Step 4 for one queue: its entries from tail to head, each below the spill head; `none` where the ring cannot take them. -/
def spillBack (s : State) (n c q : Nat) : Option (State × Option WFail) :=
  let m := clu s c
  let g := ringOf m q
  let l := rqOf m q
  if l = [] then some (s, none)
  else if g.cap = 0 ∨ g.cap < g.cnt + l.length then none
  else
    let h := (fld g.head 0 32 + 2 ^ 32 - l.length) % 2 ^ 32
    let locs := (List.range l.length).map (fun i => ringEnt s n c g (h + i) true)
    match locs.findSome? (fun r => match r with
      | .error f => some f
      | .ok _ => none) with
    | some f => some (s, some f)
    | none =>
      let s := (l.zip locs).foldl (fun t e => match e.2 with
        | .ok a => wrRec t a e.1
        | .error _ => t) s
      some (setClu s c { clu s c with rq := tset [] (clu s c).rq q [], ring := tset {} (clu s c).ring q { g with head := BitVec.ofNat 64 h } },
        none)

/-- Bytes copied from one range to another. -/
def copyMem (m : List Host.Cell) (src dst n : Nat) : List Host.Cell :=
  let out := m.filter (fun e => !(decide (dst ≤ e.1) && decide (e.1 < dst + n)))
  (m.filter (fun e => decide (src ≤ e.1) && decide (e.1 < src + n))).foldl (fun t e => tset (0 : Byte) t (dst + (e.1 - src)) e.2) out

/-- The MEM bytes of a switch image: offset from its byte 256, location, length (Table 7 of chapter 16, R86). -/
def imageParts (s : State) (n c : Nat) : List (Nat × Nat × Nat) :=
  let d := ctxD s n
  let sp := fld (d 6) 6 6 * 65536
  let cw := fld (d 7) 8 9 * 65536
  (List.range 8).map (fun k => (k * sp, spLoc (8 * c + k) (fld (d 6) 0 5 * 65536), sp)) ++
    (List.range (cw / 128)).map (fun i => (8 * sp + 128 * i, winLoc (c / 16) (c % 16) (fld (d 7) 0 8 * 65536 + 128 * i), 128))

/-- Bytes of one cluster in a switch image. -/
def imageSize (s : State) (n : Nat) : Nat := 256 + 8 * (fld (ctxD s n 6) 6 6 * 65536) + fld (ctxD s n 7) 8 9 * 65536

/-- The reasons for which queues of a cluster are frozen, but for stopped tasks that have been written back: those freeze their queues again at
SWIN of themselves. -/
def keptFrz (s : State) (n c : Nat) : List Nat :=
  ((ctx s n).wbStop.filter (fun w => decide (w.1 = c))).foldl (fun l w => l.erase (rdRec s (frLoc (c / 16) w.2)).qid) (clu s c).frz

/-- Steps 5 and 6 for one cluster: the image, the release, CLSW; frozen queues stay frozen (R37). -/
def swoutOne (n : Nat) (s : State) (e : Nat × Nat) : State :=
  let m := evView { s with ccy := s.ccy + 1 } (clu s e.1)
  let kept := (keptFrz s n e.1).map (fun q => (e.1, q))
  let s1 := { s with mem := (imageParts s n e.1).foldl (fun t p => copyMem t p.2.1 (e.2 + 256 + p.1) p.2.2) s.mem }
  let s2 := (List.range 8).foldl (fun t w => wr t (e.2 + 4 * w) 4 (tget 0 m.ev w).toNat) s1
  let s3 := (List.range 4).foldl (fun t q =>
    let g := ringOf m q
    wrWords t (e.2 + 32 + 32 * q) [g.base, g.size, g.head, g.tail]) s2
  let s4 := wr s3 (e.2 + 160) 96 0
  let s5 := setOwn (releaseOne n s4 e.1) n 28 e.1 true
  setCtx s5 n { ctx s5 n with sw := tset 0 (ctx s5 n).sw e.1 (e.2 + 1), swFrz := kept ++ (ctx s5 n).swFrz }

/-- Step 4 for a list of queues: the state; QROOM; or a ring that fails in translation. -/
def spillAll (n : Nat) : List (Nat × Nat) → State → Except (Option (Nat × Nat × WFail)) State
  | [], s => .ok s
  | (c, q) :: t, s => match spillBack s n c q with
    | none => .error none
    | some (_, some f) => .error (some (c, q, f))
    | some (s, none) => spillAll n t s

/-- A queue whose entries its ring cannot take, before any entry has been written back (R370). -/
def spillStuck (s : State) (l : List (Nat × Nat)) : Bool :=
  l.any (fun e =>
    let g := ringOf (clu s e.1) e.2
    let k := (rqOf (clu s e.1) e.2).length
    decide (k ≠ 0) && (decide (g.cap = 0) || decide (g.cap < g.cnt + k)))

/-- SWOUT's steps 4 to 6 once its cores are held and nothing is in flight. -/
def swoutEnd (s : State) (m : Cmd) : State :=
  let n := fld m.op0 0 6
  let cl := switchClus m.op0
  let qs := (cl.map (fun c => [3, 2, 1, 0].map (fun q => (c, q)))).flatten
  if spillStuck s qs then endRun s m 1 (some .qroom)
  else match spillAll n qs s with
  | .error none => endRun s m 1 (some .qroom)
  | .error (some (c, q, f)) =>
    let i : FaultInfo := { code := .qspflt, prec := 2, engine := 10, addr := (ringOf (clu s c) q).base, acc := 1, wlvl := f.lvl }
    endRun (freezeQ (reportCtx s n i 0 0 q []) c q) m 1 (some .qspflt)
  | .ok t =>
    let z := imageSize s n
    endRun (cl.zipIdx.foldl (fun s e => swoutOne n s (e.1, m.op1.toNat + z * e.2)) t) m 0 none

/-- SWOUT: it begins; or goes on once every core of the clusters is held and nothing is in flight. -/
def swout (s : State) (q : Nat) : State :=
  match cmdRun s q 8 with
  | none => cmdStart s q 8 anyRec swoutBegin
  | some m =>
    let cl := switchClus m.op0
    if m.phase = phaseFull then endRun s m 1 (some .savefull)
    else if (coresOf cl).all (fun k => isAway (core s k)) ∧ aimed s (fld m.op0 0 6) cl = false then bump (swoutEnd s m)
    else s

/-! ## SWIN (R373) -/

/-- MEM and then EVENTS come back; frozen queues are frozen again, those of tasks written back while they were stopped among them. -/
def swinOne (n : Nat) (s : State) (e : Nat × Nat) : State :=
  let s := assignOne n s (e.1, e.2 + 32)
  let s := { s with mem := (imageParts s n e.1).foldl (fun t p => copyMem t (e.2 + 256 + p.1) p.2.1 p.2.2) s.mem }
  let ev := (List.range 8).foldl (fun t w => tset 0 t w (BitVec.ofNat 32 (rd s (e.2 + 4 * w) 4))) []
  let s := setClu s e.1 { clu s e.1 with ev := ev, frz := (((ctx s n).swFrz.filter (fun w => decide (w.1 = e.1))).map (·.2)) ++ (clu s e.1).frz }
  let s := setOwn s n 28 e.1 false
  let s := setCtx s n { ctx s n with
    sw := tset 0 (ctx s n).sw e.1 0
    swFrz := (ctx s n).swFrz.filter (fun w => decide (w.1 ≠ e.1)) }
  ((ctx s n).wbStop.filter (fun w => decide (w.1 = e.1))).foldl (fun s w => freezeQ s e.1 (rdRec s (frLoc (e.1 / 16) w.2)).qid) s

/-- The whole of SWIN: checks of R373 and R344, then each cluster in turn. -/
def swin (s : State) (a b c : Word) : Except Code State :=
  let n := fld a 0 6
  if extra a 0xFFFF033F ∨ physBad b 1 ∨ c ≠ 0 then .error .cmdbad
  else
    let z := imageSize s n
    let cl := (switchClus a).zipIdx.map (fun e => (e.1, b.toNat + z * e.2))
    if cl.any (fun e => !bit (ctxD s n 28) e.1) then .error .ctxbad
    else match assignFail s n (cl.map (fun e => (e.1, e.2 + 32))) with
    | some e => .error e
    | none => .ok (cl.foldl (swinOne n) s)

/-! ## STOP and its fall-back (R374, R375) -/

/-- The clusters that a context owns. -/
def ownClus (s : State) (n : Nat) : List Nat := (List.range 64).filter (fun c => bit (ctxD s n 9) c)

def stopBegin (s : State) (a b c : Word) : Except Code (State × List Nat) :=
  let n := fld a 0 6
  if extra a 0x3F ∨ b ≠ 0 ∨ extra c 0xFFFFFFFF then .error .cmdbad
  else .ok (askAll (setCtx s n { ctx s n with stopped := true }) n true (coresOf (ownClus s n)), [])

/-- A word of the context has started and not completed. -/
def wordRuns (s : State) (n : Nat) : Bool :=
  s.tiles.any (fun t => decide (t.ctx = n) && (match t.stage with
    | .posted => false
    | .accepted => false
    | _ => true))

/-- The cores of a context that have not yet given up their tasks. -/
def stillOn (s : State) (n : Nat) : List Nat := (coresOf (ownClus s n)).filter (fun k => !isAway (core s k))

def stepCount (c : Core) : Nat := fld c.stepno 0 32
/-- The greatest STEPNO.COUNT among cores stopped at a step (R375). -/
def stepMax (s : State) (ks : List Nat) : Nat := ((ks.filter (fun k => (core s k).atStep)).map (fun k => stepCount (core s k))).foldl Nat.max 0

/-- The cores that the fall-back concerns: running tasks that are not being written back. -/
def stepCores (s : State) (n : Nat) : List Nat :=
  (stillOn s n).filter (fun k => decide ((core s k).run = .running) && decide ((core s k).pre ≠ .taking) && decide ((core s k).pre ≠ .saving))

/-- One round of the fall-back: cores behind run on; when all agree, each is written back. -/
def stepRound (s : State) (n : Nat) : State :=
  let ks := stepCores s n
  let m := stepMax s ks
  if ks.all (fun k => (core s k).atStep && decide (stepCount (core s k) = m)) then
    ks.foldl (fun s k => modCore s k (fun c => { c with pre := .taking })) s
  else
    ks.foldl (fun s k => modCore s k (fun c => if c.atStep && decide (stepCount c < m) then { c with atStep := false } else c)) s

/-- STOP: it begins; in the fall-back it looks at the step counts; it ends once no word runs and every core is held. -/
def stop (s : State) (q : Nat) : State :=
  match cmdRun s q 0xA with
  | none => cmdStart s q 0xA anyRec stopBegin
  | some m =>
    let n := fld m.op0 0 6
    if m.phase = phaseFull then endRun s m 1 (some .savefull)
    else if stillOn s n = [] ∧ wordRuns s n = false then endRun s m 0 none
    else if m.phase = 1 then stepRound s n
    else s

/-- STOP_FALLBACK: at the first limit running cores are to stop at their next `step`; at the second the command fails. -/
def stopFallback (s : State) (q : Nat) : State :=
  match cmdRun s q 0xA with
  | none => s
  | some m =>
    let n := fld m.op0 0 6
    let ks := stepCores s n
    if m.phase = 0 then
      let s := setCmd s m (fun m => { m with phase := 1 })
      ks.foldl (fun s k => modCore s k (fun c => { c with stepStop := true })) s
    else if m.phase = 1 then
      let x := stepMax s ks
      let off := ks.filter (fun k => !((core s k).atStep && decide (stepCount (core s k) = x)))
      endRun (journal s 8 Code.stopfail.num q n 0 (BitVec.ofNat 64 (off.headD 0))) m 1 (some .stopfail)
    else s

/-! ## RESUME (R365, R374) -/

/-- A core is released. -/
def release (c : Core) : Core :=
  let c := if c.pre = .none then c else clearPre c
  { c with stepStop := false, atStep := false }

/-- The cores that RESUME releases: those of the context's clusters and those that run its tasks. -/
def resumeCores (s : State) (n : Nat) : List Nat :=
  (coresOf (ownClus s n) ++ (s.cores.filter (fun e => decide (e.2.ctx = n) && decide (e.2.run ≠ .idle))).map (·.1)).dedup

def releaseAll (s : State) (n : Nat) : State :=
  let s := (resumeCores s n).foldl (fun s k => modCore s k release) s
  let s := (ownClus s n).foldl (fun s c => setClu s c { clu s c with noDisp := false }) s
  setCtx s n { ctx s n with stopped := false }

def resume (s : State) (a b c : Word) : Except Code State :=
  if extra a 0x3F ∨ extra b 1 ∨ c ≠ 0 then .error .cmdbad else .ok (releaseAll s (fld a 0 6))

/-- A live record of an interrupted launch is discarded: it leaves its queue, its frame and its save block (R374, R392). -/
def abortRec (n : Nat) (s : State) (e : Nat × Word) : State :=
  let a := slotAt s n e.1 e.2
  let r := rdRec s a
  let s := if r.kind = 4 then s else mapQueue s n e.1 r.qid (fun x => if x.w1 = e.2 then none else some x)
  let x := ctx s n
  let s := setCtx s n { x with
    saveUsed := if r.kind = 2 then x.saveUsed.erase (r.saveix - 1) else x.saveUsed
    wbStop := x.wbStop.filter (· ≠ e)
    wbLost := x.wbLost.filter (· ≠ e) }
  wr s a 8 (r.setKind 4).w0.toNat

/-- The reasons for which stopped tasks that are not discarded keep queues of cluster c frozen (R389). -/
def heldFrz (s : State) (n c : Nat) : List Nat :=
  ((ctx s n).wbStop.filter (fun w => decide (w.1 = c))).map (fun w => (rdRec s (slotAt s n c w.2)).qid) ++
    (s.cores.filter (fun e => decide (e.2.run = .stopped) && decide (e.2.ctx = n) && decide (homeClu e.1 e.2.trec.w1 = c))).map (fun e => e.2.trec.qid)

/-- The records of an interrupted launch leave queues, frames and cores; its words and arrivals are dropped (R374). -/
def abortLaunch (s : State) (l : Launch) : State :=
  let ks := (s.cores.filter (fun e => decide (e.2.ltag = l.tag) && decide (e.2.run ≠ .idle))).map (·.1)
  let s := ks.foldl discardCore s
  let s := l.recs.foldl (abortRec l.ctx) s
  let mine := fun (t : BitVec 16) => decide (t = l.tag)
  { s with
    tiles := s.tiles.filter (fun t => !(mine t.ltag && (decide (t.stage = .posted) || decide (t.stage = .accepted))))
    comps := s.comps.filter (fun c => !(mine c.ltag && (match c.what with
      | .gbar _ _ _ => true
      | _ => false)))
    hub := { s.hub with launches := s.hub.launches.map (fun k =>
      if k.tag = l.tag then
        { k with recs := [], stopped := true, word := if s.tiles.any (fun t => decide (some t.id = k.word) && decide (t.stage = .accepted))
            then none else k.word }
      else k) } }

/-- RESUME with ABORT: the freezes of R37 and R46 end (log entry 26), those of stopped tasks of launches that have ended stay. -/
def resumeAbort (s : State) (a b c : Word) : Except Code State :=
  if extra a 0x3F ∨ extra b 1 ∨ c ≠ 0 then .error .cmdbad
  else
    let n := fld a 0 6
    let s := (s.hub.launches.filter (fun l => decide (l.ctx = n))).foldl abortLaunch s
    let s := (ownClus s n).foldl (fun s c => setClu s c { clu s c with frz := heldFrz s n c }) s
    .ok (releaseAll (setCtx s n { ctx s n with swFrz := [] }) n)

/-- COMMAND_LIMIT_EXPIRY: PREEMPT or SWOUT ends with TIMEOUT; its requests stay pending until RESUME. -/
def limitExpiry (s : State) (q : Nat) : State :=
  match s.hub.cmds.find? (fun m => decide (m.q = q) && (decide (m.cmd = 7) || decide (m.cmd = 8))) with
  | some m => endRun s m 1 (some .timeout)
  | none => s

/-! ## Meanings -/

def execPreempt (q : Nat) (s : State) : Host.Outcome State Fault Refusal := .next (preempt s q)
def execCommandLimitExpiry (q : Nat) (s : State) : Host.Outcome State Fault Refusal := .next (limitExpiry s q)
def execSwout (q : Nat) (s : State) : Host.Outcome State Fault Refusal := .next (swout s q)
def execSwin (q : Nat) (s : State) : Host.Outcome State Fault Refusal := .next (cmdNow s q 9 anyRec swin)
def execStop (q : Nat) (s : State) : Host.Outcome State Fault Refusal := .next (stop s q)
def execStopFallback (q : Nat) (s : State) : Host.Outcome State Fault Refusal := .next (stopFallback s q)
def execResume (q : Nat) (s : State) : Host.Outcome State Fault Refusal :=
  .next (cmdNow s q 0xB (fun r => !bit (op1 r) 0) resume)
def execResumeAbort (q : Nat) (s : State) : Host.Outcome State Fault Refusal :=
  .next (cmdNow s q 0xB (fun r => bit (op1 r) 0) resumeAbort)

end Sys2Proof.Machine
end

