-- ==== Sys2Proof/Machine/Dispatch.lean ====
section
/-! DEFINITION. The meaning of every instruction and of every step of another agent: one arm each. -/
namespace Sys2Proof.Machine

/-- One instruction, or one step of an agent, in a state. -/
def exec (i : Instr) (s : State) : Host.Outcome State Fault Refusal :=
  match i with
  | .nop => Sys2Proof.Machine.execNop s
  | .br o g => Sys2Proof.Machine.execBr o g s
  | .brp a c o g => Sys2Proof.Machine.execBrp a c o g s
  | .call o g => Sys2Proof.Machine.execCall o g s
  | .ret g => Sys2Proof.Machine.execRet g s
  | .jr a g => Sys2Proof.Machine.execJr a g s
  | .callX a g => Sys2Proof.Machine.execCallX a g s
  | .loop a l g => Sys2Proof.Machine.execLoop a l g s
  | .loope sc a l g => Sys2Proof.Machine.execLoope sc a l g s
  | .lpstage g => Sys2Proof.Machine.execLpstage g s
  | .step im g => Sys2Proof.Machine.execStep im g s
  | .exit g => Sys2Proof.Machine.execExit g s
  | .cont o g => Sys2Proof.Machine.execCont o g s
  | .setlt t im g => Sys2Proof.Machine.execSetlt t im g s
  | .setltX t a g => Sys2Proof.Machine.execSetltX t a g s
  | .evwait d a b w g => Sys2Proof.Machine.execEvwait d a b w g s
  | .evwaitEnd k => Sys2Proof.Machine.execEvwaitEnd k s
  | .boundedWaitLimit k => Sys2Proof.Machine.execBoundedWaitLimit k s
  | .trap im g => Sys2Proof.Machine.execTrap im g s
  | .sysc im g => Sys2Proof.Machine.execSysc im g s
  | .null k => Sys2Proof.Machine.execNull k s
  | .ctxinfo k => Sys2Proof.Machine.execCtxinfo k s
  | .objfree k => Sys2Proof.Machine.execObjfree k s
  | .svicall k => Sys2Proof.Machine.execSvicall k s
  | .bkpt im g => Sys2Proof.Machine.execBkpt im g s
  | .emret g => Sys2Proof.Machine.execEmret g s
  | .icinv sc g => Sys2Proof.Machine.execIcinv sc g s
  | .publish c a b g => Sys2Proof.Machine.execPublish c a b g s
  | .publishValidation id => Sys2Proof.Machine.execPublishValidation id s
  | .csrr d r g => Sys2Proof.Machine.execCsrr d r g s
  | .csrw a r g => Sys2Proof.Machine.execCsrw a r g s
  | .csrs a r g => Sys2Proof.Machine.execCsrs a r g s
  | .csrc a r g => Sys2Proof.Machine.execCsrc a r g s
  | .csrwI im r g => Sys2Proof.Machine.execCsrwI im r g s
  | .csrsI im r g => Sys2Proof.Machine.execCsrsI im r g s
  | .csrcI im r g => Sys2Proof.Machine.execCsrcI im r g s
  | .add d a b g => Sys2Proof.Machine.execAdd d a b g s
  | .sub d a b g => Sys2Proof.Machine.execSub d a b g s
  | .addi d a im g => Sys2Proof.Machine.execAddi d a im g s
  | .and d a b g => Sys2Proof.Machine.execAnd d a b g s
  | .or d a b g => Sys2Proof.Machine.execOr d a b g s
  | .xor d a b g => Sys2Proof.Machine.execXor d a b g s
  | .andi d a im g => Sys2Proof.Machine.execAndi d a im g s
  | .ori d a im g => Sys2Proof.Machine.execOri d a im g s
  | .xori d a im g => Sys2Proof.Machine.execXori d a im g s
  | .sll d a b g => Sys2Proof.Machine.execSll d a b g s
  | .srl d a b g => Sys2Proof.Machine.execSrl d a b g s
  | .sra d a b g => Sys2Proof.Machine.execSra d a b g s
  | .slli d a im g => Sys2Proof.Machine.execSlli d a im g s
  | .srli d a im g => Sys2Proof.Machine.execSrli d a im g s
  | .srai d a im g => Sys2Proof.Machine.execSrai d a im g s
  | .li d im g => Sys2Proof.Machine.execLi d im g s
  | .lih d im g => Sys2Proof.Machine.execLih d im g s
  | .mul d a b g => Sys2Proof.Machine.execMul d a b g s
  | .mulh d a b g => Sys2Proof.Machine.execMulh d a b g s
  | .mulhu d a b g => Sys2Proof.Machine.execMulhu d a b g s
  | .mulhsu d a b g => Sys2Proof.Machine.execMulhsu d a b g s
  | .div d a b g => Sys2Proof.Machine.execDiv d a b g s
  | .divu d a b g => Sys2Proof.Machine.execDivu d a b g s
  | .rem d a b g => Sys2Proof.Machine.execRem d a b g s
  | .remu d a b g => Sys2Proof.Machine.execRemu d a b g s
  | .min d a b g => Sys2Proof.Machine.execMin d a b g s
  | .max d a b g => Sys2Proof.Machine.execMax d a b g s
  | .minu d a b g => Sys2Proof.Machine.execMinu d a b g s
  | .maxu d a b g => Sys2Proof.Machine.execMaxu d a b g s
  | .clz d a g => Sys2Proof.Machine.execClz d a g s
  | .ctz d a g => Sys2Proof.Machine.execCtz d a g s
  | .popc d a g => Sys2Proof.Machine.execPopc d a g s
  | .sext d a im g => Sys2Proof.Machine.execSext d a im g s
  | .zext d a im g => Sys2Proof.Machine.execZext d a im g s
  | .cmp d a b c g => Sys2Proof.Machine.execCmp d a b c g s
  | .cmpi d a im c g => Sys2Proof.Machine.execCmpi d a im c g s
  | .pand d a b g => Sys2Proof.Machine.execPand d a b g s
  | .por d a b g => Sys2Proof.Machine.execPor d a b g s
  | .pxor d a b g => Sys2Proof.Machine.execPxor d a b g s
  | .pandn d a b g => Sys2Proof.Machine.execPandn d a b g s
  | .sel d a b f g => Sys2Proof.Machine.execSel d a b f g s
  | .mov d a g => Sys2Proof.Machine.execMov d a g s
  | .movFromPall d g => Sys2Proof.Machine.execMovFromPall d g s
  | .movToPall a g => Sys2Proof.Machine.execMovToPall a g s
  | .adds d a b f g => Sys2Proof.Machine.execAdds d a b f g s
  | .subs d a b f g => Sys2Proof.Machine.execSubs d a b f g s
  | .bfx d a b g => Sys2Proof.Machine.execBfx d a b g s
  | .bfxu d a b g => Sys2Proof.Machine.execBfxu d a b g s
  | .bfi d a b g => Sys2Proof.Machine.execBfi d a b g s
  | .ldb d a t o g => Sys2Proof.Machine.execLdb d a t o g s
  | .ldbu d a t o g => Sys2Proof.Machine.execLdbu d a t o g s
  | .ldh d a t o g => Sys2Proof.Machine.execLdh d a t o g s
  | .ldhu d a t o g => Sys2Proof.Machine.execLdhu d a t o g s
  | .ldw d a t o g => Sys2Proof.Machine.execLdw d a t o g s
  | .ldwu d a t o g => Sys2Proof.Machine.execLdwu d a t o g s
  | .ldd d a t o g => Sys2Proof.Machine.execLdd d a t o g s
  | .stb b a o g => Sys2Proof.Machine.execStb b a o g s
  | .sth b a o g => Sys2Proof.Machine.execSth b a o g s
  | .stw b a o g => Sys2Proof.Machine.execStw b a o g s
  | .std b a o g => Sys2Proof.Machine.execStd b a o g s
  | .ldx d a b t g => Sys2Proof.Machine.execLdx d a b t g s
  | .stx sc a b z g => Sys2Proof.Machine.execStx sc a b z g s
  | .tld d t a b g => Sys2Proof.Machine.execTld d t a b g s
  | .tldt d t a b g => Sys2Proof.Machine.execTldt d t a b g s
  | .tst sc a b g => Sys2Proof.Machine.execTst sc a b g s
  | .bld t a b m g => Sys2Proof.Machine.execBld t a b m g s
  | .rld c a z im sc g => Sys2Proof.Machine.execRld c a z im sc g s
  | .rst b a z im sc g => Sys2Proof.Machine.execRst b a z im sc g s
  | .amo d a h t g => Sys2Proof.Machine.execAmo d a h t g s
  | .amoF d a h g => Sys2Proof.Machine.execAmoF d a h g s
  | .amoN d a h g => Sys2Proof.Machine.execAmoN d a h g s
  | .fence sc g => Sys2Proof.Machine.execFence sc g s
  | .drain c g => Sys2Proof.Machine.execDrain c g s
  | .drainR g => Sys2Proof.Machine.execDrainR g s
  | .fenceComplete k => Sys2Proof.Machine.execFenceComplete k s
  | .drainComplete k => Sys2Proof.Machine.execDrainComplete k s
  | .bwait d a b sc g => Sys2Proof.Machine.execBwait d a b sc g s
  | .bwaitPollReply id => Sys2Proof.Machine.execBwaitPollReply id s
  | .qpush a g => Sys2Proof.Machine.execQpush a g s
  | .tpost c a g => Sys2Proof.Machine.execTpost c a g s
  | .tix a g => Sys2Proof.Machine.execTix a g s
  | .vsetvl d a b g => Sys2Proof.Machine.execVsetvl d a b g s
  | .vsetvlRead d g => Sys2Proof.Machine.execVsetvlRead d g s
  | .vsetvli d a v g => Sys2Proof.Machine.execVsetvli d a v g s
  | .vsetivli d l v g => Sys2Proof.Machine.execVsetivli d l v g s
  | .vadd d a b k m g => Sys2Proof.Machine.execVadd d a b k m g s
  | .vsub d a b k m g => Sys2Proof.Machine.execVsub d a b k m g s
  | .vand d a b k m g => Sys2Proof.Machine.execVand d a b k m g s
  | .vor d a b k m g => Sys2Proof.Machine.execVor d a b k m g s
  | .vxor d a b k m g => Sys2Proof.Machine.execVxor d a b k m g s
  | .vsll d a b k m g => Sys2Proof.Machine.execVsll d a b k m g s
  | .vsrl d a b k m g => Sys2Proof.Machine.execVsrl d a b k m g s
  | .vsra d a b k m g => Sys2Proof.Machine.execVsra d a b k m g s
  | .vmul d a b k m g => Sys2Proof.Machine.execVmul d a b k m g s
  | .vmulh d a b k m u g => Sys2Proof.Machine.execVmulh d a b k m u g s
  | .vmin d a b k m g => Sys2Proof.Machine.execVmin d a b k m g s
  | .vmax d a b k m g => Sys2Proof.Machine.execVmax d a b k m g s
  | .vminu d a b k m g => Sys2Proof.Machine.execVminu d a b k m g s
  | .vmaxu d a b k m g => Sys2Proof.Machine.execVmaxu d a b k m g s
  | .vsadd d a b k m u g => Sys2Proof.Machine.execVsadd d a b k m u g s
  | .vssub d a b k m u g => Sys2Proof.Machine.execVssub d a b k m u g s
  | .vsmul d a b r m g => Sys2Proof.Machine.execVsmul d a b r m g s
  | .vwadd d a b k m u g => Sys2Proof.Machine.execVwadd d a b k m u g s
  | .vwmul d a b k m u g => Sys2Proof.Machine.execVwmul d a b k m u g s
  | .vwmacc d a b k m u g => Sys2Proof.Machine.execVwmacc d a b k m u g s
  | .vnsra d a b k r m g => Sys2Proof.Machine.execVnsra d a b k r m g s
  | .vnclip d a sc r m u q g => Sys2Proof.Machine.execVnclip d a sc r m u q g s
  | .vshr d a b k r m g => Sys2Proof.Machine.execVshr d a b k r m g s
  | .vcmp d a b k c g => Sys2Proof.Machine.execVcmp d a b k c g s
  | .vmerge d a b k g => Sys2Proof.Machine.execVmerge d a b k g s
  | .vmlog d a b f g => Sys2Proof.Machine.execVmlog d a b f g s
  | .vredsum d a b w u m g => Sys2Proof.Machine.execVredsum d a b w u m g s
  | .vredmax d a b u m g => Sys2Proof.Machine.execVredmax d a b u m g s
  | .vredmin d a b u m g => Sys2Proof.Machine.execVredmin d a b u m g s
  | .vscan d a b w u m g => Sys2Proof.Machine.execVscan d a b w u m g s
  | .vslideup d a b k m g => Sys2Proof.Machine.execVslideup d a b k m g s
  | .vslidedn d a b k m g => Sys2Proof.Machine.execVslidedn d a b k m g s
  | .vgath d a b m g => Sys2Proof.Machine.execVgath d a b m g s
  | .vcompress d a b g => Sys2Proof.Machine.execVcompress d a b g s
  | .vld d a t m g => Sys2Proof.Machine.execVld d a t m g s
  | .vlds d a t m g => Sys2Proof.Machine.execVlds d a t m g s
  | .vldx d a b m t g => Sys2Proof.Machine.execVldx d a b m t g s
  | .vldff d a t m g => Sys2Proof.Machine.execVldff d a t m g s
  | .vst sc a m g => Sys2Proof.Machine.execVst sc a m g s
  | .vsts sc a m g => Sys2Proof.Machine.execVsts sc a m g s
  | .vstx sc a b m g => Sys2Proof.Machine.execVstx sc a b m g s
  | .vexp d a e m g => Sys2Proof.Machine.execVexp d a e m g s
  | .vrsqrt d a e m g => Sys2Proof.Machine.execVrsqrt d a e m g s
  | .vrecip d a e m g => Sys2Proof.Machine.execVrecip d a e m g s
  | .vdiv d a b m g => Sys2Proof.Machine.execVdiv d a b m g s
  | .vmvxs d a b g => Sys2Proof.Machine.execVmvxs d a b g s
  | .vmvsx d a b g => Sys2Proof.Machine.execVmvsx d a b g s
  | .vsplat d a m g => Sys2Proof.Machine.execVsplat d a m g s
  | .vmov d a r g => Sys2Proof.Machine.execVmov d a r g s
  | .aalloc d n g => Sys2Proof.Machine.execAalloc d n g s
  | .afree b n g => Sys2Proof.Machine.execAfree b n g s
  | .mma a t x m g => Sys2Proof.Machine.execMma a t x m g s
  | .mmaz a t x m g => Sys2Proof.Machine.execMmaz a t x m g s
  | .mmag a t x m g => Sys2Proof.Machine.execMmag a t x m g s
  | .aout d b sc r z g => Sys2Proof.Machine.execAout d b sc r z g s
  | .aoutq q b r z g => Sys2Proof.Machine.execAoutq q b r z g s
  | .azero b n g => Sys2Proof.Machine.execAzero b n g s
  | .tzero d g => Sys2Proof.Machine.execTzero d g s
  | .tmov d sc g => Sys2Proof.Machine.execTmov d sc g s
  | .smset a f g => Sys2Proof.Machine.execSmset a f g s
  | .smclr g => Sys2Proof.Machine.execSmclr g s
  | .ecfg c f a g => Sys2Proof.Machine.execEcfg c f a g s
  | .ego c g => Sys2Proof.Machine.execEgo c g s
  | .estat d c g => Sys2Proof.Machine.execEstat d c g s
  | .qcfgSrc a q g => Sys2Proof.Machine.execQcfgSrc a q g s
  | .qcfgSnk a q g => Sys2Proof.Machine.execQcfgSnk a q g s
  | .qenq v q g => Sys2Proof.Machine.execQenq v q g s
  | .qdeq v q g => Sys2Proof.Machine.execQdeq v q g s
  | .qdeqTile d q a g => Sys2Proof.Machine.execQdeqTile d q a g s
  | .qreset q g => Sys2Proof.Machine.execQreset q g s
  | .qstat d q g => Sys2Proof.Machine.execQstat d q g s
  | .scld sc a t g => Sys2Proof.Machine.execScld sc a t g s
  | .scst sc g => Sys2Proof.Machine.execScst sc g s
  | .scset sc a f g => Sys2Proof.Machine.execScset sc a f g s
  | .srseed a g => Sys2Proof.Machine.execSrseed a g s
  | .evset a w g => Sys2Proof.Machine.execEvset a w g s
  | .evclr a w g => Sys2Proof.Machine.execEvclr a w g s
  | .gbar c e g => Sys2Proof.Machine.execGbar c e g s
  | .groupBarrierArrival id => Sys2Proof.Machine.execGroupBarrierArrival id s
  | .slk im g => Sys2Proof.Machine.execSlk im g s
  | .slkReg a g => Sys2Proof.Machine.execSlkReg a g s
  | .anstat d sc g => Sys2Proof.Machine.execAnstat d sc g s
  | .sviIntegerOp o => Sys2Proof.Machine.execSviIntegerOp o s
  | .sviTransfer o => Sys2Proof.Machine.execSviTransfer o s
  | .sviLoadStore o => Sys2Proof.Machine.execSviLoadStore o s
  | .sviFence o => Sys2Proof.Machine.execSviFence o s
  | .ecall => Sys2Proof.Machine.execEcall s
  | .ebreak => Sys2Proof.Machine.execEbreak s
  | .sviMOp o => Sys2Proof.Machine.execSviMOp o s
  | .sviCsrAccess o => Sys2Proof.Machine.execSviCsrAccess o s
  | .sviVectorOp o => Sys2Proof.Machine.execSviVectorOp o s
  | .sviill w => Sys2Proof.Machine.execSviill w s
  | .agTpost b a => Sys2Proof.Machine.execAgTpost b a s
  | .agTix a => Sys2Proof.Machine.execAgTix a s
  | .agAmo h b a d => Sys2Proof.Machine.execAgAmo h b a d s
  | .agAmoF h b a => Sys2Proof.Machine.execAgAmoF h b a s
  | .agAmoN h b a => Sys2Proof.Machine.execAgAmoN h b a s
  | .agDrainR => Sys2Proof.Machine.execAgDrainR s
  | .agDrainScope f => Sys2Proof.Machine.execAgDrainScope f s
  | .agSlk a => Sys2Proof.Machine.execAgSlk a s
  | .agSlki im => Sys2Proof.Machine.execAgSlki im s
  | .agIcinv sc => Sys2Proof.Machine.execAgIcinv sc s
  | .agCont im => Sys2Proof.Machine.execAgCont im s
  | .agExit => Sys2Proof.Machine.execAgExit s
  | .tmma id => Sys2Proof.Machine.execTmma id s
  | .tmmag id => Sys2Proof.Machine.execTmmag id s
  | .tcopy id => Sys2Proof.Machine.execTcopy id s
  | .ttrans id => Sys2Proof.Machine.execTtrans id s
  | .tred id => Sys2Proof.Machine.execTred id s
  | .tscan id => Sys2Proof.Machine.execTscan id s
  | .tew id => Sys2Proof.Machine.execTew id s
  | .tqnt id => Sys2Proof.Machine.execTqnt id s
  | .tsmax id => Sys2Proof.Machine.execTsmax id s
  | .tnorm id => Sys2Proof.Machine.execTnorm id s
  | .topt id => Sys2Proof.Machine.execTopt id s
  | .tcoll id => Sys2Proof.Machine.execTcoll id s
  | .tfill id => Sys2Proof.Machine.execTfill id s
  | .tgath id => Sys2Proof.Machine.execTgath id s
  | .tscat id => Sys2Proof.Machine.execTscat id s
  | .tbar id => Sys2Proof.Machine.execTbar id s
  | .tileWordAccept id => Sys2Proof.Machine.execTileWordAccept id s
  | .tileWordCompletion id => Sys2Proof.Machine.execTileWordCompletion id s
  | .childFault id => Sys2Proof.Machine.execChildFault id s
  | .dispatch c => Sys2Proof.Machine.execDispatch c s
  | .fetchArrival k => Sys2Proof.Machine.execFetchArrival k s
  | .replyArrival id => Sys2Proof.Machine.execReplyArrival id s
  | .landingCycle k => Sys2Proof.Machine.execLandingCycle k s
  | .latencyBoundExpiry k => Sys2Proof.Machine.execLatencyBoundExpiry k s
  | .occupancyEnd k => Sys2Proof.Machine.execOccupancyEnd k s
  | .busyClear k => Sys2Proof.Machine.execBusyClear k s
  | .annealerWindow k => Sys2Proof.Machine.execAnnealerWindow k s
  | .frzto k => Sys2Proof.Machine.execFrzto k s
  | .trapTaken k => Sys2Proof.Machine.execTrapTaken k s
  | .interruptTaken k => Sys2Proof.Machine.execInterruptTaken k s
  | .emulationEntry k => Sys2Proof.Machine.execEmulationEntry k s
  | .releaseIssue id => Sys2Proof.Machine.execReleaseIssue id s
  | .acquirePerformed id => Sys2Proof.Machine.execAcquirePerformed id s
  | .memoryLoadPerform id t => Sys2Proof.Machine.execMemoryLoadPerform id t s
  | .memoryStorePerform id t => Sys2Proof.Machine.execMemoryStorePerform id t s
  | .acknowledgementArrival id => Sys2Proof.Machine.execAcknowledgementArrival id s
  | .amoLoad id t => Sys2Proof.Machine.execAmoLoad id t s
  | .amoStore id t => Sys2Proof.Machine.execAmoStore id t s
  | .amoSwap id t => Sys2Proof.Machine.execAmoSwap id t s
  | .amoCas id t => Sys2Proof.Machine.execAmoCas id t s
  | .amoAdd id t => Sys2Proof.Machine.execAmoAdd id t s
  | .amoSaturatingAdd id t => Sys2Proof.Machine.execAmoSaturatingAdd id t s
  | .amoAnd id t => Sys2Proof.Machine.execAmoAnd id t s
  | .amoOr id t => Sys2Proof.Machine.execAmoOr id t s
  | .amoXor id t => Sys2Proof.Machine.execAmoXor id t s
  | .amoSignedMin id t => Sys2Proof.Machine.execAmoSignedMin id t s
  | .amoSignedMax id t => Sys2Proof.Machine.execAmoSignedMax id t s
  | .amoUnsignedMin id t => Sys2Proof.Machine.execAmoUnsignedMin id t s
  | .amoUnsignedMax id t => Sys2Proof.Machine.execAmoUnsignedMax id t s
  | .fetchIncrementWithBound id t => Sys2Proof.Machine.execFetchIncrementWithBound id t s
  | .fetchDecrementWithFloor id t => Sys2Proof.Machine.execFetchDecrementWithFloor id t s
  | .barrierArrive id t => Sys2Proof.Machine.execBarrierArrive id t s
  | .barrierReset id t => Sys2Proof.Machine.execBarrierReset id t s
  | .joinDec id t => Sys2Proof.Machine.execJoinDec id t s
  | .queuePush id t => Sys2Proof.Machine.execQueuePush id t s
  | .queuePop id t => Sys2Proof.Machine.execQueuePop id t s
  | .packedSatAddInt16 id t => Sys2Proof.Machine.execPackedSatAddInt16 id t s
  | .packedSatAddInt8 id t => Sys2Proof.Machine.execPackedSatAddInt8 id t s
  | .maxWithIndex id t => Sys2Proof.Machine.execMaxWithIndex id t s
  | .wideAdd id t => Sys2Proof.Machine.execWideAdd id t s
  | .cas128 id t => Sys2Proof.Machine.execCas128 id t s
  | .bitTestAndSet id t => Sys2Proof.Machine.execBitTestAndSet id t s
  | .censusMinMerge id t => Sys2Proof.Machine.execCensusMinMerge id t s
  | .eventPost id t => Sys2Proof.Machine.execEventPost id t s
  | .copyPerform k c im => Sys2Proof.Machine.execCopyPerform k c im s
  | .copyProgramComplete k c => Sys2Proof.Machine.execCopyProgramComplete k c s
  | .pageWalkComplete ctx page => Sys2Proof.Machine.execPageWalkComplete ctx page s
  | .slackTick => Sys2Proof.Machine.execSlackTick s
  | .packetArrival place hdr addr data => Sys2Proof.Machine.execPacketArrival place hdr addr data s
  | .arbiterGrant place => Sys2Proof.Machine.execArbiterGrant place s
  | .circuitSlot port slot => Sys2Proof.Machine.execCircuitSlot port slot s
  | .flitRetry port => Sys2Proof.Machine.execFlitRetry port s
  | .linkStateChange up width rate => Sys2Proof.Machine.execLinkStateChange up width rate s
  | .portStateChange port up ldelay => Sys2Proof.Machine.execPortStateChange port up ldelay s
  | .hostMemoryWrite pa n v => Sys2Proof.Machine.execHostMemoryWrite pa n v s
  | .hostMemoryRead pa n => Sys2Proof.Machine.execHostMemoryRead pa n s
  | .registerWrite off v => Sys2Proof.Machine.execRegisterWrite off v s
  | .launchQueueTailWrite q => Sys2Proof.Machine.execLaunchQueueTailWrite q s
  | .taskListLaunch q => Sys2Proof.Machine.execTaskListLaunch q s
  | .tileWordLaunch q => Sys2Proof.Machine.execTileWordLaunch q s
  | .launchRetire tag => Sys2Proof.Machine.execLaunchRetire tag s
  | .journalMirrorWrite => Sys2Proof.Machine.execJournalMirrorWrite s
  | .ctxset q => Sys2Proof.Machine.execCtxset q s
  | .classign q => Sys2Proof.Machine.execClassign q s
  | .clrelease q => Sys2Proof.Machine.execClrelease q s
  | .place q => Sys2Proof.Machine.execPlace q s
  | .qconf q => Sys2Proof.Machine.execQconf q s
  | .savecfg q => Sys2Proof.Machine.execSavecfg q s
  | .preempt q => Sys2Proof.Machine.execPreempt q s
  | .preemptSave k => Sys2Proof.Machine.execPreemptSave k s
  | .commandLimitExpiry q => Sys2Proof.Machine.execCommandLimitExpiry q s
  | .swout q => Sys2Proof.Machine.execSwout q s
  | .swin q => Sys2Proof.Machine.execSwin q s
  | .stop q => Sys2Proof.Machine.execStop q s
  | .stopFallback q => Sys2Proof.Machine.execStopFallback q s
  | .resume q => Sys2Proof.Machine.execResume q s
  | .resumeAbort q => Sys2Proof.Machine.execResumeAbort q s
  | .partset q => Sys2Proof.Machine.execPartset q s
  | .tlbinv q => Sys2Proof.Machine.execTlbinv q s
  | .tlbinvAll q => Sys2Proof.Machine.execTlbinvAll q s
  | .tlbinvEnd q => Sys2Proof.Machine.execTlbinvEnd q s
  | .faultRingConfig q => Sys2Proof.Machine.execFaultRingConfig q s
  | .faultResume q => Sys2Proof.Machine.execFaultResume q s
  | .faultReplay q => Sys2Proof.Machine.execFaultReplay q s
  | .faultDiscard q => Sys2Proof.Machine.execFaultDiscard q s
  | .faultRingHeadWrite ctx => Sys2Proof.Machine.execFaultRingHeadWrite ctx s
  | .fplan q => Sys2Proof.Machine.execFplan q s
  | .fplanDegronly q => Sys2Proof.Machine.execFplanDegronly q s
  | .opset q => Sys2Proof.Machine.execOpset q s
  | .operatingPointChange => Sys2Proof.Machine.execOperatingPointChange s
  | .anset q => Sys2Proof.Machine.execAnset q s
  | .tripset q => Sys2Proof.Machine.execTripset q s
  | .thermalTrip die temp => Sys2Proof.Machine.execThermalTrip die temp s
  | .attest q => Sys2Proof.Machine.execAttest q s
  | .packageReset => Sys2Proof.Machine.execPackageReset s
  | .linkTrained => Sys2Proof.Machine.execLinkTrained s
  | .bootctlGo => Sys2Proof.Machine.execBootctlGo s
  | .imageLoaded ok => Sys2Proof.Machine.execImageLoaded ok s
  | .imageVerified => Sys2Proof.Machine.execImageVerified s
  | .scrub loc bad => Sys2Proof.Machine.execScrub loc bad s
  | .icinvFinish k => Sys2Proof.Machine.execIcinvFinish k s
  | .syscServed k => Sys2Proof.Machine.execSyscServed k s
  | .tlbDrop ctx page => Sys2Proof.Machine.execTlbDrop ctx page s

end Sys2Proof.Machine
end

