-- ==== Sys2Proof/Machine/Sched.lean ====
section
/-! DEFINITION. The order in which agents step when the agenda is empty: the first internal step that can happen, else a turn of a core.
Which step comes first is the model's choice (log entry 4); an agenda gives any other order. Each step is the one that the meaning of its
row of the opcode table takes. -/
namespace Sys2Proof.Machine

/-! ## Requests, completions, copies -/

/-- The step of a request, where it has one. -/
def reqNext (s : State) (r : Req) : Option State :=
  match r.stage with
  | .out =>
    if canPerform s r then some (performAs r.kind r.h r.id 0 s)
    else if canGo s r then
      match r.arr, r.home s with
      | none, none => some (homeArrive s r.id)
      | none, some h => if (homeQueue s h).length < 64 then some (homeArrive s r.id) else none
      | some _, some h => some (homeGrant s h)
      | some _, none => none
    else if r.rel && !r.deps.isEmpty && performed s r.deps then some (releaseStep s r.id)
    else none
  | .done =>
    match r.dst with
    | .none => some (ackStep s r.id)
    | .land _ _ => some (replyStep s r.id)
    | .poll => some (if ((core s r.core).prd.map (·.1)) = some r.id then replyStep s r.id else pollReply s r.id)
    | _ => none

/-- The step of a completion. -/
def compNext (s : State) (c : Comp) : Option State :=
  if performed s c.deps = false then none
  else match c.what with
  | .done => some (joinStep s c.id)
  | .publish _ _ _ => some (publishStep s c.id)
  | .gbar _ cx g => if (tget {} (ctx s cx).epochs g).arr.any (fun a => a.2 = c.id) then none else some (gbarStep s c.id)

/-- The step of channel c of core k. -/
def chanNext (s : State) (k c : Nat) (x : Channel) : Option State :=
  match x.live with
  | none => none
  | some p =>
    if pTotal p.f ≤ x.done then some (copyComplete s k c)
    else if copyReady s k p p.next then some (copyPerform s k c p.next)
    else none

/-- The step of a tile word. -/
def wordNext (s : State) (t : TileW) : Option State :=
  match t.stage with
  | .posted => some (tileAccept s t.id)
  | .accepted => if tileReady s t then some (tileStep (twOp t.word) t.id s) else none
  | .fetch => if tileReady s t then some (tileStep (twOp t.word) t.id s) else none
  | .child _ _ => some (childFault s t.id)
  | _ => if t.stage ≠ .done ∨ performed s t.far then some (tileComplete s t.id) else none

/-! ## The hub -/

/-- A state command whose record is r. -/
def cmdNext (s : State) (q : Nat) (r : Line) : State :=
  match lCmd r with
  | 0x1 => cmdNow s q 1 anyRec ctxset
  | 0x2 => cmdNow s q 2 anyRec classign
  | 0x3 => cmdNow s q 3 anyRec clrelease
  | 0x4 => cmdNow s q 4 anyRec place
  | 0x5 => cmdNow s q 5 anyRec qconf
  | 0x6 => cmdNow s q 6 anyRec savecfg
  | 0x7 => preempt s q
  | 0x8 => swout s q
  | 0x9 => cmdNow s q 9 anyRec swin
  | 0xA => stop s q
  | 0xB => cmdNow s q 0xB anyRec (fun s a b c => if bit b 0 then resumeAbort s a b c else resume s a b c)
  | 0xC => cmdNow s q 0xC anyRec partset
  | 0xD => tlbinvStart s q (bit (op0 r) 8)
  | 0xE =>
    match fld (op0 r) 8 2 with
    | 0 => cmdNow s q 0xE anyRec ringConfig
    | 1 => cmdNow s q 0xE anyRec faultResume
    | 2 => faultReplay s q
    | _ => cmdNow s q 0xE anyRec faultDiscard
  | 0xF => cmdNow s q 0xF anyRec (fun s a b c => if bit c 0 then fplanDegr s a b c else fplan s a b c)
  | 0x10 => cmdStart s q 0x10 anyRec opset
  | 0x11 => cmdNow s q 0x11 anyRec anset
  | 0x12 => cmdNow s q 0x12 anyRec tripset
  | 0x13 => cmdNow s q 0x13 anyRec attest
  | _ => taskList s q

/-- The launch record or command that the package sequencer serves next. -/
def headNext (s : State) : Option State :=
  match serve s with
  | none => none
  | some (q, _) => (headRec s q).map (fun r =>
      if lKind r = 0 then tileLaunch s q else if lKind r = 2 then cmdNext s q r else taskList s q)

/-- A command in progress that can go on. -/
def runNext (s : State) (m : Cmd) : Option State :=
  let n := fld m.op0 0 6
  match m.cmd with
  | 7 => if m.phase = phaseFull ∨ (coresOf (preemptClus m)).all (fun k => isHeld (core s k)) then some (preempt s m.q) else none
  | 8 =>
    let cl := switchClus m.op0
    if m.phase = phaseFull ∨ ((coresOf cl).all (fun k => isAway (core s k)) ∧ aimed s n cl = false) then some (swout s m.q) else none
  | 0xA =>
    let ks := stepCores s n
    let x := stepMax s ks
    if m.phase = phaseFull ∨ (stillOn s n = [] ∧ wordRuns s n = false) ∨
        (m.phase = 1 ∧ ks ≠ [] ∧ (ks.all (fun k => (core s k).atStep) ∨
          ks.any (fun k => (core s k).atStep && decide (stepCount (core s k) < x)))) then some (stop s m.q) else none
  | 0xD => if performed s m.ids ∧ oldCopies s n (BitVec.ofNat 8 m.phase) = false then some (tlbinvFinish s m.q) else none
  | 0xE => match stoppedCore s n m.op1 with
    | some k => if joinSum s k = 0 then some (faultReplay s m.q) else none
    | none => some (faultReplay s m.q)
  | _ => none

/-- The sequencer of cluster n can dispatch or refill. -/
def dispatchable (s : State) (n : Nat) : Bool :=
  let t := dispatchCcy s n
  let c := evView t (clu t n)
  match ownerOf s n with
  | none => false
  | some _ =>
    ((idleCore s n).isSome && (pickQ c).isSome && !c.noDisp) ||
      (List.range 4).any (fun q =>
        let g := ringOf c q
        decide ((rqOf c q).length < 32) && decide (g.cap ≠ 0) && decide (g.cnt ≠ 0) && !c.frz.contains (ringMark q))

/-- The hub's step. -/
def hubNext (s : State) : Option State :=
  if s.hub.bootState = 2 then some (imageLoaded s true)
  else if s.hub.bootState = 3 then some (imageVerified s)
  else if s.hub.bootState ≠ 4 then none
  else (s.hub.dirty.head?.map (fun e => reread s e.1)).or <| (headNext s).or <| (s.hub.cmds.findSome? (runNext s)).or <|
    ((s.hub.launches.find? (retired s)).map (fun l => retire s l.tag.toNat)).or <|
      if s.hub.opNext.isEmpty then none else some (opChange s)

/-! ## Cores -/

/-- The step that another agent takes for core k. -/
def coreNext (s : State) (k : Nat) (c : Core) : Option State :=
  if c.pre = .saving ∧ c.frz = 0 then some (preemptSave s k)
  else if c.run ≠ .running then none
  else match c.wait with
  | .icinv _ => some (icinvFinish s k)
  | .sysc n _ => if quiet c = false ∨ c.mwait ≠ .none then none else some (match n with
      | 0 => syscNull s k
      | 1 => syscInfo s k
      | 2 => syscFree s k
      | 0x7FFF => syscSvi s k
      | _ => syscOther s k)
  | _ =>
    let a := arena s c
    if (sviOf s c).isNone ∧ c.pc.toNat + 32 ≤ a.2 ∧ (c.ic.find? (fun e => e.1 = a.1 + c.pc.toNat)).isNone then some (fetchArrival s k)
    else none

/-! ## The fabric -/

/-- A place at which something waits that can be granted. -/
def placeNext (s : State) (p : Nat) : Option State :=
  let t := if p < 24 then inject s (p / 6) else s
  let flit := t.pkts.find? (fun x => decide (hClass x.hdr = 2) && decide (routeOf t x = some p))
  if p < 24 ∧ bit (fport s p) 0 = false then none
  else match grantBy Pkt.urg (contendersAt t p), flit with
  | some g, _ => if p < 24 ∧ roomTo t g (p % 6) < g.flits then none else some (arbiterGrant s p)
  | none, some x => if 24 ≤ p then some (arbiterGrant s p) else some (circuitSlot s p
      (((List.range 256).find? (fun k => slotCarries (tget 0 t.hub.slots (256 * p + k)) x)).getD (slotNo t p)))
  | none, none => none

/-! ## The choice -/

/-- The first internal step that can happen. -/
def nextInternal (s : State) : Option State :=
  (s.reqs.findSome? (reqNext s)).or <| (s.comps.findSome? (compNext s)).or <|
    (s.cores.findSome? (fun e => e.2.ch.findSome? (fun x => chanNext s e.1 x.1 x.2))).or <| (s.tiles.findSome? (wordNext s)).or <|
      (hubNext s).or <| (s.cores.findSome? (fun e => coreNext s e.1 e.2)).or <|
        (((List.range 64).find? (dispatchable s)).map (dispatchStep s)).or <| (List.range 28).findSome? (placeNext s)

/-- A core that runs a task. -/
def Core.live (c : Core) : Bool := decide (c.run = .running) || decide (c.run = .ending)

/-- The core whose turn comes: the current one while it runs, else the next that runs, round the package. -/
def nextCore (s : State) : Nat :=
  let ks := (s.cores.filter (fun e => e.2.live)).map (·.1)
  if ks.contains s.cur then s.cur else ((ks.find? (fun k => decide (s.cur < k))).or ks.head?).getD s.cur

end Sys2Proof.Machine
end

