-- ==== Sys2Proof/Machine/Step.lean ====
section
/-! DEFINITION. The step of the machine, and a state that is about to fetch a given word. -/
namespace Sys2Proof.Machine

/-- A row of the opcode table that is the step of another agent: it has no instruction word. -/
def isEvent (i : Instr) : Bool := (encode i).isNone

/-- One ccy of the current core. -/
def turn (s : State) : Host.Outcome State Fault Refusal :=
  if 512 ≤ s.cur then .fault .noSuchCore
  else match coreTurn s with
  | .state t => .next t
  | .run i t => exec i t

/-- One step: the first move of the agenda; with none, the first internal step that can happen, else a turn of a core that runs. -/
def step (s : State) : Host.Outcome State Fault Refusal :=
  match s.agenda with
  | .event i :: t => if isEvent i then exec i { s with agenda := t } else .next { s with agenda := t }
  | .core k :: t => turn { s with agenda := t, cur := k }
  | [] => match nextInternal s with
    | some t => .next t
    | none => turn { s with cur := nextCore s }

/-! ## A state about to fetch a word -/

/-- The first slot of a class. -/
def clsSlot : Cls → Nat
  | .c => 0
  | .s => 1
  | .m => 3
  | .v => 4
  | .x => 6
  | .e => 7
  | .svi => 0

/-- Core 0 runs a task of context 0 whose arena is the first 64 KiB of device memory, at its offset 0, with nothing to wait for. -/
def fetchCore (s : State) (b : Bundle) : Core :=
  let c := core s 0
  { c with
    run := .running, pre := .none, pc := 0, ctx := 0, trec := { c.trec with w0 := setFld c.trec.w0 42 1 0 }
    ent := tset 0 (tset 0 c.ent 1 0) 2 65536
    ic := (0, b) :: c.ic.filter (fun e => decide (e.1 ≠ 0))
    wait := .none, mwait := .none, ended := false, trap := none, atStep := false, skipBk := true, issueAt := 0, frz := 0, land := [], prd := none
    probed := 0 }

/-- The state in which the next step fetches and runs a table word: a slot word alone in its bundle, an SVI word in an SVI image. -/
def State.withFetchWord (s : State) (_nbits w : Nat) : State :=
  let k := (tableCls w).getD .c
  let b : Bundle := if k = .svi then 0 else BitVec.ofNat 256 (w * 2 ^ (32 * clsSlot k))
  let i : List SviImg := if k = .svi then [{ base := 64, size := 4, off := 0 }] else []
  let s := setCore s 0 (fetchCore s b)
  let s := wr s 0 32 b.toNat
  let s := if k = .svi then wr s 64 4 w else s
  { s with svi := tset [] s.svi 0 i, agenda := .core 0 :: s.agenda }

end Sys2Proof.Machine
end

