-- ==== Sys2Proof/Safety.lean ====
section
/-! DEFINITION. The terms in which statements speak of a run: when one instruction issues and commits, what a commit leaves behind, and
which parts of the machine a step may touch. -/
namespace Sys2Proof.Machine

/-! ## Issue -/

/-- The slot in which a lone instruction stands: the first of its class. -/
def soleSlot (i : Instr) : Nat := clsSlot ((clsOf i).getD .c)

/-- A lone instruction passes every step of R130 in this ccy: its slot is free, its word is defined, the resources it names are not busy, the
limits of R92 hold, it is admitted, no check fails, and the Annealer admits its charge. -/
def Issues (s : State) (o : SlotOp) : Prop :=
  occupied (cur s) o.slot = false ∧ (masked (cur s) o.slot || o.legal s) = true ∧ (o.res s).any (resBusy (cur s) o.mm) = false ∧
    roomOk s [o] = true ∧
    (o.on (cur s) = true → o.admits s = true ∧ o.pread s = none ∧ o.probe s ≤ (cur s).probed ∧ o.check s (o.issued s) = none ∧
      (0 < o.issued s → fld (cur s).joincnt 0 16 + o.issued s ≤ 32767)) ∧
    (o.cost s = none ∨ (cur s).debt < (cur s).al)

/-- An instruction that goes on to state `t`. -/
abbrev goTo (t : State) : Host.Outcome State Fault Refusal := .next t

/-- A lone instruction passes steps 1 to 4 of R130 in this ccy: what is left are the checks of step 5 and the Annealer. -/
def Reaches (s : State) (o : SlotOp) : Prop :=
  occupied (cur s) o.slot = false ∧ (masked (cur s) o.slot || o.legal s) = true ∧ (o.res s).any (resBusy (cur s) o.mm) = false ∧
    roomOk s [o] = true ∧ (o.on (cur s) = true → o.admits s = true ∧ o.pread s = none ∧ o.probe s ≤ (cur s).probed)

/-- The current core is free for a lone instruction in `slot` under guard `g`: the slot is neither occupied nor masked, nothing is busy, and
the guard is on. -/
def Open (s : State) (slot : Nat) (g : BitVec 4) : Prop :=
  occupied (cur s) slot = false ∧ (cur s).busy = [] ∧ guardOn (cur s) g = true ∧ masked (cur s) slot = false

/-- The limits of R92 leave room for one more request of the current core, and no acquire of an earlier bundle is outstanding. -/
def RoomFor (s : State) (bytes : Nat) : Prop :=
  outCount s s.cur + 1 ≤ 2048 ∧ lehrRoom (cur s) + bytes ≤ 262144 ∧
    s.reqs.any (fun r => r.core = s.cur && r.acq && r.stage = .out) = false

/-! ## Commit -/

/-- What every commit does to the core's own bookkeeping (R127, R353, R357). -/
def leave (slot occ : Nat) (c : Core) : Core :=
  { c with
    occ := tset 0 c.occ slot (c.oclk + occ), joincnt := setFld c.joincnt 0 16 (fld c.joincnt 0 16)
    emuMask := if c.emuAct then c.emuMask else 0, skipBk := false, prd := none, probed := 0 }

/-- The state after a lone instruction in `slot`, with occupancy `occ`, that changes the current core by `f` and nothing else. -/
def retired1 (s : State) (slot occ : Nat) (f : Core → Core) : State :=
  bump (modCur s (fun c => tick (seqPc (leave slot occ (f c)))))

/-- The state after a transfer of the C slot to `t` that changes the current core by `f` before it. -/
def gone (s : State) (f : Core → Core) (t : Word) : State :=
  bump (modCur s (fun c => tick (jumpTo (leave 0 1 (f c)) t)))

/-- A result of latency bound `b` for scalar register `d` of a core; register 0 takes none. -/
def scalarPut (b d : Nat) (v : Word) (c : Core) : Core := if d = 0 then c else putAt c b (.x d v)

/-- No hardware loop is active. -/
def NoLoop (c : Core) : Prop := ∀ k < 4, lpActive c k = false

/-! ## What a step leaves alone -/

/-- Everything outside the current core and the counter of free values is as before. -/
def OnlyCore (s t : State) : Prop :=
  { t with cores := s.cores, free := s.free } = s ∧ ∀ k, k ≠ s.cur → core t k = core s k

/-- A core with the fields that the issue of any bundle moves put back to what they were in `c`: the PC and the loops with the stage
predicates, the clocks and freezes, occupancy, and the marks of the bundle under way. -/
def steady (c c' : Core) : Core :=
  { c' with
    pc := c.pc, p := c.p, lpc := c.lpc, lps := c.lps, pre := c.pre, issueAt := c.issueAt, ctime := c.ctime, wtime := c.wtime, oclk := c.oclk
    frz := c.frz, frzstat := c.frzstat, occ := c.occ, emuMask := c.emuMask, skipBk := c.skipBk, prd := c.prd, probed := c.probed }

/-- Results in flight for registers other than `nm`. -/
def pendBut (c : Core) (nm : Nat × Nat) : List Pend := c.pend.filter (fun p => p.dst.name ≠ nm)

/-- The landing entries of a core without the registers that later writes have taken over. -/
def landings (c : Core) : List (Nat × Nat × LandDst × List Part) := c.land.map (fun l => (l.id, l.at_, l.dst, l.parts))

end Sys2Proof.Machine
end

