-- ==== Sys2Proof/Certificates/Slice0/Obligations.lean ====
section
/-! DEFINITION. The statements about the machine that are put to the provers, family by family. -/
namespace Sys2Proof.Machine

/-! ## Tables of the statements -/

/-- Bits lo to lo + len - 1 of a doubleword's number. -/
abbrev bitsAt (x : Word) (lo len : Nat) : Nat := x.toNat / 2 ^ lo % 2 ^ len

/-- Table 14 of chapter 06 with R164 and R167 to R169: guard, destination, latency bound and result of the scalar instructions. -/
def scalarRow (s : State) : Instr → Option (BitVec 4 × BitVec 6 × Nat × Word)
  | .add d a b g => some (g, d, 1, BitVec.ofNat 64 ((rx6 s a).toNat + (rx6 s b).toNat))
  | .sub d a b g => some (g, d, 1, BitVec.ofInt 64 ((rx6 s a).toNat - (rx6 s b).toNat : Int))
  | .addi d a i g => some (g, d, 1, BitVec.ofInt 64 ((rx6 s a).toNat + i.toInt))
  | .and d a b g => some (g, d, 1, rx6 s a &&& rx6 s b)
  | .or d a b g => some (g, d, 1, rx6 s a ||| rx6 s b)
  | .xor d a b g => some (g, d, 1, rx6 s a ^^^ rx6 s b)
  | .andi d a i g => some (g, d, 1, rx6 s a &&& BitVec.ofInt 64 i.toInt)
  | .ori d a i g => some (g, d, 1, rx6 s a ||| BitVec.ofInt 64 i.toInt)
  | .xori d a i g => some (g, d, 1, rx6 s a ^^^ BitVec.ofInt 64 i.toInt)
  | .sll d a b g => some (g, d, 1, BitVec.ofNat 64 ((rx6 s a).toNat * 2 ^ bitsAt (rx6 s b) 0 6))
  | .srl d a b g => some (g, d, 1, BitVec.ofNat 64 ((rx6 s a).toNat / 2 ^ bitsAt (rx6 s b) 0 6))
  | .sra d a b g => some (g, d, 1, BitVec.ofInt 64 ((rx6 s a).toInt / 2 ^ bitsAt (rx6 s b) 0 6))
  | .slli d a i g => some (g, d, 1, BitVec.ofNat 64 ((rx6 s a).toNat * 2 ^ i.toNat))
  | .srli d a i g => some (g, d, 1, BitVec.ofNat 64 ((rx6 s a).toNat / 2 ^ i.toNat))
  | .srai d a i g => some (g, d, 1, BitVec.ofInt 64 ((rx6 s a).toInt / 2 ^ i.toNat))
  | .li d i g => some (g, d, 1, BitVec.ofInt 64 i.toInt)
  | .lih d i g => some (g, d, 1, BitVec.ofNat 64 ((rx6 s d).toNat * 2 ^ 15 + i.toNat))
  | .mul d a b g => some (g, d, 3, BitVec.ofNat 64 ((rx6 s a).toNat * (rx6 s b).toNat))
  | .mulh d a b g => some (g, d, 3, BitVec.ofInt 64 ((rx6 s a).toInt * (rx6 s b).toInt / 2 ^ 64))
  | .mulhu d a b g => some (g, d, 3, BitVec.ofNat 64 ((rx6 s a).toNat * (rx6 s b).toNat / 2 ^ 64))
  | .mulhsu d a b g => some (g, d, 3, BitVec.ofInt 64 ((rx6 s a).toInt * ((rx6 s b).toNat : Int) / 2 ^ 64))
  | .div d a b g => some (g, d, 18,
      if rx6 s b = 0 then 0xFFFFFFFFFFFFFFFF#64 else BitVec.ofInt 64 ((rx6 s a).toInt.tdiv (rx6 s b).toInt))
  | .divu d a b g => some (g, d, 18,
      if rx6 s b = 0 then 0xFFFFFFFFFFFFFFFF#64 else BitVec.ofNat 64 ((rx6 s a).toNat / (rx6 s b).toNat))
  | .rem d a b g => some (g, d, 18,
      if rx6 s b = 0 then rx6 s a else BitVec.ofInt 64 ((rx6 s a).toInt.tmod (rx6 s b).toInt))
  | .remu d a b g => some (g, d, 18,
      if rx6 s b = 0 then rx6 s a else BitVec.ofNat 64 ((rx6 s a).toNat % (rx6 s b).toNat))
  | .min d a b g => some (g, d, 1, BitVec.ofInt 64 (Min.min (rx6 s a).toInt (rx6 s b).toInt))
  | .max d a b g => some (g, d, 1, BitVec.ofInt 64 (Max.max (rx6 s a).toInt (rx6 s b).toInt))
  | .minu d a b g => some (g, d, 1, BitVec.ofNat 64 (Nat.min (rx6 s a).toNat (rx6 s b).toNat))
  | .maxu d a b g => some (g, d, 1, BitVec.ofNat 64 (Nat.max (rx6 s a).toNat (rx6 s b).toNat))
  | .clz d a g => some (g, d, 1, if rx6 s a = 0 then 64 else BitVec.ofNat 64 (63 - Nat.log2 (rx6 s a).toNat))
  | .ctz d a g => some (g, d, 1,
      BitVec.ofNat 64 (((List.range 64).find? (fun j => decide (bitsAt (rx6 s a) j 1 = 1))).getD 64))
  | .popc d a g => some (g, d, 1, BitVec.ofNat 64 (((List.range 64).map (fun j => bitsAt (rx6 s a) j 1)).sum))
  | .sext d a i g => some (g, d, 1,
      let w := i.toNat + 1
      let v := (rx6 s a).toNat % 2 ^ w
      BitVec.ofInt 64 (if 2 ^ (w - 1) ≤ v then (v : Int) - 2 ^ w else v))
  | .zext d a i g => some (g, d, 1, BitVec.ofNat 64 ((rx6 s a).toNat % 2 ^ (i.toNat + 1)))
  | .sel d a b f g => some (g, d, 1, if f = 0 ∨ (cur s).p.getLsbD f.toNat = true then rx6 s a else rx6 s b)
  | .mov d a g => some (g, d, 1, rx6 s a)
  | .movFromPall d g => some (g, d, 1, BitVec.ofNat 64 (1 + 2 * ((cur s).p.toNat / 2)))
  | .adds d a b f g => if 4 ≤ f.toNat then none else some (g, d, 1,
      let w := 64 / 2 ^ f.toNat
      let m : Int := 2 ^ (w - 1) - 1
      let v := sextI (rx6 s a).toNat w + sextI (rx6 s b).toNat w
      BitVec.ofInt 64 (Max.max (-m) (Min.min m v)))
  | .subs d a b f g => if 4 ≤ f.toNat then none else some (g, d, 1,
      let w := 64 / 2 ^ f.toNat
      let m : Int := 2 ^ (w - 1) - 1
      let v := sextI (rx6 s a).toNat w - sextI (rx6 s b).toNat w
      BitVec.ofInt 64 (Max.max (-m) (Min.min m v)))
  | .bfxu d a b g => some (g, d, 1,
      let len := Nat.min (bitsAt (rx6 s b) 8 7) (64 - bitsAt (rx6 s b) 0 6)
      BitVec.ofNat 64 (bitsAt (rx6 s a) (bitsAt (rx6 s b) 0 6) len))
  | .bfx d a b g => some (g, d, 1,
      let len := Nat.min (bitsAt (rx6 s b) 8 7) (64 - bitsAt (rx6 s b) 0 6)
      let f := bitsAt (rx6 s a) (bitsAt (rx6 s b) 0 6) len
      if len = 0 then 0 else BitVec.ofInt 64 (if 2 ^ (len - 1) ≤ f then (f : Int) - 2 ^ len else f))
  | .bfi d a b g => some (g, d, 1,
      let pos := bitsAt (rx6 s b) 0 6
      let len := Nat.min (bitsAt (rx6 s b) 8 7) (64 - pos)
      let m := BitVec.ofNat 64 ((2 ^ len - 1) * 2 ^ pos)
      (rx6 s d &&& ~~~m) ||| ((rx6 s a <<< pos) &&& m))
  | _ => none

/-- R165 and R166: guard, destination predicate and value of the instructions that write one predicate. -/
def predRow (s : State) : Instr → Option (BitVec 4 × BitVec 3 × Bool)
  | .cmp d a b c g => (rel c (rx6 s a) (rx6 s b)).map (fun v => (g, d, v))
  | .cmpi d a i c g => (rel c (rx6 s a) (BitVec.ofInt 64 i.toInt)).map (fun v => (g, d, v))
  | .pand d a b g => some (g, d, pr a && pr b)
  | .por d a b g => some (g, d, pr a || pr b)
  | .pxor d a b g => some (g, d, pr a != pr b)
  | .pandn d a b g => some (g, d, pr a && !pr b)
  | _ => none
where
  /-- A predicate as a bundle reads it. -/
  pr (j : BitVec 3) : Bool := decide (j = 0) || (cur s).p.getLsbD j.toNat
  /-- The relation of a code of R165. -/
  rel (c : BitVec 3) (x y : Word) : Option Bool :=
    match c.toNat with
    | 0 => some (decide (x = y))
    | 1 => some (decide (x ≠ y))
    | 2 => some (decide (x.toInt < y.toInt))
    | 3 => some (decide (x.toInt ≥ y.toInt))
    | 4 => some (decide (x.toNat < y.toNat))
    | 5 => some (decide (x.toNat ≥ y.toNat))
    | 6 => some (decide (x &&& y ≠ 0))
    | _ => none

end Sys2Proof.Machine

open Sys2Proof hiding core
open Sys2Proof.Machine

/-! ## Scalar instructions -/

/-- R164, R167 to R170: every scalar instruction with a scalar destination, in an open slot S0, commits with the result of Table 14 at its
bound; a write of x0 is discarded, and nothing else of the machine changes but what every issue moves. -/
def Obligations.ScalarResults : Prop :=
  ∀ (s : State) (i : Instr) (g : BitVec 4) (d : BitVec 6) (b : Nat) (v : Word), scalarRow s i = some (g, d, b, v) → Open s 1 g →
    exec i s = .next (retired1 s 1 1 (scalarPut b d.toNat v))

/-- R126, R128: a result of bound 1, with nothing in flight for its register, is in the register at once; a result of a longer bound leaves the
register undefined until the bound has passed; once everything in flight has come due, the register holds the result issued last. -/
def Obligations.ScalarResultBound : Prop :=
  ∀ (c : Core) (b d : Nat) (v : Word), d ≠ 0 →
    (b ≤ 1 → inflight c (0, d) = none → tget 0 (scalarPut b d v c).x d = v ∧ pendX (scalarPut b d v c) d = false) ∧
    (1 < b → inflight c (0, d) = none → ∀ now, now < c.ctime + b →
      pendX (expire { scalarPut b d v c with ctime := now }) d = true) ∧
    ∀ now, (∀ p ∈ (scalarPut b d v c).pend, p.ready ≤ now) →
      tget 0 (expire { scalarPut b d v c with ctime := now }).x d = v ∧ pendX (expire { scalarPut b d v c with ctime := now }) d = false

/-- R124, R165, R166: a predicate instruction writes its one predicate, and p0 keeps reading true. -/
def Obligations.PredicateResults : Prop :=
  (∀ (s : State) (i : Instr) (g : BitVec 4) (d : BitVec 3) (v : Bool), predRow s i = some (g, d, v) → Open s 1 g →
    exec i s = .next (retired1 s 1 1 (fun c => if d = 0 then c else { c with p := setFld c.p d.toNat 1 (b2n v) }))) ∧
  ∀ (s : State) (a : BitVec 6) (g : BitVec 4), Open s 1 g →
    exec (.movToPall a g) s =
      .next (retired1 s 1 1 (fun c => { c with p := setFld c.p 1 7 (bitsAt (rx6 s a) 1 7) }))

/-- The frame of R164 to R168: whatever a well-formed scalar instruction comes to (its commit, a nullified issue, or a frozen ccy), every byte
of memory, every other core and agent, and every register of the core but its destination stand as they did; with no active loop the predicates
stand too. -/
def Obligations.ScalarFrame : Prop :=
  ∀ (s t : State) (i : Instr) (g : BitVec 4) (d : BitVec 6) (b : Nat) (v : Word), scalarRow s i = some (g, d, b, v) →
    exec i s = .next t →
    (∀ a, rdB t a = rdB s a) ∧ OnlyCore s t ∧ (∀ e, e ≠ d.toNat → tget 0 (cur t).x e = tget 0 (cur s).x e) ∧
    tget 0 (cur t).x 0 = tget 0 (cur s).x 0 ∧ pendBut (cur t) (0, d.toNat) = pendBut (cur s) (0, d.toNat) ∧
    landings (cur t) = landings (cur s) ∧ (NoLoop (cur s) → (cur t).p = (cur s).p) ∧
    { steady (cur s) (cur t) with x := (cur s).x, pend := (cur s).pend, land := (cur s).land } = cur s

/-! ## Reset, decode, step -/

/-- R11, R16, R417: right after package reset no core runs a task, no context is valid, nothing is in flight, the hub's mask ROM is about to train the link, and the registers
with a reset value in their tables hold it. That memory nothing has written reads zero is the model's choice (log entry 2). -/
def Obligations.ResetState : Prop :=
  let s := State.reset
  s.hub.bootState = 0 ∧ s.hub.launches = [] ∧ s.hub.cmds = [] ∧ s.hub.jseq = 0 ∧ s.hub.partcfg = 0x3C#64 ∧ s.hub.trip = 105 ∧ s.hub.op = 2 ∧
    s.hub.revid = 0x100#64 ∧
    s.reqs = [] ∧ s.comps = [] ∧ s.tiles = [] ∧ s.tlb = [] ∧ s.pkts = [] ∧ (∀ a, rdB s a = 0) ∧ Memory.wf s.mem = true ∧
    (∀ n j, fld (ctxD s n j) 24 1 = 0) ∧
    ∀ k, (core s k).run = .idle ∧ (core s k).pre = .none ∧ (core s k).pend = [] ∧ (core s k).land = [] ∧ (core s k).accAl = 0 ∧
      (core s k).wtime = 0 ∧ (core s k).ancfg = 0x00800240#64 ∧ (core s k).lpc = [] ∧ (core s k).joincnt = 0 ∧ (core s k).slkstat = 0 ∧
      (core s k).mmstat = 0 ∧ (core s k).frzstat = 0

/-- Every step keeps the canonical form of memory: locations strictly rising, and no listed byte equal to what an unlisted location reads as. -/
def Obligations.MemoryFormKept : Prop :=
  ∀ s t : State, Memory.wf s.mem = true → step s = .next t → Memory.wf t.mem = true

/-- R120 to R125, R265, R309: every bit of an encoding counts. A well-formed instruction that has a word is read back from that word by the decoder of its
class, with every operand as it was, whatever values its fields hold. (The row of words that no SVI instruction uses is left out: it holds the word itself.) -/
def Obligations.DecodeEncode : Prop :=
  ∀ (i : Instr) (k : Cls) (w : Word32), wellFormed i = true → clsOf i = some k → encode i = some w → (∀ x, i ≠ .sviill x) →
    decodeWord k w = some i

/-- R122, R125: the decoder gives no instruction that the word does not encode, bit for bit: whatever a class's decoder reads is well formed, belongs to the class (or is
the NOP), and its encoding is the word; so a nonzero reserved bit never falls through to a neighbour. -/
def Obligations.DecodeLosesNothing : Prop :=
  ∀ (k : Cls) (w : Word32) (i : Instr), decodeWord k w = some i → wellFormed i = true ∧ (i = .nop ∨ clsOf i = some k) ∧ encode i = some w

/-- Words that the spec writes out (chapters 05 to 09, 11 and 19), read by the decoder of their slot. -/
def Obligations.DecodedWords : Prop :=
  decodeWord .c 0x02000020#32 = some (.br 2 0) ∧ decodeWord .s 0x0228C380#32 = some (.add 5 6 7 0) ∧
  decodeWord .s 0x06411FFB#32 = some (.addi 8 8 0x1FF 0xB) ∧ decodeWord .c 0x0E118030#32 = some (.loope 2 12 3 0) ∧
  decodeWord .s 0x20F80640#32 = some (.li 31 100 0) ∧ decodeWord .m 0x0E488220#32 = some (.ldd 9 4 1 2 0) ∧
  decodeWord .c 0x14000000#32 = some (.exit 0) ∧ decodeWord .c 0x0C03E010#32 = some (.loop 31 1 0) ∧
  decodeWord .m 0x36014000#32 = some (.qpush 10 0) ∧ decodeWord .c 0#32 = some .nop ∧ decodeWord .v 0#32 = some .nop

/-- R120, R130, R309, R347: a step runs the decoded instruction. When the agenda gives a core its turn and nothing keeps it from issuing, and the bundle at its PC holds
one word that is not a NOP, the step is the meaning of that word, after what had come due (and a tile transfer that the word waits for) has landed; a bundle of NOPs runs
the NOP, a PC in translated code the SVI word, and a step of another agent runs its row of the table. A fetch brings the 32 bytes at the PC of the arena into the core's
instruction cache, as eight little-endian slot words; where they belong to a sealed object whose bytes are undefined, nothing says what it brings. -/
def Obligations.StepRunsDecoded : Prop :=
  ((∀ (s : State) (k : Nat) (rest : List Move) (b : Bundle), s.agenda = .core k :: rest → k < 512 →
    let u := turnCcy { s with agenda := rest, cur := k }
    let v := setCur u (settleCore u (cur u))
    let c := cur v
    c.run = .running → c.pre = .none → c.frz ≤ 4194304 → lateNow c = false → c.trap = none → c.wait = .none → c.mwait = .none →
    c.atStep = false → c.issueAt ≤ c.ctime → bkHit c = none →
    (sviOf v c = none → c.pc.toNat + 32 ≤ (arena v c).2 → c.ic.find? (fun e => e.1 = (arena v c).1 + c.pc.toNat) = some ((arena v c).1 + c.pc.toNat, b) →
      (∀ j i, liveWords b = [(j, some i)] → firstSlot j = true →
        step s = exec i (setCur v (earlyLand ((slotOf j i).elim [] (fun o => o.res v)) c))) ∧
      (liveWords b = [] → step s = exec .nop (setCur v (earlyLand [] c)))) ∧
    ∀ m, sviOf v c = some m → step s = exec (decSvi (BitVec.ofNat 32 (rd v (m.base + sviPc m c) 4))) v) ∧
  (∀ (b : Bundle) (j : Nat) (i : Instr), j < 8 → slotWord b j ≠ 0 → (∀ n, n < 8 → n ≠ j → slotWord b n = 0) →
    decodeWord (slotCls j) (slotWord b j) = some i → liveWords b = [(j, some i)]) ∧
  ∀ (s : State) (i : Instr) (rest : List Move), s.agenda = .event i :: rest → isEvent i = true → step s = exec i { s with agenda := rest }) ∧
  (∀ (s : State) (k : Nat), (core s k).run = .running →
    let c := core s k
    let a := (arena s c).1 + c.pc.toNat
    c.pc.toNat + 32 ≤ (arena s c).2 → c.ic.find? (fun e => e.1 = a) = none →
    (sealedFree s a = false → ∃ b, exec (.fetchArrival k) s = .next (setCore s k { c with ic := (a, b) :: c.ic }) ∧
      ∀ j, j < 8 → (slotWord b j).toNat = (rdB s (a + 4 * j)).toNat + 256 * (rdB s (a + 4 * j + 1)).toNat +
        65536 * (rdB s (a + 4 * j + 2)).toNat + 16777216 * (rdB s (a + 4 * j + 3)).toNat) ∧
    (sealedFree s a = true → ∃ b, exec (.fetchArrival k) s = .next (bump (setCore s k { c with ic := (a, b) :: c.ic }))))

/-! ## The pipeline -/

/-- R130, R131: a slot instruction that passes the steps of R130 commits, and its commit is that of the bundle that holds it alone. -/
def Obligations.IssueCommits : Prop :=
  ∀ (i : Instr) (o : SlotOp) (s : State), slotOf (soleSlot i) i = some o → Issues s o → exec i s = .next (commit s [o])

/-- R121, R129, R131, R133: a slot whose guard is false commits without effect: it occupies its slot, and a matrix instruction still charges the Annealer. A slot that an
earlier instruction still occupies freezes the core for a ccy: the wall clock and the occupancies run on, FRZSTAT.BUSY counts the ccy up to its highest value, its other fields
stand, and nothing else changes. -/
def Obligations.SlotsNullifiedOrOccupied : Prop :=
  (∀ (i : Instr) (o : SlotOp) (s : State), slotOf (soleSlot i) i = some o → guardOn (cur s) o.guard = false → Reaches s o →
    (o.cost s = none → exec i s = .next (retired1 s o.slot (o.occ s) id)) ∧
    ∀ n, o.cost s = some n → (cur s).debt < (cur s).al →
      exec i s = .next (retired1 s o.slot (o.occ s) (fun c => { c with debt := c.debt + n.1, gang := n.2, denied := false }))) ∧
  (∀ (i : Instr) (o : SlotOp) (s : State), slotOf (soleSlot i) i = some o → (cur s).oclk < tget 0 (cur s).occ o.slot →
    ∃ t, exec i s = .next t ∧ OnlyCore s t ∧ t.free = s.free ∧ (∀ a, rdB t a = rdB s a) ∧
      (cur t).wtime = (cur s).wtime + 1 ∧ (cur t).oclk = (cur s).oclk + 1 ∧ (cur t).ctime = (cur s).ctime ∧ (cur t).frz = (cur s).frz + 1 ∧
      fld (cur t).frzstat 21 21 = Nat.min (fld (cur s).frzstat 21 21 + 1) (2 ^ 21 - 1) ∧ fld (cur t).frzstat 0 21 = fld (cur s).frzstat 0 21 ∧
      fld (cur t).frzstat 42 22 = fld (cur s).frzstat 42 22 ∧
      { cur t with wtime := (cur s).wtime, oclk := (cur s).oclk, frzstat := (cur s).frzstat, frz := (cur s).frz } = cur s)

/-- R122, R130, R132, R137, R162, R355: a word that fails step 1 whatever its guard stops the task with code UNDEF, at its slot, where EMUEN is 0. With EMUEN = 1 the core
waits for R136, and as soon as that holds (here at once) the emulation record stands in the scratchpad and the handler starts at EMUPC. The fault that a check of step 5 finds is
taken before the bundle: when nothing is pending the core takes the trap at once with the resume PC at the bundle, and nothing of the instruction happens (but the count of an
uncorrectable error in the hub, and the marks of the bundle's waiting, which end). -/
def Obligations.PreciseFaults : Prop :=
  (∀ (i : Instr) (o : SlotOp) (s : State), slotOf (soleSlot i) i = some o → (cur s).oclk ≥ tget 0 (cur s).occ o.slot → o.slot < 8 →
    masked (cur s) o.slot = false → o.legal s = false → (cur s).emuAct = false → bit (entD (cur s) 10) 40 = false → quiet (cur s) = true →
    ∃ f : FaultInfo, f.code = .undef ∧ f.prec = 0 ∧ f.slot = o.slot ∧
      exec i s = .next (takeTrap s s.cur { info := repInfo s (cur s) f, off := repOff s (cur s) } [])) ∧
  (∀ (i : Instr) (o : SlotOp) (s : State) (b : Bundle), slotOf (soleSlot i) i = some o → (cur s).oclk ≥ tget 0 (cur s).occ o.slot → o.slot < 8 →
    masked (cur s) o.slot = false → o.legal s = false → (cur s).emuAct = false → bit (entD (cur s) 10) 40 = true →
    let c := cur s
    let pa := (arena s c).1 + c.pc.toNat
    let m := BitVec.ofNat 8 (2 ^ o.slot)
    let a := spLoc s.cur (fld (entD c 11) 0 21)
    c.ic.find? (fun e => e.1 = pa) = some (pa, b) →
    (quiet c = false → exec i s = .next (setCur s { c with wait := .emu m b })) ∧
    (quiet c = true → ∃ t, exec i s = .next t ∧ (∀ j, j ≠ s.cur → core t j = core s j) ∧
      core t s.cur = { c with
        emuAct := true, emuMask := m, epc := c.pc, pc := BitVec.ofNat 64 (fld (entD c 10) 0 40), wait := .none, frz := 0, skipBk := false } ∧
      rd t a 32 = b.toNat ∧ rd t (a + 32) 8 = c.pc.toNat ∧ rd t (a + 40) 24 = m.toNat ∧ ∀ x, x < a ∨ a + 64 ≤ x → rdB t x = rdB s x)) ∧
  (∀ (i : Instr) (o : SlotOp) (s : State) (f : FaultInfo), slotOf (soleSlot i) i = some o → Reaches s o → o.on (cur s) = true →
    o.check s (o.issued s) = some f → quiet (cur s) = true →
    exec i s = .next (bump (takeTrap (countErr (modCur s giveUp) f.code) s.cur
      { info := repInfo s (cur s) f, off := repOff s (cur s) } [])))

/-- R137, R353, R363, R371, R389, R390, R392: taking a trap. The task stops with its resume PC and every register as it stands, its queue freezes once more, its launch has failed,
and the record of eight doublewords, where it has not been written since the fault was found, goes to the context's ring with up to four fault links behind it, and the ring's tail rises by one; nothing else in memory changes. Without room in the ring the record waits in the
hub. A pending pre-emption is held, or goes on to its write-back where SWOUT or STOP asks for it; after a comparator's stop the first issue ignores the comparators. A
stopped task that is resumed goes on at its resume PC (one whose `exit` or `cont` had committed goes on to its end), and its queue loses one reason to be frozen; memory and every other register stand. -/
def Obligations.TrapsTakenAndReturned : Prop :=
  (∀ (s : State) (k : Nat) (t : Trap),
    let u := takeTrap s k t []
    let c := core s k
    let n := homeClu k c.trec.w1
    let f := (ctx s c.ctx).fr
    let w := faultWords t.info c.ctx c.trec.committed true c.emuAct k c.trec.qid c.ltag c.trec.w1 (fld t.off 0 40) t.links.length c.wtime
    let a := f.base + 128 + 128 * (f.tail % 2 ^ f.log2n)
    core u k = { c with
      run := .stopped, ended := decide (c.run = .ending), trap := none, wait := .none, mwait := .none, frz := 0
      lost := c.lost || decide (t.info.code = .uecc ∨ t.info.code = .frzto)
      pc := if t.next then c.resume else c.pc
      resume := if t.next then c.resume else c.pc, skipBk := decide (t.info.code = .bkpt) && !t.next
      pre := if c.pre = .none then .none else if awayAsked s k then .taking else .held } ∧
    (∀ j, j ≠ k → core u j = core s j) ∧
    (clu u n).frz = c.trec.qid :: (clu s n).frz ∧ (∀ m, m ≠ n → clu u m = clu s m) ∧
    (t.told = true → (∀ b, rdB u b = rdB s b) ∧ u.hub = s.hub ∧ u.ctxs = s.ctxs) ∧
    (t.told = false → ∀ l ∈ u.hub.launches, l.tag = c.ltag → l.failed ≠ none) ∧
    (t.told = false → f.wait = [] → f.room = true →
      (∀ j, j < 8 → rd u (a + 8 * j) 8 = (w.getD j 0).toNat) ∧ rd u (f.base + 8) 4 = (f.tail + 1) % 2 ^ 32 ∧
      (∀ j, j < 4 → j < t.links.length → rd u (a + 64 + 16 * j) 16 = (t.links.getD j 0).toNat) ∧
      (∀ b, (b < a ∨ a + 64 + 16 * Nat.min 4 t.links.length ≤ b) → (b < f.base + 8 ∨ f.base + 12 ≤ b) → rdB u b = rdB s b)) ∧
    (t.told = false → ¬ (f.wait = [] ∧ f.room = true) → (∀ b, rdB u b = rdB s b) ∧
      (ctx u c.ctx).fr.wait = f.wait ++ [{ g := w, links := t.links, stopping := true }])) ∧
  (∀ (s : State) (k : Nat),
    let u := resumeTask s k
    let n := homeClu k (core s k).trec.w1
    core u k = { core s k with
      run := if (core s k).ended then .ending else .running, ended := false, lost := false, pc := (core s k).resume } ∧ (∀ j, j ≠ k → core u j = core s j) ∧
      (clu u n).frz = (clu s n).frz.erase (core s k).trec.qid ∧ (∀ m, m ≠ n → clu u m = clu s m) ∧ (∀ a, rdB u a = rdB s a))

/-- R137, R158: `trap` and `bkpt` commit and then stop the task, with the resume PC at the next bundle and imm15 in the record's address. The stop comes at once where the
M slot of their bundle waits for nothing, else the fault is recorded at once and the stop comes when that wait has ended. -/
def Obligations.SoftwareTraps : Prop :=
  ∀ (s : State) (x : BitVec 15) (g : BitVec 4), Open s 0 g → quiet (cur s) = true →
    let u := modCur s (fun c => { tick (seqPc (leave 0 1 c)) with resume := (tick (seqPc (leave 0 1 c))).pc })
    let f := fun (code : Code) => ({ code := code, addr := BitVec.ofNat 64 x.toNat } : FaultInfo)
    let t := fun (code : Code) => ({ info := f code, next := true, off := repOff s (cur s) } : Trap)
    let stops := fun (code : Code) =>
      if (cur s).mwait = .none then takeTrap u s.cur (t code) [] else pendTrap u s.cur (t code)
    exec (.trap x g) s = .next (bump (stops .trap)) ∧ exec (.bkpt x g) s = .next (bump (stops .bkpt))

/-! ## Control -/

/-- R146, R147: The transfers. Each goes to its target with the next bundle at c + 2; the calls leave the link in x63; a `brp` that is not taken is a slot without effect. A
register target with bits [4:0] or [63:40] nonzero faults PCALIGN, precisely at the transfer's bundle. -/
def Obligations.Transfers : Prop :=
  (∀ (s : State) (g : BitVec 4), Open s 0 g →
    let pc := (cur s).pc
    let plain := fun (t : Word) => goTo (gone s id t)
    let link := fun (t : Word) => goTo (gone s (scalarPut 1 63 (pc + 32)) t)
    (∀ o, exec (.br o g) s = plain (BitVec.ofInt 64 (pc.toNat + o.toInt * 32))) ∧
    (∀ o, exec (.call o g) s = link (BitVec.ofInt 64 (pc.toNat + o.toInt * 32))) ∧
    (∀ a (c : BitVec 2) o,
      let x := rx6 s a
      let taken := (c = 0 ∧ x = 0) ∨ (c = 1 ∧ x ≠ 0) ∨ (c = 2 ∧ x.toInt < 0) ∨ (c = 3 ∧ x.toInt ≥ 0)
      (taken → exec (.brp a c o g) s = plain (BitVec.ofInt 64 (pc.toNat + o.toInt * 32))) ∧
      (¬ taken → exec (.brp a c o g) s = .next (retired1 s 0 1 id))) ∧
    (bitsAt (rx s 63) 0 5 = 0 → bitsAt (rx s 63) 40 24 = 0 → exec (.ret g) s = plain (rx s 63)) ∧
    ∀ a, bitsAt (rx6 s a) 0 5 = 0 → bitsAt (rx6 s a) 40 24 = 0 →
      exec (.jr a g) s = plain (rx6 s a) ∧ exec (.callX a g) s = link (rx6 s a)) ∧
  (∀ (s : State) (g : BitVec 4) (a : BitVec 6), Open s 0 g → quiet (cur s) = true →
    let f := fun (t : Word) => ({ code := .pcalign, addr := t, acc := 2 } : FaultInfo)
    let trapped := fun (t : Word) => goTo
      (bump (takeTrap (modCur s giveUp) s.cur { info := repInfo s (cur s) (f t), off := repOff s (cur s) } []))
    (bitsAt (rx s 63) 0 5 ≠ 0 ∨ bitsAt (rx s 63) 40 24 ≠ 0 → exec (.ret g) s = trapped (rx s 63)) ∧
    (bitsAt (rx6 s a) 0 5 ≠ 0 ∨ bitsAt (rx6 s a) 40 24 ≠ 0 →
      exec (.jr a g) s = trapped (rx6 s a) ∧ exec (.callX a g) s = trapped (rx6 s a)))

/-- R146, R148 to R152: after a taken transfer the PC is the target and no bundle issues before c + 2; a loop level is active just when it was and some
active level at or inside it holds the target, and the predicates keep their values. `loop` and `loope` take the lowest inactive level, set it up, and make the boundary
step of iteration 0: a positive count starts the body with one stage begun, a count of 0 skips it. At the last bundle of the innermost loop (here a `nop`), the boundary
step runs: a `loop` with stages to begin goes back to START with one fewer; a `loope` shifts its stage bits, which drive its predicates; a loop without more to do ends,
and with no other loop the next bundle follows. -/
def Obligations.HardwareLoops : Prop :=
  (∀ (s : State) (f : Core → Core) (t : Word), (f (cur s)).emuAct = false → (f (cur s)).ctime = (cur s).ctime →
    let c := f (cur s)
    let d := cur (gone s f t)
    d.pc = t ∧ d.issueAt = (cur s).ctime + 2 ∧ d.p = c.p ∧
    ∀ k, k < 4 → (lpActive d k = true ↔
      lpActive c k = true ∧ ∃ j, k ≤ j ∧ j < 4 ∧ lpActive c j = true ∧ lpStart c j ≤ t.toNat ∧ t.toNat < lpStart c j + 32 * lpLen c j)) ∧
  (∀ (s : State) (st : BitVec 3) (a : BitVec 6) (l : BitVec 9) (g : BitVec 4) (k : Nat), (cur s).pc.toNat + 32 < 2 ^ 40 →
    (cur s).pre = .none → masked (cur s) 0 = false → guardOn (cur s) g = true → k < 4 → lpActive (cur s) k = false →
    (∀ j, j < k → lpActive (cur s) j = true) →
    ∀ i, (i = .loop a l g ∧ st = 0 ∧ Issues s (opLoop a l g)) ∨ (i = .loope st a l g ∧ Issues s (opLoope st a l g)) →
    ∃ t, exec i s = .next t ∧ OnlyCore s t ∧
      lpStart (cur t) k = (cur s).pc.toNat + 32 ∧ lpLen (cur t) k = l.toNat ∧ fld (tget 0 (cur t).lpc k) 32 3 = st.toNat ∧
      (∀ j, j ≠ k → tget 0 (cur t).lpc j = tget 0 (cur s).lpc j ∧ tget 0 (cur t).lps j = tget 0 (cur s).lps j) ∧
      let n := bitsAt (rx6 s a) 0 32
      (0 < n → lpActive (cur t) k = true ∧ fld (tget 0 (cur t).lpc k) 0 32 = n - 1 ∧ (cur t).pc = (cur s).pc + 32 ∧
        (st = 0 → (cur t).p = (cur s).p) ∧
        (st ≠ 0 → fld (tget 0 (cur t).lpc k) 35 7 = 1 ∧ ∀ j, 1 ≤ j → j < 8 →
          (cur t).p.getLsbD j = if j ≤ st.toNat then decide (j = 1) else (cur s).p.getLsbD j)) ∧
      (n = 0 → lpActive (cur t) k = false ∧ (cur t).pc.toNat = (cur s).pc.toNat + 32 + 32 * l.toNat ∧
        (cur t).issueAt = (cur s).ctime + 2 ∧ (cur t).p = (cur s).p)) ∧
  (∀ (s : State) (k : Nat), Open s 0 0 → (cur s).emuAct = false → (cur s).pre = .none → k < 4 → lpActive (cur s) k = true →
    bit (tget 0 (cur s).lpc k) 43 = false → 1 ≤ lpLen (cur s) k →
    (∀ j, k < j → j < 4 → lpActive (cur s) j = false) → (cur s).pc.toNat = lpStart (cur s) k + 32 * (lpLen (cur s) k - 1) →
    let r := tget 0 (cur s).lpc k
    let first := fld r 0 32
    let st := fld r 32 3
    let stg := (2 * fld r 35 7 + (if 0 < first then 1 else 0)) % 2 ^ st
    ∃ t, exec .nop s = .next t ∧ OnlyCore s t ∧ fld (tget 0 (cur t).lpc k) 0 32 = first - 1 ∧
      ((if st = 0 then 0 < first else stg ≠ 0) →
        lpActive (cur t) k = true ∧ (cur t).pc.toNat = lpStart (cur s) k ∧ (st = 0 → (cur t).p = (cur s).p) ∧
        (st ≠ 0 → fld (tget 0 (cur t).lpc k) 35 7 = stg ∧ ∀ j, 1 ≤ j → j < 8 →
          (cur t).p.getLsbD j = if j ≤ st then stg.testBit (j - 1) else (cur s).p.getLsbD j)) ∧
      (¬ (if st = 0 then 0 < first else stg ≠ 0) →
        lpActive (cur t) k = false ∧ ((∀ j, j ≠ k → lpActive (cur s) j = false) → (cur t).pc = (cur s).pc + 32)))

/-- R153, R155 to R157: `lpstage` zeroes FIRST of the innermost loop; `step` counts and leaves its number; `setlt` and `setlt.x` set a landing
delay; `evwait` starts its wait, whose predicate gives way to a stage predicate that the bundle's own loop step writes. -/
def Obligations.CoreSettings : Prop :=
  ∀ (s : State) (g : BitVec 4), Open s 0 g →
    (∀ k, innermost (cur s) = some k → exec (.lpstage g) s =
      .next (retired1 s 0 1 (fun c => { c with lpc := tset 0 c.lpc k (setFld (tget 0 c.lpc k) 0 32 0) }))) ∧
    (innermost (cur s) = none → exec (.lpstage g) s = .next (retired1 s 0 1 id)) ∧
    (∀ x : BitVec 15, ∃ t, exec (.step x g) s = .next t ∧ OnlyCore s t ∧
      fld (cur t).stepno 0 32 = (fld (cur s).stepno 0 32 + 1) % 2 ^ 32 ∧ fld (cur t).stepno 32 15 = x.toNat ∧
      fld (cur t).stepno 47 17 = fld (cur s).stepno 47 17 ∧ (cur t).atStep = (cur s).stepStop ∧ (cur t).x = (cur s).x) ∧
    (∀ (n : BitVec 4) (x : BitVec 12),
      exec (.setlt n x g) s = .next (retired1 s 0 1 (fun c => { c with lt := tset 0 c.lt n.toNat x }))) ∧
    (∀ (n : BitVec 4) (a : BitVec 6), exec (.setltX n a g) s = .next (retired1 s 0 1 (fun c =>
      { c with lt := tset 0 c.lt n.toNat (if (rx6 s a).toNat ≤ 4095 then (rx6 s a).setWidth 12 else 4095) }))) ∧
    ∀ (d : BitVec 3) (a b : BitVec 6) (w : BitVec 3), exec (.evwait d a b w g) s = .next (retired1 s 0 1 (fun c =>
      { c with
        wait := .ev (if (cur s).wait = .none ∧ stageOver true (cur s) d.toNat then 0 else d.toNat) w.toNat ((rx6 s a).setWidth 32)
          (c.ctime + 1 + bitsAt (rx6 s b) 0 32) }))

/-- R157, R198: the end of a bounded wait. The test of an `evwait` within the limit, on the word as the present ccy sees it, ends it with pd true; a limit that passes without it
ends it with pd false and the next bundle at c + 2 + lim, and so does the limit of a `bwait`; where both stand in one bundle, each ends by its own limit. -/
def Obligations.BoundedWaitEnds : Prop :=
  ∀ (s : State) (k pd last : Nat),
    let p := fun (b : BitVec 8) (v : Bool) => if pd = 0 then b else setFld b pd 1 (b2n v)
    let c := core s k
    let b : (BitVec 8 → BitVec 8) × Wait := match c.mwait with
      | .bw d _ _ l _ _ => if l ≤ c.ctime then ((fun x => if d = 0 then x else setFld x d 1 0), .bubble (l + 1)) else (id, c.mwait)
      | _ => (id, c.mwait)
    (∀ w m, c.wait = .ev pd w m last →
      let e := evWord s (cluOf k) w
      (e &&& m = m → c.ctime ≤ last → lateNow c = false → exec (.evwaitEnd k) s = .next (setCore s k { c with p := p c.p true, wait := .none })) ∧
      (e &&& m ≠ m → last ≤ c.ctime →
        exec (.boundedWaitLimit k) s = .next (setCore s k { c with p := b.1 (p c.p false), wait := .bubble (last + 1), mwait := b.2 }))) ∧
    ∀ ph a sc q, c.mwait = .bw pd ph a last sc q → last ≤ c.ctime →
      (∀ d w m l, c.wait = .ev d w m l → c.ctime < l ∨ evWord s (cluOf k) w &&& m = m) →
      exec (.boundedWaitLimit k) s = .next (setCore s k { c with p := p c.p false, mwait := .bubble (last + 1) })

/-- R38, R41, R42, R154: `exit` sets the exit event, marks its record slot ended, takes its task from the live records of the launch, and leaves the core idle with its
loop levels cleared (where the M slot of its bundle still waits, it ends when that wait is over); every byte of memory outside the record's first doubleword stands. `cont` writes the continuation into the record slot in one step: the target as PC,
KIND 1, COMMITTED clear, and what the task has issued added to JOIN; while completions are owed, it waits in its slot, and with none it enters its queue
at once (here a queue with room); the core is idle. -/
def Obligations.TaskEnds : Prop :=
  (∀ (s : State) (g : BitVec 4), Issues s (opExit g) → guardOn (cur s) g = true → masked (cur s) 0 = false → quiet (cur s) = true →
    let c := cur s
    let a := frameHome s c.ctx (dieOf s.cur) c.trec.w1
    let n := homeClu s.cur c.trec.w1
    ∃ t, exec (.exit g) s = .next t ∧ (c.mwait = .none → (cur t).run = .idle ∧ (cur t).lpc = [] ∧ (cur t).lps = []) ∧
      (c.mwait ≠ .none → (cur t).run = .ending) ∧ (rdRec t a).kind = 4 ∧
      fld (rdRec t a).w0 0 56 = fld (rdRec s a).w0 0 56 ∧ (∀ b, b < a ∨ a + 8 ≤ b → rdB t b = rdB s b) ∧
      ((clu s (cluOf s.cur)).evCcy ≤ s.ccy → evWord { t with ccy := s.ccy + 1 } (cluOf s.cur) c.trec.setw =
        (evWord { s with ccy := s.ccy + 1 } (cluOf s.cur) c.trec.setw ||| c.trec.setmask)) ∧
      t.hub.launches = s.hub.launches.map (fun l => if l.tag = c.ltag then { l with recs := l.recs.erase (n, c.trec.w1) } else l) ∧
      t.hub.orphans.count (c.ctx, n, c.trec.w1) = s.hub.orphans.count (c.ctx, n, c.trec.w1) -
        (if s.hub.launches.any (fun l => decide (l.tag = c.ltag)) then 0 else 1) ∧
      ∀ j, j ≠ s.cur → core t j = core s j) ∧
  (∀ (s : State) (o : BitVec 21) (g : BitVec 4), Issues s (opCont o g) → guardOn (cur s) g = true → masked (cur s) 0 = false →
    quiet (cur s) = true →
    let c := cur s
    let a := frameHome s c.ctx (dieOf s.cur) c.trec.w1
    let r := rdRec s a
    let n := homeClu s.cur c.trec.w1
    let q := r.qid % 4
    let now := joinSum s s.cur = 0
    (now → swImage s c.ctx n = none ∧ (ringOf (clu s n) q).cnt = 0 ∧ (rqOf (clu s n) q).length < 32) →
    ∃ t, exec (.cont o g) s = .next t ∧ (cur t).run = (if c.mwait = .none then .idle else .ending) ∧
      rdRec t a = ((((r.setPc (fld (BitVec.ofInt 64 (c.pc.toNat + o.toInt * 32) : Word) 0 40)).setKind 1).setCommitted false).setJoin
        (joinSum s s.cur)) ∧
      (∀ b, b < a ∨ a + 64 ≤ b → rdB t b = rdB s b) ∧ (¬ now → t.clus = s.clus) ∧
      (now → rqOf (clu t n) q = rqOf (clu s n) q ++ [rdRec t a] ∧ (∀ j, j ≠ q → rqOf (clu t n) j = rqOf (clu s n) j) ∧ ∀ m, m ≠ n → clu t m = clu s m) ∧
      t.hub = s.hub ∧ ∀ j, j ≠ s.cur → core t j = core s j)

/-! ## System calls, emulation, code maintenance, status registers -/

/-- R158, R354: `sysc` commits and waits with its number and argument registers; requests 0 and 1 leave the record's COMMITTED flag alone, every other sets it. The
hub's answers. Request 0 answers 0; CTXINFO the ASID, the context number and the partition, with the clusters in x11; OBJFREE frees a published object at x10's offset, or
answers -2; SVICALL goes on as the request of x17; a number that is not listed goes to the firmware, or is answered with all ones. -/
def Obligations.SystemCalls : Prop :=
  (∀ (s : State) (x : BitVec 15) (g : BitVec 4), Open s 0 g →
    let args := [10, 11, 12, 13, 14, 15, 17].map (rx s)
    (x = 0 ∨ x = 1 → exec (.sysc x g) s =
      .next (bump (modCur s (fun c => tick { seqPc (leave 0 1 c) with wait := .sysc x.toNat args })))) ∧
    (x ≠ 0 ∧ x ≠ 1 → ∃ t, exec (.sysc x g) s = .next t ∧ (cur t).wait = .sysc x.toNat args ∧ (cur t).trec.committed = true ∧
      (cur t).x = (cur s).x ∧ (rdRec t (frameHome s (cur s).ctx (dieOf s.cur) (cur s).trec.w1)).committed = true)) ∧
  (∀ (s : State) (k n : Nat) (xs : List Word), (core s k).run = .running → quiet (core s k) = true → (core s k).mwait = .none →
    (core s k).wait = .sysc n xs →
    let done := fun (u : State) (v : Word) => goTo
      (modCore u k (fun c => { putAt c 1 (.x 10 v) with wait := .none }))
    let cx := (core s k).ctx
    (n = 0 → exec (.null k) s = done s 0) ∧
    (n = 1 → ∃ t, exec (.ctxinfo k) s = .next t ∧ (core t k).wait = .none ∧ t.mem = s.mem ∧ tget 0 (core t k).x 10 =
        BitVec.ofNat 64 (fld (ctxD s cx 0) 0 16 + fld (ctxD s cx 0) 16 6 * 2 ^ 16 + fld (ctxD s cx 0) 25 2 * 2 ^ 22) ∧
      tget 0 (core t k).x 11 = ctxD s cx 9 ∧ ∀ e, e ≠ 10 → e ≠ 11 → tget 0 (core t k).x e = tget 0 (core s k).x e) ∧
    (n = 2 →
      let hit := fun (o : Obj) => o.published && decide (o.off = (xs.getD 0 0).toNat)
      ((ctx s cx).objs.any hit = true → exec (.objfree k) s =
        done (setCtx s cx { ctx s cx with objs := (ctx s cx).objs.filter (fun o => !hit o) }) 0) ∧
      ((ctx s cx).objs.any hit = false → exec (.objfree k) s = done s 0xFFFFFFFFFFFFFFFE#64)) ∧
    (n = 0x7FFF →
      let m := bitsAt (xs.getD 6 0) 0 15
      (m ≠ 0x7FFF → exec (.svicall k) s = .next (modCore s k (fun c => { c with wait := .sysc m xs }))) ∧
      (m = 0x7FFF → exec (.svicall k) s = done s 0xFFFFFFFFFFFFFFFF#64)) ∧
    (2 < n → n ≠ 0x7FFF →
      (n < 0x100 → exec (.syscServed k) s = done s 0xFFFFFFFFFFFFFFFF#64) ∧
      (0x100 ≤ n → exec (.syscServed k) s = (done { s with free := s.free + 1 }
        ((Config.firmware n (xs.take 6 ++ [BitVec.ofNat 64 s.free])).getD 0xFFFFFFFFFFFFFFFF#64)))))

/-- R139, R159, R160, R350, R355 to R357: entry into the emulation handler writes its record, the failing bundle first, into the scratchpad and starts the handler; `emret` goes back to the bundle at
EPC, with the emulated slots still marked. `icinv` waits for the caches of its scope; when they have finished, the instance's caches hold no line of the issuing context's
arena, and every other line and every other cache stands. `publish` becomes a request of the hub that waits for the core's earlier requests whose home lies in the package; the hub's answer is the
offset of the new object, sealed and placed in the arena, or the code and offset of the check that failed. -/
def Obligations.CodeAndEmulation : Prop :=
  ((∀ (s : State) (k : Nat) (m : BitVec 8) (b : Bundle), (core s k).wait = .emu m b → quiet (core s k) = true →
    let c := core s k
    let a := spLoc k (fld (entD c 11) 0 21)
    ∃ t, exec (.emulationEntry k) s = .next t ∧
      core t k = { c with
        emuAct := true, emuMask := m, epc := c.pc, pc := BitVec.ofNat 64 (fld (entD c 10) 0 40), wait := .none, frz := 0
        skipBk := false } ∧
      rd t a 32 = b.toNat ∧ rd t (a + 32) 8 = c.pc.toNat ∧ rd t (a + 40) 24 = m.toNat ∧
      (∀ b, b < a ∨ a + 64 ≤ b → rdB t b = rdB s b) ∧ ∀ j, j ≠ k → core t j = core s j) ∧
  ∀ (s : State) (g : BitVec 4), Open s 0 g → (cur s).emuAct = true →
    ∃ t, exec (.emret g) s = .next t ∧ OnlyCore s t ∧ (cur t).pc = (cur s).epc ∧ (cur t).emuAct = false ∧ (cur t).emuMask = (cur s).emuMask ∧
      (cur t).x = (cur s).x) ∧
  ((∀ (s : State) (sc : BitVec 3) (g : BitVec 4), Open s 0 g → sc.toNat < 4 →
    exec (.icinv sc g) s = .next (retired1 s 0 1 (fun c => { c with wait := .icinv sc.toNat }))) ∧
  ∀ (s : State) (k sc : Nat), (core s k).wait = .icinv sc →
    let a := (fld (entD (core s k) 1) 0 52, fld (entD (core s k) 2) 0 41)
    ∃ t, exec (.icinvFinish k) s = .next t ∧ (core t k).wait = .none ∧ t.mem = s.mem ∧
      (∀ j e, inScope k sc j = true → e ∈ (core t j).ic → e ∈ (core s j).ic ∧ ¬ (a.1 ≤ e.1 ∧ e.1 < a.1 + a.2)) ∧
      (∀ j e, e ∈ (core s j).ic → ¬ (inScope k sc j = true ∧ a.1 ≤ e.1 ∧ e.1 < a.1 + a.2) → e ∈ (core t j).ic) ∧
      ∀ j, j ≠ k → { core t j with ic := (core s j).ic } = core s j) ∧
  ((∀ (s : State) (c a b : BitVec 6) (g : BitVec 4), Issues s (opPublish c a b g) → guardOn (cur s) g = true → masked (cur s) 0 = false →
    ∃ t r, exec (.publish c a b g) s = .next t ∧ r ∈ t.comps ∧ (∀ q ∈ s.comps, q.id < s.nextId → q ∈ t.comps) ∧
      t.comps.length = s.comps.length + 1 ∧ r.what = .publish s.cur (rx6 s a) (rx6 s b).toNat ∧
      r.n = 8 ∧ r.loc = slotLoc s (rx6 s c) 8 ∧ r.frame = (cur s).trec.w1 ∧
      (∀ q ∈ s.reqs, q.core = s.cur → q.stage = .out →
        reqScope q ≤ 3 ∨ (q.loc = none ∧ offPackage s q.ctx q.addr = false) → q.id ∈ r.deps) ∧
      fld (cur t).joincnt 0 16 = (fld (cur s).joincnt 0 16 + 1) % 2 ^ 16 ∧ (cur t).trec.committed = true) ∧
  ∀ (s : State) (r : Comp) (k n : Nat) (a : Word), findComp s r.id = some r → r.what = .publish k a n → performed s r.deps = true →
    ∃ t, exec (.publishValidation r.id) s = .next t ∧
      match placeObj s r.ctx true false n (staged s r.ctx a n) with
      | .ok u => t.mem = wrMem s.mem ((arenaOf s r.ctx).1 + u.2) n ((staged s r.ctx a n).getD 0) ∧
          (ctx t r.ctx).objs = (ctx s r.ctx).objs ++ [{
            off := u.2, size := n, published := true, base := (arenaOf s r.ctx).1, sum := sha512 (numBytes n ((staged s r.ctx a n).getD 0)) }] ∧
          t.comps = s.comps.map (fun c => if c.id = r.id then { c with what := .done, v := BitVec.ofNat 1024 (u.2 % 2 ^ 64) } else c)
      | .error e => t.mem = s.mem ∧ t.ctxs = s.ctxs ∧
          t.comps = s.comps.map (fun c => if c.id = r.id then
            { c with what := .done, v := BitVec.ofNat 1024 ((2 ^ 63 + e.1 * 2 ^ 48 + e.2) % 2 ^ 64) } else c))

/-- R119, R161, R162, R339: a status register is read with bound 2; SLK, SLKSTAT and FRZSTAT take a write, a set or a clear with xa or imm6; the clearing forms with bit
0 set clear MMSTAT whole; system level writes the window registers. PRIV. A write of any form to a register that user code may only read, and any access from user level to a number of 0x800 and above, takes a
precise trap with code PRIV; MMSTAT takes it from every form but the clearing ones. -/
def Obligations.StatusRegisters : Prop :=
  (∀ (s : State) (g : BitVec 4), Open s 0 g →
    (∀ (d : BitVec 6) (r : BitVec 12), csrUser r.toNat = true ∨ (sysLevel (cur s) = true ∧ csrSys r.toNat = true) →
      exec (.csrr d r g) s = .next (retired1 s 0 1 (scalarPut 2 d.toNat (csrRead s r.toNat)))) ∧
    ∀ (a x : BitVec 6),
      let wrote := fun (i : BitVec 6 → BitVec 12 → BitVec 4 → Instr) (y : BitVec 6) (f : Word → Word) =>
        exec (i y 0x000 g) s = .next (retired1 s 0 1 (fun c => putAt c 1 (.slk (f (csrRead s 0) &&& 0xFFF)))) ∧
        exec (i y 0x001 g) s = .next (retired1 s 0 1 (fun c => { c with slkstat := f c.slkstat &&& 0x1FFFFFFFFFF })) ∧
        exec (i y 0x003 g) s = .next (retired1 s 0 1 (fun c => { c with frzstat := f c.frzstat &&& 0x7FFFFFFFFFFFFFFF }))
      wrote .csrw a (fun _ => rx6 s a) ∧ wrote .csrs a (fun o => o ||| rx6 s a) ∧ wrote .csrc a (fun o => o &&& ~~~(rx6 s a)) ∧
      wrote .csrwI x (fun _ => BitVec.ofNat 64 x.toNat) ∧ wrote .csrsI x (fun o => o ||| BitVec.ofNat 64 x.toNat) ∧
      wrote .csrcI x (fun o => o &&& ~~~(BitVec.ofNat 64 x.toNat)) ∧
      exec (.csrc a 0x002 g) s =
        .next (retired1 s 0 1 (fun c => { c with mmstat := if (rx6 s a).getLsbD 0 then 0 else c.mmstat })) ∧
      exec (.csrcI x 0x002 g) s = .next (retired1 s 0 1 (fun c => { c with mmstat := if x.getLsbD 0 then 0 else c.mmstat })) ∧
      ∀ r : BitVec 12, 0x30 ≤ r.toNat → r.toNat ≤ 0x3F → sysLevel (cur s) = true → ∃ t, exec (.csrw a r g) s = .next t ∧
        tget 0 (ctx t (cur s).ctx).rwin (r.toNat - 0x30) = rx6 s a &&& 0xFFFFFFFFFFFF0001 ∧ (∀ b, rdB t b = rdB s b) ∧
        (cur t).x = (cur s).x) ∧
  (∀ (s : State) (g : BitVec 4) (r : BitVec 12), Open s 0 g → quiet (cur s) = true →
    let trapped := goTo (bump (takeTrap (modCur s giveUp) s.cur
      { info := repInfo s (cur s) { code := .priv }, off := repOff s (cur s) } []))
    (∀ d, 0x800 ≤ r.toNat → sysLevel (cur s) = false → exec (.csrr d r g) s = trapped) ∧
    ∀ a, (if r.toNat < 0x800 then csrUser r.toNat else !sysLevel (cur s) || csrSys r.toNat) = true →
      r.toNat ≠ 0 → r.toNat ≠ 1 → r.toNat ≠ 3 → ¬ (0x30 ≤ r.toNat ∧ r.toNat ≤ 0x3F ∧ sysLevel (cur s) = true) →
      exec (.csrw a r g) s = trapped ∧ exec (.csrs a r g) s = trapped ∧ exec (.csrwI a r g) s = trapped ∧ exec (.csrsI a r g) s = trapped ∧
      (r.toNat ≠ 2 → exec (.csrc a r g) s = trapped ∧ exec (.csrcI a r g) s = trapped))

/-! ## Loads, stores, tile transfers -/

namespace Sys2Proof.Machine

/-- R174 to R176: guard, destination, address, bytes, sign and landing class of the scalar loads. -/
def loadRow (s : State) : Instr → Option (BitVec 4 × BitVec 6 × Word × Nat × Bool × Nat)
  | .ldb d a t o g => some (g, d, rx6 s a + BitVec.ofInt 64 o.toInt, 1, true, t.toNat)
  | .ldbu d a t o g => some (g, d, rx6 s a + BitVec.ofInt 64 o.toInt, 1, false, t.toNat)
  | .ldh d a t o g => some (g, d, rx6 s a + BitVec.ofInt 64 (2 * o.toInt), 2, true, t.toNat)
  | .ldhu d a t o g => some (g, d, rx6 s a + BitVec.ofInt 64 (2 * o.toInt), 2, false, t.toNat)
  | .ldw d a t o g => some (g, d, rx6 s a + BitVec.ofInt 64 (4 * o.toInt), 4, true, t.toNat)
  | .ldwu d a t o g => some (g, d, rx6 s a + BitVec.ofInt 64 (4 * o.toInt), 4, false, t.toNat)
  | .ldd d a t o g => some (g, d, rx6 s a + BitVec.ofInt 64 (8 * o.toInt), 8, false, t.toNat)
  | .ldx d a b t g => some (g, d, BitVec.ofNat 64 ((rx6 s a).toNat + (rx6 s b).toNat * 8), 8, false, t.toNat)
  | _ => none

/-- R174 to R176: guard, value, address and bytes of the scalar stores. -/
def storeRow (s : State) : Instr → Option (BitVec 4 × Nat × Word × Nat)
  | .stb b a o g => some (g, (rx6 s b).toNat % 2 ^ 8, rx6 s a + BitVec.ofInt 64 o.toInt, 1)
  | .sth b a o g => some (g, (rx6 s b).toNat % 2 ^ 16, rx6 s a + BitVec.ofInt 64 (2 * o.toInt), 2)
  | .stw b a o g => some (g, (rx6 s b).toNat % 2 ^ 32, rx6 s a + BitVec.ofInt 64 (4 * o.toInt), 4)
  | .std b a o g => some (g, (rx6 s b).toNat, rx6 s a + BitVec.ofInt 64 (8 * o.toInt), 8)
  | .stx v a b z g => some (g, (rx6 s v).toNat % 2 ^ (8 * 2 ^ z.toNat),
      BitVec.ofNat 64 ((rx6 s a).toNat + (rx6 s b).toNat * 2 ^ z.toNat), 2 ^ z.toNat)
  | _ => none

/-- LT[k]: a landing delay as a bundle's requests see it (R90). -/
abbrev delayOf (s : State) (k : Nat) : Nat := (tget 0 (cur s).lt k).toNat

/-- R187 in plain arithmetic: the k-bit value that the handler leaves for old value `old`, operand `x` and second operand `y`. -/
def handlerNew (h k old x y : Nat) : Nat :=
  let sg := fun (w v : Nat) => if 2 ^ (w - 1) ≤ v then (v : Int) - 2 ^ w else v
  let satAdd := fun (w a b : Nat) => if a = 2 ^ (w - 1) ∨ b = 2 ^ (w - 1) then 2 ^ (w - 1)
    else ((Max.max (1 - 2 ^ (w - 1)) (Min.min (2 ^ (w - 1) - 1) (sg w a + sg w b))) % 2 ^ w : Int).toNat
  match h with
  | 0 => old
  | 1 => x
  | 2 => x
  | 3 => if old = y then x else old
  | 4 => (old + x) % 2 ^ k
  | 5 => satAdd k old x
  | 6 => old &&& x
  | 7 => old ||| x
  | 8 => old ^^^ x
  | 9 => if sg k x < sg k old then x else old
  | 10 => if sg k x > sg k old then x else old
  | 11 => Nat.min old x
  | 12 => Nat.max old x
  | 13 => if old < x then old + 1 else old
  | 14 => if old > x then old - 1 else old
  | 20 => ((List.range 4).map (fun j => satAdd 16 (old / 2 ^ (16 * j) % 2 ^ 16) (x / 2 ^ (16 * j) % 2 ^ 16) * 2 ^ (16 * j))).sum
  | 21 => ((List.range 8).map (fun j => satAdd 8 (old / 2 ^ (8 * j) % 2 ^ 8) (x / 2 ^ (8 * j) % 2 ^ 8) * 2 ^ (8 * j))).sum
  | 22 =>
    let ov := old % 2 ^ 32
    let oi := old / 2 ^ 32
    let nv := x % 2 ^ 32
    let ni := x / 2 ^ 32
    if ov = 2 ^ 31 ∨ nv = 2 ^ 31 then
      2 ^ 31 + 2 ^ 32 * (if nv = 2 ^ 31 ∧ (ov ≠ 2 ^ 31 ∨ ni < oi) then ni else oi)
    else if sg 32 nv > sg 32 ov ∨ (nv = ov ∧ ni < oi) then x else old
  | _ => old ||| 2 ^ (x % 64)

/-- What an instruction that only starts requests leaves alone: other cores, every byte of memory, every earlier request, and every register of its core (results in flight
and landing entries aside). -/
def StartsOnly (s t : State) : Prop :=
  (∀ a, rdB t a = rdB s a) ∧ (∀ k, k ≠ s.cur → core t k = core s k) ∧ (∀ r ∈ s.reqs, r.id < s.nextId → r ∈ t.reqs) ∧
    { steady (cur s) (cur t) with
      pend := (cur s).pend, land := (cur s).land, busy := (cur s).busy, joincnt := (cur s).joincnt, trec := (cur s).trec
      mmstat := (cur s).mmstat } = cur s

/-- Tables 1 and 2 of chapter 04 with R343 for the spaces of the package's memories: first bit and number of the bits that must be zero, bits of the
offset, first byte and bytes of the allotment, and whether the die or cluster that the address names is the task's to reach. -/
def spaceRow (s : State) (a : Word) : Option (Nat × Nat × Nat × Nat × Nat × Bool) :=
  let e := entNow s (cur s)
  let win := (65536 * fld (e 7) 0 8, 65536 * fld (e 7) 8 9)
  let ring := (1048576 * fld (e 8) 0 8, 1048576 * fld (e 8) 8 8)
  match spc a with
  | 1 => some (21, 39, 21, 65536 * fld (e 6) 0 5, 65536 * fld (e 6) 6 6, true)
  | 2 => some (24, 36, 24, win.1, win.2, true)
  | 3 => some (28, 32, 28, ring.1, ring.2, true)
  | 4 => some (30, 30, 28, ring.1, ring.2, inPart s (fld (e 0) 25 2) (bitsAt a 28 2))
  | 6 => some (28, 32, 24, win.1, win.2, bit (e 9) (16 * dieOf s.cur + bitsAt a 24 4))
  | _ => none

/-- A checked address leads out of the core's own scratchpad: a request goes there. -/
def GoesOut (s : State) (a : Word) (n al : Nat) (write : Bool) (w : Where) : Prop := chk s a n al write = .ok w ∧ spc a ≠ 1

end Sys2Proof.Machine

/-- R89 to R91, R94, R174 to R176: a scalar load whose address passes R88. From the own scratchpad the bytes are read at issue and land at c + max(4, LT);
from anywhere else a request of that many bytes is on its way to its home and its data lands at c + LT; a load of an own word with an uncorrectable error is a request too, and
fails where it performs. Nothing in memory changes. The landing of a scalar load. At its
landing cycle, with its data in the lehr, the register takes the bytes, sign-extended or not (x0 takes nothing); without the data the core freezes for the ccy, which counts as late data. -/
def Obligations.ScalarLoads : Prop :=
  (∀ (s : State) (i : Instr) (g : BitVec 4) (d : BitVec 6) (a : Word) (n : Nat) (sg : Bool) (k : Nat),
    loadRow s i = some (g, d, a, n, sg, k) → Open s 3 g → RoomFor s 8 →
    (∀ l, spc a = 1 → ownHeld s = false → chk s a n n false = .ok (.loc l) → errIn s l n = none →
      ∃ t e, exec i s = .next t ∧ StartsOnly s t ∧ e ∈ (cur t).land ∧ e.id = s.nextId ∧ e.dst = .x d.toNat n sg ∧ e.own = true ∧
        e.at_ = (cur s).ctime + Nat.max 4 (delayOf s k) ∧ e.parts = [⟨0, some (BitVec.ofNat 1024 (rd s l n))⟩]) ∧
    (∀ l, spc a = 1 → ownHeld s = false → chk s a n n false = .ok (.loc l) → errIn s l n ≠ none →
      ∃ t e r, exec i s = .next t ∧ StartsOnly s t ∧ e ∈ (cur t).land ∧ e.id = s.nextId ∧ e.dst = .x d.toNat n sg ∧
        e.at_ = (cur s).ctime + Nat.max 4 (delayOf s k) ∧ e.parts = [⟨r.id, none⟩] ∧ r ∈ t.reqs ∧ r.kind = .load ∧ r.loc = some l ∧ r.n = n) ∧
    ∀ w, GoesOut s a n n false w →
      ∃ t e r, exec i s = .next t ∧ StartsOnly s t ∧ e ∈ (cur t).land ∧ e.id = s.nextId ∧ e.dst = .x d.toNat n sg ∧
        e.at_ = (cur s).ctime + delayOf s k ∧ e.parts = [⟨r.id, none⟩] ∧ r ∈ t.reqs ∧ r.core = s.cur ∧ r.kind = .load ∧ r.addr = a ∧
        r.loc = w.loc? ∧ r.n = n ∧ r.dst = .land e.id 0 ∧ r.stage = .out ∧ r.wr = []) ∧
  (∀ (s : State) (k : Nat) (l : Landing) (d n : Nat) (sg : Bool), (core s k).land = [l] → l.dst = .x d n sg → l.at_ ≤ (core s k).ctime →
    (∀ v q, l.parts = [⟨q, some v⟩] → l.dead = [] → pendX (core s k) d = false →
      let w := v.toNat % 2 ^ (8 * n)
      exec (.landingCycle k) s = .next (setCore s k { core s k with
        land := []
        x := if d = 0 then (core s k).x else tset 0 (core s k).x d (BitVec.ofInt 64 (if sg = true ∧ 2 ^ (8 * n - 1) ≤ w then (w : Int) - 2 ^ (8 * n) else w)) })) ∧
    ∀ q, l.parts = [⟨q, none⟩] →
      exec (.landingCycle k) s = .next (setCore s k { core s k with
        wtime := (core s k).wtime + 1, frz := (core s k).frz + 1
        frzstat := if fld (core s k).frzstat 0 21 + 1 < 2 ^ 21 then setFld (core s k).frzstat 0 21 (fld (core s k).frzstat 0 21 + 1)
          else (core s k).frzstat }))

/-- R89, R94, R97, R174 to R176: a scalar store whose address passes R88. To the own scratchpad the low bytes of the register stand at the address's location after the commit; to
anywhere else a request carries them to their home. Every other byte of memory, and every register, stands; but a store into the frame of a live record leaves that frame
undefined (R30). -/
def Obligations.ScalarStores : Prop :=
  ∀ (s : State) (i : Instr) (g : BitVec 4) (v : Nat) (a : Word) (n : Nat), storeRow s i = some (g, v, a, n) → Open s 3 g → RoomFor s 0 →
    (∀ l, spc a = 1 → ownHeld s = false → chk s a n n true = .ok (.loc l) →
      let t := retired1 (softDone (errClear (wr s l n v) l n) l n) 3 1 id
      exec i s = .next t ∧ (frameHits s l n = [] → rd t l n = v) ∧ (∀ k, k ≠ s.cur → core t k = core s k) ∧ t.reqs = s.reqs ∧
      ∀ b, b < l ∨ l + n ≤ b → (∀ e ∈ frameHits s l n, b < frLoc (e.2.1 / 16) e.2.2 ∨ frLoc (e.2.1 / 16) e.2.2 + 128 ≤ b) →
        rdB t b = rdB s b) ∧
    ∀ w, GoesOut s a n n true w →
      ∃ t r, exec i s = .next t ∧ StartsOnly s t ∧ (cur t).pend = (cur s).pend ∧ (cur t).land = (cur s).land ∧ r ∈ t.reqs ∧ r.core = s.cur ∧
        r.kind = .store ∧ r.addr = a ∧ r.loc = w.loc? ∧ r.n = n ∧ r.wr = bytesOf 0 n v ∧ r.dst = .none ∧ r.stage = .out ∧
        r.posted = false ∧ r.slack = rslk s

/-- R85 to R88, R140, R171, R343, R378: a load or store whose address fails a check does not issue: the fault is precise, and names the address and the access. The
checks of an address in the order of Table 2: spaces 0x7 to 0xF, the bits that must be zero and the coordinates of space 0x5; ring offsets from 192 MiB up; the allotment; the alignment.
Then the location is that of the space: of the issuing core's scratchpad, of a cluster's window or a die's ring; space 0x5 leads to its target, and space 0x0 is translated: a walk that fails gives its fault, and a leaf
without the permission gives PERMR, PGCOW or PERMW at its level. -/
def Obligations.AddressChecks : Prop :=
  (∀ (s : State) (a : Word) (f : WFail), quiet (cur s) = true → (spc a = 1 → ownHeld s = false) →
    let fault := fun (acc : Nat) =>
      ({ code := f.code, slot := 3, engine := 2, addr := a, acc := acc, space := spc a, wlvl := f.lvl, pa := f.pa } : FaultInfo)
    let trapped := fun (acc : Nat) => goTo (bump (takeTrap (countErr (modCur s giveUp) f.code) s.cur
      { info := repInfo s (cur s) (fault acc), off := repOff s (cur s) } []))
    (∀ i g d n sg k, loadRow s i = some (g, d, a, n, sg, k) → Open s 3 g → RoomFor s 8 → chk s a n n false = .error f → exec i s = trapped 0) ∧
    ∀ i g v n, storeRow s i = some (g, v, a, n) → Open s 3 g → RoomFor s 0 → chk s a n n true = .error f → exec i s = trapped 1) ∧
  (∀ (s : State) (a : Word) (n al : Nat) (w : Bool),
    let stops := fun (c : Code) => chk s a n al w = .error ⟨c, 0, 0⟩
    let pl := planOf s (cur s).ctx
    let page := bitsAt a 0 48
    (7 ≤ spc a → stops .addrspace) ∧
    (∀ lo len o base size mine, spaceRow s a = some (lo, len, o, base, size, mine) →
      let b := bitsAt a 0 o
      let inside := base ≤ b ∧ b + n ≤ base + size ∧ mine = true
      let high := (spc a = 3 ∨ spc a = 4) ∧ 0xC000000 ≤ b
      (bitsAt a lo len ≠ 0 → stops .addrspace) ∧
      (bitsAt a lo len = 0 → high ∨ ¬ inside → stops .bound) ∧
      (bitsAt a lo len = 0 → ¬ high → inside → a.toNat % al ≠ 0 → stops .align) ∧
      (bitsAt a lo len = 0 → ¬ high → inside → a.toNat % al = 0 → chk s a n al w = .ok (.loc (
        if spc a = 1 then spLoc s.cur b
        else if spc a = 3 then ringLoc (dieOf s.cur) b
        else if spc a = 4 then ringLoc (bitsAt a 28 2) b
        else winLoc (dieOf s.cur) (if spc a = 2 then cluInDie s.cur else bitsAt a 24 4) b)))) ∧
    (spc a = 5 →
      let there := bitsAt a 56 4 < pl.dx ∧ bitsAt a 52 4 < pl.dy ∧ bitsAt a 48 4 < pl.dz
      (¬ there → stops .addrspace) ∧ (there → a.toNat % al ≠ 0 → stops .align) ∧ (there → a.toNat % al = 0 → chk s a n al w = .ok .far)) ∧
    (spc a = 0 →
      (bitsAt a 48 12 ≠ 0 → stops .addrspace) ∧ (bitsAt a 48 12 = 0 → a.toNat % al ≠ 0 → stops .align) ∧
      (bitsAt a 48 12 = 0 → a.toNat % al = 0 →
        (∀ f, xlOf s s.cur (cur s).ctx (entD (cur s) 5) page = .error f → chk s a n al w = .error f) ∧
        ∀ x, xlOf s s.cur (cur s).ctx (entD (cur s) 5) page = .ok x →
          let denied := fun (c : Code) => chk s a n al w = .error ⟨c, if x.size = 2 ^ 29 then 2 else 1, 0⟩
          (w = false → x.r = false → denied .permr) ∧ (w = true → x.w = false → x.cow = true → denied .pgcow) ∧
          (w = true → x.w = false → x.cow = false → denied .permw) ∧
          ((if w then x.w else x.r) = true → chk s a n al w = .ok (.loc (x.pa + page % x.size))))))

/-- R90, R91, R177 to R181: a tile load or B-plane load. Its 128 lines come from xa by the stride (or, for `tldt`, in rows of E lines); from the own scratchpad
they are read at issue and land no earlier than c + 12, and from anywhere else (or where one holds an uncorrectable error) each is one request; nothing in memory changes. A landed tile. `tld` puts line i into row
i; `tldt` with element size E puts element j of row i from row j of the source, at element i. -/
def Obligations.TileLoads : Prop :=
  (∀ (s : State) (i : Instr) (o : SlotOp) (f : TForm) (a b : BitVec 6) (k : Nat) (dst : LandDst),
    ((∃ d t g, i = .tld d t a b g ∧ o = opTld d t a b g ∧ f = .tld ∧ k = t.toNat ∧ dst = .tile d.toNat 0) ∨
      (∃ d t g, i = .tldt d t a b g ∧ o = opTldt d t a b g ∧ f = .tldt ∧ k = t.toNat ∧ dst = .tile d.toNat (2 ^ bitsAt (rx6 s b) 62 2)) ∨
      (∃ t m g, i = .bld t a b m g ∧ o = opBld t a b m g ∧ f = .bld ∧ k = t.toNat ∧
        dst = .btile (bitsAt (rx6 s b) 32 6) (if m = 1 then some (rsm s, BitVec.ofNat 5 (fld (cur s).smstat 16 5)) else none))) →
    Issues s o → o.on (cur s) = true →
    let lines := geoLines (rx6 s a) (rx6 s b) f
    lines.length = 128 ∧
    ∃ t e, exec i s = .next t ∧ StartsOnly s t ∧ e ∈ (cur t).land ∧ e.id = s.nextId ∧ e.dst = dst ∧
      (spc (rx6 s a) = 1 → (∀ l ∈ lines, errIn s (locOf s l 128 false) 128 = none) →
        e.at_ = (cur s).ctime + Nat.max 12 (delayOf s k) ∧ e.own = true ∧
        e.parts = lines.map (fun l => ⟨0, some (BitVec.ofNat 1024 (rd s (locOf s l 128 false) 128))⟩)) ∧
      (spc (rx6 s a) ≠ 1 ∨ (∃ l ∈ lines, errIn s (locOf s l 128 false) 128 ≠ none) →
        e.at_ = (cur s).ctime + (if spc (rx6 s a) = 1 then Nat.max 12 (delayOf s k) else delayOf s k) ∧ e.parts.length = 128 ∧
        ∀ n, n < 128 → ∃ r ∈ t.reqs, r.kind = .load ∧ r.core = s.cur ∧ r.addr = lines.getD n 0 ∧ r.n = 128 ∧ r.dst = .land e.id n ∧
          e.parts.getD n ⟨0, none⟩ = ⟨r.id, none⟩)) ∧
  (∀ (l : Landing) (i j : Nat), i < 128 → j < 128 →
    fld (landTile l 0) (8 * (128 * i + j)) 8 = nfld (partData l i) (8 * j) 8 ∧
    ∀ e, e = 1 ∨ e = 2 ∨ e = 4 → j < 128 / e →
      fld (landTile l e) (8 * (128 * i + j * e)) (8 * e) = nfld (partData l (j * e + i * e / 128)) (8 * (i * e % 128)) (8 * e))

/-- R177, R180: `tst` stores the 128 rows of its tile register. To the own scratchpad they stand there after the commit, each row at its line (where the lines differ), and every byte
outside the lines stands (a line in the frame of a live record leaves that frame undefined, R30); to anywhere else each row is one request. -/
def Obligations.TileStores : Prop :=
  ∀ (s : State) (d : BitVec 4) (a b : BitVec 6) (g : BitVec 4), Issues s (opTst d a b g) → (opTst d a b g).on (cur s) = true →
    let lines := geoLines (rx6 s a) (rx6 s b) .tst
    let row := fun (n : Nat) => ((tget 0 (cur s).t d.toNat).extractLsb' (1024 * n) 1024).toNat
    let at_ := fun (n : Nat) => locOf s (lines.getD n 0) 128 true
    ∃ t, exec (.tst d a b g) s = .next t ∧ (cur t).t = (cur s).t ∧ (∀ k, k ≠ s.cur → core t k = core s k) ∧
      (spc (rx6 s a) = 1 → (∀ n, n < 128 → frameHits s (at_ n) 128 = []) →
        (∀ x, (∀ n, n < 128 → x < at_ n ∨ at_ n + 128 ≤ x) → rdB t x = rdB s x) ∧
        ((∀ m n, m < n → n < 128 → lines.getD m 0 ≠ lines.getD n 0) → ∀ n, n < 128 → rd t (at_ n) 128 = row n)) ∧
      (spc (rx6 s a) ≠ 1 → (∀ x, rdB t x = rdB s x) ∧
        ∀ n, n < 128 → ∃ r ∈ t.reqs, r.kind = .store ∧ r.core = s.cur ∧ r.addr = lines.getD n 0 ∧ r.wr = bytesOf 0 128 (row n))

/-! ## Remote requests, atomics, fences -/

/-- R182, R183, R105: `rld` asks for 8 × 2^z bytes that go to a reply slot of the own frame and counts itself in JOINCNT.ISSUED (in the own scratchpad they are read at once); `rst` posts a store that only `drain.r` waits for, and marks
the task COMMITTED: apart from that flag no byte of memory changes. -/
def Obligations.RemoteRequests : Prop :=
  ∀ (s : State) (a b : BitVec 6) (j : BitVec 1) (x : BitVec 5) (g : BitVec 4),
    let slack := if j = 1 then x.toNat * 128 else rslk s
    let r0 := frameHome s (cur s).ctx (dieOf s.cur) (cur s).trec.w1
    (∀ z w, Issues s (opRld b a z j x g) → (opRld b a z j x g).on (cur s) = true → GoesOut s (rx6 s a) (8 * 2 ^ z.toNat) (8 * 2 ^ z.toNat) false w →
      ∃ t r, exec (.rld b a z j x g) s = .next t ∧ StartsOnly s t ∧ r ∈ t.reqs ∧ r.kind = .load ∧ r.addr = rx6 s a ∧ r.n = 8 * 2 ^ z.toNat ∧
        r.slack = slack ∧ r.dst = .slot (slotLoc s (rx6 s b) (8 * 2 ^ z.toNat)) (8 * 2 ^ z.toNat) (cur s).trec.w1 ∧
        fld (cur t).joincnt 0 16 = (fld (cur s).joincnt 0 16 + 1) % 65536) ∧
    (∀ z l, Issues s (opRld b a z j x g) → (opRld b a z j x g).on (cur s) = true → spc (rx6 s a) = 1 →
      chk s (rx6 s a) (8 * 2 ^ z.toNat) (8 * 2 ^ z.toNat) false = .ok (.loc l) → errIn s l (8 * 2 ^ z.toNat) = none →
      ∃ t c, exec (.rld b a z j x g) s = .next t ∧ StartsOnly s t ∧ c ∈ t.comps ∧ c.what = .done ∧ c.n = 8 * 2 ^ z.toNat ∧
        c.loc = slotLoc s (rx6 s b) (8 * 2 ^ z.toNat) ∧ c.v = BitVec.ofNat 1024 (rd s l (8 * 2 ^ z.toNat)) ∧ c.frame = (cur s).trec.w1 ∧
        fld (cur t).joincnt 0 16 = (fld (cur s).joincnt 0 16 + 1) % 65536) ∧
    ∀ z w, Issues s (opRst b a z j x g) → (opRst b a z j x g).on (cur s) = true → GoesOut s (rx6 s a) (2 ^ z.toNat) (2 ^ z.toNat) true w →
      ∃ t r, exec (.rst b a z j x g) s = .next t ∧ r ∈ t.reqs ∧ r.kind = .store ∧ r.addr = rx6 s a ∧ r.posted = true ∧ r.slack = slack ∧
        r.wr = bytesOf 0 (2 ^ z.toNat) ((rx6 s b).toNat % 2 ^ (8 * 2 ^ z.toNat)) ∧ (cur t).trec.committed = true ∧
        (rdRec t r0).committed = true ∧ (∀ q, q < r0 ∨ r0 + 8 ≤ q → rdB t q = rdB s q) ∧ (cur t).x = (cur s).x

/-- R184, R185: an atomic that leaves its core is one request with its handler and four operand registers; its result goes to a landing entry (`amo`), to a reply slot of the own frame, which
counts in JOINCNT.ISSUED (`amo.f`), or nowhere (`amo.n`, posted). A word handler without release on the own scratchpad performs at issue: its location takes the new value there, and the
result lands no earlier than c + 4, or is a completion at once. -/
def Obligations.AtomicsIssue : Prop :=
  ∀ (s : State) (i : Instr) (d a : BitVec 6) (h : BitVec 5) (g : BitVec 4) (f : AForm) (w : Where),
    ((∃ t, i = .amo d a h t g ∧ f = .land t.toNat) ∨ (i = .amoF d a h g ∧ f = .slot) ∨ (i = .amoN d a h g ∧ f = .posted)) →
    let o := opAtomic (amoRegsOk d.toNat a.toNat h) (amoIn d a h) f g
    let at_ := rx6 s (a + 1)
    let n := amoRes h.toNat
    let r0 := frameHome s (cur s).ctx (dieOf s.cur) (cur s).trec.w1
    Issues s o → o.on (cur s) = true → amoAddr s (amoIn d a h s) = .ok w →
    (∀ l, spc (rx6 s a) = 1 → w = .loc l → bitsAt at_ 5 2 < 2 → (h.toNat ≤ 14 ∨ (20 ≤ h.toNat ∧ h.toNat ≤ 22) ∨ h.toNat = 25) →
      let m := amoN h.toNat (bitsAt at_ 0 2)
      let k := 8 * m
      let old := rd s l m
      let res := BitVec.ofNat 1024 (if h = 1 then 0 else old)
      errIn s l m = none → (h ≠ 0 → frameHits s l m = []) → (l + m ≤ r0 ∨ r0 + 8 ≤ l) →
      ∃ t, exec i s = .next t ∧ rd t l m = handlerNew h.toNat k old ((rx6 s d).toNat % 2 ^ k) ((rx6 s (d + 1)).toNat % 2 ^ k) ∧
        (∀ q, (q < l ∨ l + m ≤ q) → (q < r0 ∨ r0 + 8 ≤ q) → rdB t q = rdB s q) ∧ (cur t).x = (cur s).x ∧ t.reqs = s.reqs ∧
        match f with
        | .land c => t.comps = s.comps ∧ ∃ e ∈ (cur t).land, e.parts = [⟨0, some res⟩] ∧ e.own = true ∧ e.dst = .x d.toNat 8 false ∧
            e.at_ = (cur s).ctime + Nat.max 4 (delayOf s c)
        | .slot => (∃ c, t.comps = s.comps ++ [c] ∧ c.what = .done ∧ c.loc = slotLoc s ((cur s).trec.w1 + BitVec.ofNat 64 (8 * bitsAt at_ 20 12)) 8 ∧
            c.n = 8 ∧ c.v = res ∧ c.frame = (cur s).trec.w1) ∧ fld (cur t).joincnt 0 16 = (fld (cur s).joincnt 0 16 + 1) % 65536
        | .posted => t.comps = s.comps) ∧
    (spc (rx6 s a) ≠ 1 → ∃ t r, exec i s = .next t ∧ r ∈ t.reqs ∧ r.kind = .amo ∧ r.h = h.toNat ∧ r.addr = rx6 s a ∧ r.loc = w.loc? ∧ r.n = amoN h.toNat (bitsAt at_ 0 2) ∧
      r.op = rx6 s d ∧ (h ≠ 23 → r.op2 = rx6 s (d + 1) ∧ r.op3 = rx6 s (d + 2)) ∧ r.op4 = rx6 s (d + 3) ∧ r.stage = .out ∧
      (∀ q, q < frameHome s (cur s).ctx (dieOf s.cur) (cur s).trec.w1 ∨ frameHome s (cur s).ctx (dieOf s.cur) (cur s).trec.w1 + 8 ≤ q →
        rdB t q = rdB s q) ∧ (cur t).x = (cur s).x ∧
      match f with
      | .land k => ∃ e ∈ (cur t).land, r.dst = .land e.id 0 ∧ e.parts = [⟨r.id, none⟩] ∧ e.at_ = (cur s).ctime + delayOf s k ∧
          e.dst = (if n = 16 then .pair d.toNat else .x d.toNat 8 false)
      | .slot => r.dst = .slot (slotLoc s ((cur s).trec.w1 + BitVec.ofNat 64 (8 * bitsAt at_ 20 12)) n) n (cur s).trec.w1 ∧
          fld (cur t).joincnt 0 16 = (fld (cur s).joincnt 0 16 + 1) % 65536
      | .posted => r.dst = .none ∧ r.posted = true)

/-- R96, R101, R196 to R198: `fence` waits for the requests of its first set, `drain` for the programs handed over on a channel, `drain.r` for the posted requests, `bwait` for a phase that
its polls read; none of them changes a byte of memory or a register. The ends of those waits: every request of the set has performed; every posted request has been
acknowledged; every copy of the channel's programs has performed; a poll within the limit reads another phase than the awaited one. -/
def Obligations.FencesDrainsWaits : Prop :=
  (∀ (s : State) (g : BitVec 4), Open s 3 g →
    (∀ sc : BitVec 3, sc.toNat ≤ 4 → ∃ t ids, exec (.fence sc g) s = .next t ∧ (cur t).mwait = .reqs ids ∧
      (∀ r ∈ s.reqs, r.id ∈ ids ↔ ∃ q ∈ s.reqs, q.id = r.id ∧ q.core = s.cur ∧ q.stage = .out ∧ reqScope q ≤ sc.toNat) ∧
      (∀ a, rdB t a = rdB s a) ∧ (cur t).x = (cur s).x ∧ ∀ k, k ≠ s.cur → core t k = core s k) ∧
    (∀ c : BitVec 2, ∃ ids, exec (.drain c g) s = .next (retired1 s 3 1 (fun k => { k with mwait := .drain ids })) ∧
      ∀ q, q ∈ ids ↔ ∃ e ∈ (cur s).ch, ∃ p ∈ e.2.progs, p.chan = c.toNat ∧ p.id = q) ∧
    (∃ ids, exec (.drainR g) s = .next (retired1 s 3 1 (fun k => { k with mwait := .acks ids })) ∧
      ∀ q, q ∈ ids ↔ ∃ r ∈ s.reqs, r.id = q ∧ r.core = s.cur ∧ r.posted = true) ∧
    ∀ (d : BitVec 3) (a b : BitVec 6) (sc : BitVec 3) (w : Where), sc.toNat ≤ 4 → RoomFor s 0 → (spc (rx6 s a) = 1 → ownHeld s = false) →
      chk s (rx6 s a) 8 16 false = .ok w →
      ∃ t r, exec (.bwait d a b sc g) s = .next t ∧
        StartsOnly s { t with cores := (modCur t (fun c => { c with mwait := (cur s).mwait, ch := (cur s).ch })).cores } ∧
        ((∀ e ∈ (cur s).ch, ∀ p ∈ e.2.progs, p.id < s.nextId) → (cur t).ch = (cur s).ch) ∧
        r ∈ t.reqs ∧ r.kind = .load ∧ r.addr = rx6 s a ∧ r.n = 8 ∧ r.dst = .poll ∧
        (cur t).mwait = .bw (if (cur s).mwait = .none ∧ stageOver true (cur s) d.toNat then 0 else d.toNat)
          (BitVec.ofNat 4 (bitsAt (rx6 s b) 32 4)) (rx6 s a) ((cur s).ctime + 1 + bitsAt (rx6 s b) 0 32) sc.toNat
          (some r.id)) ∧
  (∀ (s : State) (k : Nat),
    let go := setCore s k { core s k with mwait := .none }
    let copied := fun (ids : List Nat) => ∀ e ∈ s.cores, ∀ x ∈ e.2.ch, x.2.opens ids = false
    (∀ ids, (core s k).mwait = .reqs ids → (∀ r ∈ s.reqs, r.id ∈ ids → r.stage = .done) → copied ids →
      exec (.fenceComplete k) s = .next go) ∧
    (∀ ids, (core s k).mwait = .acks ids → (∀ r ∈ s.reqs, r.id ∉ ids) → exec (.drainComplete k) s = .next go) ∧
    (∀ ids, (core s k).mwait = .drain ids → (∀ r ∈ s.reqs, r.id ∈ ids → r.stage = .done) → copied ids →
      exec (.drainComplete k) s = .next go) ∧
    ∀ (r : Req) (pd : Nat) (ph : BitVec 4) (a : Word) (last sc : Nat), findReq s r.id = some r → r.core = k → r.stage = .done → r.dst = .poll →
      r.bad = false → r.exh = false → (core s k).prd = none → (core s k).mwait = .bw pd ph a last sc (some r.id) → reqScope r ≤ sc →
      nfld r.res.toNat 32 4 ≠ ph.toNat → (core s k).ctime ≤ last →
      ∃ t, exec (.bwaitPollReply r.id) s = .next t ∧ t.mem = s.mem ∧ (∀ q ∈ t.reqs, q ∈ s.reqs ∧ q.id ≠ r.id) ∧
        core t k = { core s k with mwait := .none, p := if pd = 0 then (core s k).p else setFld (core s k).p pd 1 1 })

/-! ## What happens at a home -/

namespace Sys2Proof.Machine

/-- A request that has performed and whose reply or acknowledgement is on its way with `v`. -/
def HasPerformed (u : State) (r : Req) (v : Nat) : Prop :=
  ∃ q, findReq u r.id = some q ∧ q.stage = .done ∧ q.res = BitVec.ofNat 1024 v ∧ q.dst = r.dst ∧ q.core = r.core ∧ q.bad = r.bad ∧
    q.exh = r.exh

/-- The rows of the opcode table in which an atomic performs: handler, request, service time (Table 8 of chapter 07). -/
def amoRow : Instr → Option (Nat × Nat × Nat)
  | .amoLoad id t => some (0, id, t)
  | .amoStore id t => some (1, id, t)
  | .amoSwap id t => some (2, id, t)
  | .amoCas id t => some (3, id, t)
  | .amoAdd id t => some (4, id, t)
  | .amoSaturatingAdd id t => some (5, id, t)
  | .amoAnd id t => some (6, id, t)
  | .amoOr id t => some (7, id, t)
  | .amoXor id t => some (8, id, t)
  | .amoSignedMin id t => some (9, id, t)
  | .amoSignedMax id t => some (10, id, t)
  | .amoUnsignedMin id t => some (11, id, t)
  | .amoUnsignedMax id t => some (12, id, t)
  | .fetchIncrementWithBound id t => some (13, id, t)
  | .fetchDecrementWithFloor id t => some (14, id, t)
  | .packedSatAddInt16 id t => some (20, id, t)
  | .packedSatAddInt8 id t => some (21, id, t)
  | .maxWithIndex id t => some (22, id, t)
  | .bitTestAndSet id t => some (25, id, t)
  | _ => none

end Sys2Proof.Machine

/-- R110, R187: the word handlers, at their one instant: the location takes the new value, the result is the old value (zero for a store), and every other byte stands. (No word of the
location has an uncorrectable error, R388, and it lies in no frame of a live record, R30.) -/
def Obligations.AtomicHandlers : Prop :=
  ∀ (s : State) (i : Instr) (r : Req) (h l t : Nat), amoRow i = some (h, r.id, t) → findReq s r.id = some r → r.kind = .amo → r.h = h →
    canPerform s r = true → reqLoc s r = .ok l → (∀ a n f, r.dst ≠ .slot a n f) →
    (r.n = 1 ∨ r.n = 2 ∨ r.n = 4 ∨ r.n = 8) → (3 ≤ h ∧ h ≤ 14 ∧ ¬ (6 ≤ h ∧ h ≤ 8) → 4 ≤ r.n) → (20 ≤ h → r.n = 8) →
    errIn s l r.n = none → (h ≠ 0 → frameHits s l r.n = []) →
    let k := 8 * r.n
    let old := rd s l r.n
    ∃ u, exec i s = .next u ∧ rd u l r.n = handlerNew h k old (r.op.toNat % 2 ^ k) (r.op2.toNat % 2 ^ k) ∧
      (∀ b, b < l ∨ l + r.n ≤ b → rdB u b = rdB s b) ∧ HasPerformed u r (if h = 1 then 0 else old) ∧ u.cores = s.cores

/-- R111, R188, R190, R193 to R195 and handler 24: the handlers of objects. The barrier's arrival, push and pop of a queue object, the wide add with its one clamp, the 128-bit compare and
swap, and the merge of a scale entry (a barrier's completed phase keeps the reserved bits, and with WAKE sends a join decrement with the arrival's slack, to the arriving core's package): the new object, the result, and every other byte as it was. (No word of the object has an uncorrectable error, and it lies in no frame
of a live record.) -/
def Obligations.ObjectHandlers : Prop :=
  ∀ (s : State) (r : Req) (l t : Nat), findReq s r.id = some r → r.kind = .amo → canPerform s r = true → reqLoc s r = .ok l →
    (∀ a n f, r.dst ≠ .slot a n f) → errIn s l r.n = none → frameHits s l r.n = [] →
    let op := r.op.toNat
    let done := fun (u : State) (n new res : Nat) =>
      rd u l n = new ∧ (∀ b, b < l ∨ l + n ≤ b → rdB u b = rdB s b) ∧ HasPerformed u r res
    (r.h = 15 →
      let o := BitVec.ofNat 128 (rd s l 16)
      let total := fld o 16 16 + op % 65536
      (op % 65536 = 0 → ∃ u, exec (.barrierArrive r.id t) s = .next u ∧ done u 16 o.toNat o.toNat) ∧
      (op % 65536 ≠ 0 → total < fld o 0 16 → ∃ u, exec (.barrierArrive r.id t) s = .next u ∧ done u 16 (setFld o 16 16 total).toNat o.toNat) ∧
      (op % 65536 ≠ 0 → fld o 0 16 ≤ total →
        let wake : Word := BitVec.ofNat 64 (fld o 64 64)
        let ends := fun (after : State → Prop) => ∃ u n, exec (.barrierArrive r.id t) s = .next u ∧
          done u 16 (BitVec.toNat (w := 128) n) (o.toNat ||| (if fld o 0 16 < total then 3 else 2) * 2 ^ 37) ∧
          fld n 0 16 = fld o 0 16 ∧ fld n 16 16 = 0 ∧ fld n 32 4 = (fld o 32 4 + 1) % 16 ∧ fld n 64 64 = fld o 64 64 ∧
          fld n 36 1 = (if fld o 0 16 < total then 1 else fld o 36 1) ∧ fld n 37 3 = fld o 37 3 ∧ fld n 56 8 = fld o 56 8 ∧
          fld n 40 16 = Nat.min (fld o 40 16 + (total - fld o 0 16)) 65535 ∧ after u
        (wake = 0 → ends (fun u => u.comps = s.comps ∧ u.reqs.length = s.reqs.length)) ∧
        (wake ≠ 0 → (∀ h, r.dst ≠ .remote h) → frameOk (ctxD s r.ctx) (dieOf r.core) (frameCanon r.core wake) = true →
          ends (fun u => ∃ c : Comp, u.comps = s.comps ++ [c] ∧ c.what = .done ∧ c.n = 0 ∧ c.frame = frameCanon r.core wake ∧ c.die = dieOf r.core ∧
            c.ctx = r.ctx ∧ c.slack = r.slack)) ∧
        ∀ h, wake ≠ 0 → r.dst = .remote h → r.id ≠ s.nextId →
          ends (fun u => u.comps = s.comps ∧ ∃ q ∈ u.reqs, q.id = s.nextId ∧ q.h = 17 ∧ q.addr = wake ∧ q.slack = r.slack ∧ q.dst = .wake h))) ∧
    (r.h = 18 →
      let head := rd s l 4
      let tail := rd s (l + 4) 4
      ((tail + 2 ^ 32 - head) % 2 ^ 32 < 8 → ∃ u, exec (.queuePush r.id t) s = .next u ∧ rd u (l + 64 + 8 * (tail % 8)) 8 = op ∧
        rd u (l + 4) 4 = (tail + 1) % 2 ^ 32 ∧ rd u l 4 = head ∧ HasPerformed u r (head + 2 ^ 32 * tail) ∧
        ∀ b, b < l + 4 ∨ l + 8 ≤ b → b < l + 64 + 8 * (tail % 8) ∨ l + 64 + 8 * (tail % 8) + 8 ≤ b → rdB u b = rdB s b) ∧
      (8 ≤ (tail + 2 ^ 32 - head) % 2 ^ 32 → ∃ u, exec (.queuePush r.id t) s = .next u ∧ (∀ b, rdB u b = rdB s b) ∧
        HasPerformed u r (head + 2 ^ 32 * tail))) ∧
    (r.h = 19 →
      let head := rd s l 4
      let tail := rd s (l + 4) 4
      (tail = head → ∃ u, exec (.queuePop r.id t) s = .next u ∧ (∀ b, rdB u b = rdB s b) ∧ HasPerformed u r (2 ^ 64 * (head + 2 ^ 32 * tail))) ∧
      (tail ≠ head → ∃ u, exec (.queuePop r.id t) s = .next u ∧ rd u l 4 = (head + 1) % 2 ^ 32 ∧ (∀ b, b < l ∨ l + 4 ≤ b → rdB u b = rdB s b) ∧
        HasPerformed u r (rd s (l + 64 + 8 * (head % 8)) 8 + 2 ^ 64 * (head + 2 ^ 32 * tail)))) ∧
    (r.h = 23 → r.op2 = 0 →
      let old := rd s l 8
      let v : Int := if 2 ^ 31 ≤ op % 2 ^ 32 then ((op % 2 ^ 32 : Nat) : Int) - 2 ^ 32 else ((op % 2 ^ 32 : Nat) : Int)
      let o : Int := if 2 ^ 63 ≤ old then (old : Int) - 2 ^ 64 else old
      ∃ u, exec (.wideAdd r.id t) s = .next u ∧
        done u 8 (if op % 2 ^ 32 = 2 ^ 31 ∨ old = 2 ^ 63 then 2 ^ 63
          else ((Max.max (1 - 2 ^ 63) (Min.min (2 ^ 63 - 1) (o + v))) % 2 ^ 64 : Int).toNat) old) ∧
    (r.h = 24 →
      let old := rd s l 16
      ∃ u, exec (.cas128 r.id t) s = .next u ∧
        done u 16 (if old = r.op4.toNat * 2 ^ 64 + r.op3.toNat then r.op2.toNat * 2 ^ 64 + op else old) old) ∧
    (r.h = 26 →
      let o := BitVec.ofNat 128 (rd s l 16)
      ∃ u n, exec (.censusMinMerge r.id t) s = .next u ∧ done u 16 (BitVec.toNat (w := 128) n) (fld o 0 64) ∧ fld n 0 8 = fld r.op 0 8 ∧
        fld n 8 6 = (if bit r.op 14 = true ∧ (bit o 14 = false ∨ fld r.op 8 6 < fld o 8 6) then fld r.op 8 6 else fld o 8 6) ∧
        bit n 14 = (bit o 14 || bit r.op 14) ∧ fld n 15 17 = fld o 15 17 ∧ fld n 32 16 = Nat.min (fld o 32 16 + fld r.op 32 16) 65535 ∧
        fld n 48 16 = Nat.min (fld o 48 16 + fld r.op 48 16) 65535 ∧ fld n 64 64 = fld o 64 64)

/-- R36, R39, R47, R189, R191, Table 4 of chapter 02: a join decrement takes one from the JOIN field of the record at its frame (down to zero, when the record enters its queue), and an event post ORs its bits
into an event word of the cluster it names, as the next ccy sees it. -/
def Obligations.JoinAndEventPosts : Prop :=
  (∀ (s : State) (r : Req) (l t : Nat), findReq s r.id = some r → (∀ c ∈ s.comps, c.id ≠ r.id) → r.kind = .amo → r.h = 17 → canPerform s r = true →
    reqLoc s r = .ok l → (∀ a n f, r.dst ≠ .slot a n f) → errIn s l r.n = none →
    let a := frameHome s r.ctx (dieOf r.core) (frameCanon r.core r.addr)
    let q := rdRec s a
    q.kind = 3 ∨ 1 < q.join →
    ∃ u, exec (.joinDec r.id t) s = .next u ∧ rdRec u a = q.setJoin (q.join - 1) ∧ (∀ b, b < a ∨ a + 64 ≤ b → rdB u b = rdB s b) ∧
      HasPerformed u r q.w2.toNat ∧ u.clus = s.clus) ∧
  (∀ (s : State) (c : Comp) (t : Nat), s.comps.find? (fun x => x.id = c.id) = some c → c.what = .done → performed s c.deps = true → c.n ≠ 0 →
    let a := frameHome s c.ctx c.die c.frame
    (c.loc + c.n ≤ a ∨ a + 66 ≤ c.loc) → (rdRec s a).kind ≠ 3 → (rdRec s a).join = 1 → swImage s c.ctx (16 * c.die + frClu c.frame) = none →
    let n := 16 * c.die + frClu c.frame
    let q := ((rdRec s a).setJoin 0).qid % 4
    (rqOf (clu s n) q).length < 32 → (ringOf (clu s n) q).cnt = 0 →
    ∃ u, exec (.joinDec c.id t) s = .next u ∧ rd u c.loc c.n = c.v.toNat % 256 ^ c.n ∧
      rqOf (clu u n) q = rqOf (clu s n) q ++ [(rdRec s a).setJoin 0] ∧ (∀ x ∈ u.comps, x ∈ s.comps ∧ x.id ≠ c.id)) ∧
  ∀ (s : State) (r : Req) (t : Nat), findReq s r.id = some r → r.kind = .amo → r.h = 27 → canPerform s r = true → (∀ a n f, r.dst ≠ .slot a n f) →
    let n := postClu r.core r.addr
    clusterOwned s r.ctx n = true → (clu s n).evCcy ≤ s.ccy →
    ∃ u, exec (.eventPost r.id t) s = .next u ∧ HasPerformed u r 0 ∧ u.mem = s.mem ∧
      (∀ w, w < 8 → evWord { u with ccy := s.ccy + 1 } n w =
        (evWord { s with ccy := s.ccy + 1 } n w ||| if w = fld r.op 32 3 then BitVec.ofNat 32 r.op.toNat else 0)) ∧
      ∀ m, m ≠ n → clu u m = clu s m

/-- R94, R95, R101 to R103, R186: a load performs by reading its location, a store by writing its bytes there; every other byte stands. An acknowledgement takes its request
away, a reply carries the data into its part of the landing entry. A held release leaves the egress once the requests it must follow have performed, and an acquire that
has performed holds later requests no longer. -/
def Obligations.MemoryPerforms : Prop :=
  ((∀ (s : State) (r : Req) (l t : Nat), findReq s r.id = some r → canPerform s r = true → reqLoc s r = .ok l → (∀ a n f, r.dst ≠ .slot a n f) →
    (r.kind = .load → errIn s l r.n = none → (∀ e ∈ r.act, e.1 + e.2 ≤ r.n) →
      ∃ u, exec (.memoryLoadPerform r.id t) s = .next u ∧ HasPerformed u r (rd s l r.n) ∧ u.mem = s.mem ∧ u.cores = s.cores) ∧
    (r.kind = .store → ∃ u, exec (.memoryStorePerform r.id t) s = .next u ∧ HasPerformed u r 0 ∧ u.cores = s.cores ∧
      (frameHits s l r.n = [] →
        ∀ v, r.wr = bytesOf 0 r.n v → rd u l r.n = v % 256 ^ r.n ∧ ∀ b, b < l ∨ l + r.n ≤ b → rdB u b = rdB s b))) ∧
  (∀ (s : State) (r : Req) (l t a n : Nat) (f : Word), findReq s r.id = some r → canPerform s r = true → reqLoc s r = .ok l → r.kind = .load →
    errIn s l r.n = none → (∀ e ∈ r.act, e.1 + e.2 ≤ r.n) → r.dst = .slot a n f → ∃ u c, exec (.memoryLoadPerform r.id t) s = .next u ∧ u.comps = s.comps ++ [c] ∧ c.what = .done ∧ c.loc = a ∧ c.n = n ∧
      c.v = BitVec.ofNat 1024 (rd s l r.n) ∧ c.frame = f ∧ (∀ q ∈ u.reqs, q.id ≠ r.id) ∧ u.mem = s.mem) ∧
  (∀ (s : State) (r : Req), findReq s r.id = some r → r.stage = .done → r.dst = .none →
    ∃ u, exec (.acknowledgementArrival r.id) s = .next u ∧ (∀ q ∈ u.reqs, q ∈ s.reqs ∧ q.id ≠ r.id) ∧ u.mem = s.mem ∧
      (r.exh = false → u.cores = s.cores) ∧
      (r.exh = true → r.core < 512 → fld (core u r.core).slkstat 0 32 = Nat.min (fld (core s r.core).slkstat 0 32 + 1) (2 ^ 32 - 1))) ∧
  ∀ (s : State) (r : Req) (e n : Nat), findReq s r.id = some r → r.stage = .done → r.dst = .land e n → r.bad = false → r.exh = false →
    ∃ u, exec (.replyArrival r.id) s = .next u ∧ u.mem = s.mem ∧ (∀ q ∈ u.reqs, q ∈ s.reqs ∧ q.id ≠ r.id) ∧
      (core u r.core).land = (core s r.core).land.map (fun l =>
        if l.id = e then { l with parts := l.parts.modify n (fun p => { p with data := some r.res }) } else l)) ∧
  (∀ (s : State) (r : Req), findReq s r.id = some r →
    (r.rel = true → r.stage = .out → performed s r.deps = true →
      ∃ u, exec (.releaseIssue r.id) s = .next u ∧ findReq u r.id = some { r with deps := [] } ∧ u.mem = s.mem ∧ u.cores = s.cores) ∧
    (r.acq = true → r.stage = .done →
      ∃ u, exec (.acquirePerformed r.id) s = .next u ∧ findReq u r.id = some { r with acq := false } ∧ u.mem = s.mem ∧ u.cores = s.cores))

/-! ## Vectors -/

namespace Sys2Proof.Machine

/-- What vector register r holds once the results in flight have come due. -/
def vecLater (c : Core) (r : Nat) : VReg :=
  match c.pend.find? (fun p => p.dst.name = (1, r)) with
  | some ⟨_, .v _ x⟩ => x
  | _ => tget 0 c.v r

/-- What scale register n holds once the results in flight have come due. -/
def scaleLater (c : Core) (n : Nat) : ScReg :=
  match c.pend.find? (fun p => p.dst.name = (2, n)) with
  | some ⟨_, .sc _ x⟩ => x
  | _ => tget 0 c.sc n

/-- Element e, of width w, of the group at d once the results in flight have come due. -/
def elemLater (c : Core) (d w e : Nat) : Nat := bitsOfReg (vecLater c (d + e * w / 4096)) (e * w % 4096) w
where
  /-- A field of a vector register. -/
  bitsOfReg (x : VReg) (lo len : Nat) : Nat := x.toNat / 2 ^ lo % 2 ^ len

/-- R54, R56: the value of a pattern of width w, none for NaI. -/
def tval (w : Nat) (u : Bool) (p : Nat) : Option Int :=
  if u then (if p = 2 ^ w - 1 then none else some p)
  else if p = 2 ^ (w - 1) then none else some (if 2 ^ (w - 1) < p then (p : Int) - 2 ^ w else p)

/-- R56, R61, R209, R210: the pattern written for a value, whether it was clamped, whether it is NaI. -/
def tput (w : Nat) (u : Bool) (x : Option Int) : Nat × Bool × Bool :=
  match x with
  | none => (if u then 2 ^ w - 1 else 2 ^ (w - 1), false, true)
  | some x =>
    let c : Int := if u then Max.max 0 (Min.min (2 ^ w - 2) x) else Max.max (1 - 2 ^ (w - 1)) (Min.min (2 ^ (w - 1) - 1) x)
    ((c % 2 ^ w).toNat, decide (c ≠ x), false)

/-- A sum or product of values; NaI in any of them gives NaI. -/
def both (f : Int → Int → Int) (x y : Option Int) : Option Int := x.bind (fun a => y.map (f a))

/-- One row of the vector statements: guard, destination group, its width, the first tail element, the result of each element that has one (pattern, clamped, NaI), the same for
the group above the destination (two-result routines), and whether the instruction counts in the scale register of VTYPE. -/
structure VRow where
  g : BitVec 4
  d : Nat
  eew : Nat
  lim : Nat
  el : Nat → Option (Nat × Bool × Bool)
  el2 : Option (Nat → Option Nat) := none
  counts : Bool := false

/-- R207, R209, R214 to R226 element by element: what each vector instruction computes. -/
def vecRow (s : State) (i : Instr) : Option VRow :=
  let v := vcfg (cur s)
  let w := v.sew
  let on := fun (m : BitVec 1) (e : Nat) => decide (e < v.vl) && (decide (m = 0) || (rv s 0).getLsbD e)
  let acts := fun (m : BitVec 1) => (List.range v.vl).filter (on m)
  let src := fun (r : BitVec 5) (w e : Nat) => elN (vgrp s v r.toNat w) w e
  let rhs := fun (k : Nat) (b : BitVec 6) (z : Bool) (e : Nat) =>
    if k = 0 then elN (vgrp s v (b.toNat % 32) w) w e
    else if k = 1 then (rx6 s b).toNat % 2 ^ w
    else if z then b.toNat % 2 ^ w else (b.toInt % 2 ^ w).toNat
  let sg := fun (x : Nat) => if 2 ^ (w - 1) ≤ x then (x : Int) - 2 ^ w else x
  let plain := fun (d a : BitVec 5) (b : BitVec 6) (k : BitVec 2) (m : BitVec 1) (g : BitVec 4) (z : Bool) (f : Nat → Nat → Int) =>
    some ({ g := g, d := d.toNat, eew := w, lim := v.vl
            el := fun e => if on m e then some ((f (src a w e) (rhs k.toNat b z e) % 2 ^ w).toNat, false, false) else none } : VRow)
  let tens := fun (d : BitVec 5) (wd : Nat) (u : Bool) (m : BitVec 1) (g : BitVec 4) (f : Nat → Option Int) =>
    some ({ g := g, d := d.toNat, eew := wd, lim := v.vl, counts := true
            el := fun e => if on m e then some (tput wd u (f e)) else none } : VRow)
  let two := fun (d a : BitVec 5) (b : BitVec 6) (k : BitVec 2) (m u : BitVec 1) (g : BitVec 4) (wd : Nat) (f : Int → Int → Int) =>
    tens d wd (u = 1) m g (fun e => both f (tval w (u = 1) (src a w e)) (tval w (u = 1) (rhs k.toNat b false e)))
  let round := fun (d : BitVec 5) (r : BitVec 2) (m : BitVec 1) (g : BitVec 4) (k : Nat) (f : Nat → Option Int) =>
    tens d w false m g (fun e => (f e).map (fun x => shrG x k (rndOf r.toNat)
      (laneGet (((acts m).filter (· ≤ e)).foldl (fun L j => laneAdv (rndOf r.toNat) L (j % 128)) (lanesOf (cur s))) (e % 128))))
  let fold := fun (d a b : BitVec 5) (wd : Nat) (u m : BitVec 1) (g : BitVec 4) (f : Int → Int → Int) =>
    some ({ g := g, d := d.toNat, eew := wd, lim := 1, counts := true
            el := fun e => if e = 0 then some (tput wd (u = 1)
              ((acts m).foldl (fun t j => both f t (tval w (u = 1) (src a w j))) (tval wd (u = 1) (src b wd 0)))) else none } : VRow)
  let perm := fun (d : BitVec 5) (m : BitVec 1) (g : BitVec 4) (f : Nat → Nat) =>
    some ({ g := g, d := d.toNat, eew := w, lim := v.vl, el := fun e => if on m e then some (f e, false, false) else none } : VRow)
  let mask := fun (d : BitVec 5) (g : BitVec 4) (f : Nat → Bool) =>
    some ({ g := g, d := d.toNat, eew := 1, lim := v.vl
            el := fun e => if e < v.vl then some ((f e).toNat, false, false) else none } : VRow)
  let off := fun (k : BitVec 1) (b : BitVec 6) => if k = 0 then (rx6 s b).toNat else b.toNat
  let duo := fun (d a : BitVec 5) (m : BitVec 1) (g : BitVec 4) (f : Option Int → Nat × Int × Bool × Bool) =>
    some ({ g := g, d := d.toNat, eew := 32, lim := v.vl, counts := true
            el := fun e => if on m e then (let r := f (tval 32 false (src a 32 e)); some (r.1, r.2.2.1, r.2.2.2)) else none
            el2 := some (fun e => if on m e then some (((f (tval 32 false (src a 32 e))).2.1 % 2 ^ 32).toNat) else none) } : VRow)
  match i with
  | .vadd d a b k m g => plain d a b k m g false (fun x y => x + y)
  | .vsub d a b k m g => plain d a b k m g false (fun x y => x - y)
  | .vand d a b k m g => plain d a b k m g false (fun x y => ((x &&& y : Nat) : Int))
  | .vor d a b k m g => plain d a b k m g false (fun x y => ((x ||| y : Nat) : Int))
  | .vxor d a b k m g => plain d a b k m g false (fun x y => ((x ^^^ y : Nat) : Int))
  | .vsll d a b k m g => plain d a b k m g true (fun x y => x * 2 ^ (y % w))
  | .vsrl d a b k m g => plain d a b k m g true (fun x y => x / 2 ^ (y % w))
  | .vsra d a b k m g => plain d a b k m g true (fun x y => sg x / 2 ^ (y % w))
  | .vmul d a b k m g => plain d a b k m g false (fun x y => x * y)
  | .vmulh d a b k m u g =>
    plain d a b k m g false (fun x y => (if u = 1 then (x : Int) * y else sg x * sg y) / 2 ^ w)
  | .vmin d a b k m g => plain d a b k m g false (fun x y => Min.min (sg x) (sg y))
  | .vmax d a b k m g => plain d a b k m g false (fun x y => Max.max (sg x) (sg y))
  | .vminu d a b k m g => plain d a b k m g false (fun x y => Nat.min x y)
  | .vmaxu d a b k m g => plain d a b k m g false (fun x y => Nat.max x y)
  | .vsadd d a b k m u g => two d a b k m u g w (fun x y => x + y)
  | .vssub d a b k m u g => two d a b k m u g w (fun x y => x - y)
  | .vwadd d a b k m u g => two d a b k m u g (2 * w) (fun x y => x + y)
  | .vwmul d a b k m u g => two d a b k m u g (2 * w) (fun x y => x * y)
  | .vwmacc d a b k m u g =>
    tens d (2 * w) (u = 1) m g (fun e => both (fun z p => z + p) (tval (2 * w) (u = 1) (src d (2 * w) e))
      (both (fun x y => x * y) (tval w (u = 1) (src a w e)) (tval w (u = 1) (rhs k.toNat b false e))))
  | .vmerge d a b k g =>
    some { g := g, d := d.toNat, eew := w, lim := v.vl
           el := fun e => if e < v.vl then some (if (rv s 0).getLsbD e then rhs k.toNat b false e else src a w e, false, false) else none }
  | .vnsra d a b k r m g =>
    round d r m g (if k = 0 then Nat.min (rx6 s b).toNat 127 else b.toNat) (fun e => tval (2 * w) false (src a (2 * w) e))
  | .vshr d a b k r m g =>
    round d r m g (if k = 0 then Nat.min (rx6 s b).toNat 127 else b.toNat) (fun e => tval w false (src a w e))
  | .vsmul d a b r m g => round d r m g (w - 1) (fun e => both (fun x y => x * y) (tval w false (src a w e)) (tval w false (src b w e)))
  | .vcmp d a b k c g => mask d g (fun e =>
      let x := src a w e
      let y := rhs k.toNat b false e
      match c.toNat with
      | 0 => x = y
      | 1 => x ≠ y
      | 2 => sg x < sg y
      | 3 => sg x ≥ sg y
      | 4 => x < y
      | 5 => x ≥ y
      | 6 => x = 2 ^ (w - 1)
      | _ => x = 2 ^ w - 1)
  | .vmlog d a b f g => mask d g (fun e =>
      let x := (rv s a.toNat).getLsbD e
      let y := (rv s b.toNat).getLsbD e
      match f.toNat with
      | 0 => x && y
      | 1 => x || y
      | 2 => x != y
      | 3 => x && !y
      | 4 => !(x && y)
      | 5 => !(x || y)
      | 6 => x == y
      | _ => x || !y)
  | .vredsum d a b wi u m g => fold d a b (if wi = 1 then 2 * w else w) u m g (fun t x => t + x)
  | .vredmax d a b u m g => fold d a b w u m g Max.max
  | .vredmin d a b u m g => fold d a b w u m g Min.min
  | .vscan d a b wi u m g =>
    let wd := if wi = 1 then 2 * w else w
    tens d wd (u = 1) m g (fun e => ((acts m).filter (· ≤ e)).foldl (fun t j => both (fun x y => x + y) t (tval w (u = 1) (src a w j)))
      (tval wd (u = 1) (src b wd 0)))
  | .vslideup d a b k m g => perm d m g (fun e => if e < off k b then src d w e else src a w (e - off k b))
  | .vslidedn d a b k m g => perm d m g (fun e => if e + off k b < v.vlmax then src a w (e + off k b) else 0)
  | .vgath d a b m g => perm d m g (fun e => if src b w e < v.vlmax then src a w (src b w e) else 0)
  | .vcompress d a b g =>
    let es := (List.range v.vl).filter (fun j => (rv s b.toNat).getLsbD j)
    some { g := g, d := d.toNat, eew := w, lim := es.length, el := fun e => (es[e]?).map (fun j => (src a w j, false, false)) }
  | .vexp d a x m g =>
    some { g := g, d := d.toNat, eew := 16, lim := v.vl, counts := true
           el := fun e => if on m e then some (match tval 32 false (src a 32 e) with
             | none => (65535, false, true)
             | some y => ((vexpR y x.toInt).1, (vexpR y x.toInt).2, false)) else none }
  | .vrsqrt d a x m g => duo d a m g (rsqrtEl x.toInt)
  | .vrecip d a x m g => duo d a m g (recipEl x.toInt)
  | .vdiv d a b m g =>
    some { g := g, d := d.toNat, eew := w, lim := v.vl, counts := true
           el := fun e => if on m e then some (match tval w false (src a w e), tval w false (src b w e) with
             | some x, some y =>
               if y = 0 then (if x = 0 then (2 ^ (w - 1), false, true) else ((Int.sign x * (2 ^ (w - 1) - 1) % 2 ^ w).toNat, true, false))
               else ((x.tdiv y % 2 ^ w).toNat, false, false)
             | _, _ => (2 ^ (w - 1), false, true)) else none }
  | .vsplat d a m g => perm d m g (fun _ => (rx6 s a).toNat % 2 ^ w)
  | _ => none

end Sys2Proof.Machine

/-- R206, R207, R209, R210, R214 to R226: a vector instruction that issues in V0. Every element of its destination group takes its result; an element below the tail without one keeps its value or becomes all ones
by the mask policy, and an element of the tail by the tail policy; clamped and NaI results are counted in the scale register of VTYPE when it asks for it; nothing else of the machine changes, and with VL = 0
nothing at all is written. -/
def Obligations.VectorResults : Prop :=
  ∀ (s : State) (i : Instr) (o : SlotOp) (r : VRow), slotOf 4 i = some o → vecRow s i = some r → Issues s o → o.on (cur s) = true →
    let v := vcfg (cur s)
    let n := v.regs r.eew * (if r.el2.isSome then 2 else 1)
    let kept := fun (p : Pend) => decide (¬ (p.dst.name.1 = 1 ∧ r.d ≤ p.dst.name.2 ∧ p.dst.name.2 < r.d + n)) &&
      !(r.counts && v.sce && decide (p.dst.name = (2, v.sci)))
    (v.vl = 0 → exec i s = .next (retired1 s 4 (o.occ s) id)) ∧
    (v.vl ≠ 0 → ∃ t, exec i s = .next t ∧ OnlyCore s t ∧
      (∀ e, e < v.ne r.eew →
        let left := fun (old : Nat) => if (if e < r.lim then v.vma else v.vta) then 2 ^ r.eew - 1 else old
        elemLater (cur t) r.d r.eew e = (match r.el e with
          | some x => x.1 % 2 ^ r.eew
          | none => left (elN (vgrp s v r.d r.eew) r.eew e)) ∧
        ∀ f, r.el2 = some f → elemLater (cur t) (r.d + v.regs r.eew) r.eew e = (match f e with
          | some x => x % 2 ^ r.eew
          | none => left (elN (vgrp s v (r.d + v.regs r.eew) r.eew) r.eew e))) ∧
      (r.counts = true → v.sce = true →
        let marks := (List.range v.vl).filterMap r.el
        scaleLater (cur t) v.sci = setFld (setFld (rsc s v.sci) 32 16 (Nat.min 65535 (fld (rsc s v.sci) 32 16 + marks.countP (fun x => x.2.1))))
          48 16 (Nat.min 65535 (fld (rsc s v.sci) 48 16 + marks.countP (fun x => x.2.2)))) ∧
      (cur t).pend.filter kept = (cur s).pend.filter kept ∧ landings (cur t) = landings (cur s) ∧
      { steady (cur s) (cur t) with pend := (cur s).pend, land := (cur s).land, lanes := (cur s).lanes } = cur s)

/-- R212, R213, R227: the configuration forms write VL and VTYPE and put VL in xd; an illegal VTYPE sets VILL with VL = 0; `vmv.x.s` and `vmv.s.x` move one element; `vmov` moves whole
registers. -/
def Obligations.VectorMoves : Prop :=
  ∀ (s : State) (g : BitVec 4), Open s 4 g →
    let v := vcfg (cur s)
    let cfg := fun (d : BitVec 6) (t : BitVec 32) (n : Nat) => goTo
      (retired1 s 4 1 (fun c => { scalarPut 2 d.toNat (BitVec.ofNat 64 n) c with vtype := t, vl := BitVec.ofNat 13 n }))
    let vmax := fun (t : Nat) => 4096 * ([8, 16, 32, 64, 8, 1, 2, 4].getD (t / 4 % 8) 8) / (64 * 2 ^ (t % 4))
    (∀ d a b : BitVec 6,
      let x := rx6 s b
      let bad := bitsAt x 14 50 ≠ 0 ∨ bitsAt x 2 3 = 4
      (bad → exec (.vsetvl d a b g) s = cfg d 0x80000000#32 0) ∧
      (¬ bad → exec (.vsetvl d a b g) s = cfg d (x.setWidth 32) (Nat.min (rx6 s a).toNat (vmax x.toNat)))) ∧
    (∀ d : BitVec 6, exec (.vsetvlRead d g) s =
      .next (retired1 s 4 1 (scalarPut 2 d.toNat (BitVec.ofNat 64 ((cur s).vtype.toNat * 2 ^ 32 + v.vl))))) ∧
    (∀ (d a : BitVec 6) (l : BitVec 8) (x : BitVec 7), bitsAt (x.setWidth 64) 2 3 ≠ 4 →
      let t : BitVec 32 := BitVec.ofNat 32 ((cur s).vtype.toNat % 2 ^ 31 / 2 ^ 7 * 2 ^ 7 + x.toNat)
      exec (.vsetvli d a x g) s = cfg d t (Nat.min (rx6 s a).toNat (vmax x.toNat)) ∧
      exec (.vsetivli d l x g) s = cfg d t (Nat.min l.toNat (vmax x.toNat))) ∧
    (v.vill = false → v.em8 v.sew ≤ 64 → ∀ (d : BitVec 6) (a : BitVec 5) (b : BitVec 6), a.toNat % v.regs v.sew = 0 →
      let k := (rx6 s b).toNat
      let x := elN (vgrp s v a.toNat v.sew) v.sew k
      exec (.vmvxs d a b g) s = .next (retired1 s 4 1 (scalarPut 4 d.toNat
        (if k < v.vlmax then BitVec.ofInt 64 (if 2 ^ (v.sew - 1) ≤ x then (x : Int) - 2 ^ v.sew else x) else 0)))) ∧
    (v.vill = false → v.em8 v.sew ≤ 64 → ∀ (d : BitVec 5) (a b : BitVec 6), d.toNat % v.regs v.sew = 0 →
      let k := (rx6 s b).toNat
      (v.vlmax ≤ k → exec (.vmvsx d a b g) s = .next (retired1 s 4 1 id)) ∧
      (k < v.vlmax → ∃ t, exec (.vmvsx d a b g) s = .next t ∧ OnlyCore s t ∧ (cur t).x = (cur s).x ∧
        ∀ e, e < v.ne v.sew → elemLater (cur t) d.toNat v.sew e =
          if e = k then (rx6 s a).toNat % 2 ^ v.sew
          else if e * v.sew / 4096 = k * v.sew / 4096 then elN (vgrp s v d.toNat v.sew) v.sew e
          else elemLater (cur s) d.toNat v.sew e)) ∧
    ∀ (d a : BitVec 5) (r : BitVec 2), d.toNat % 2 ^ r.toNat = 0 → a.toNat % 2 ^ r.toNat = 0 →
      ∃ t, exec (.vmov d a r g) s = .next t ∧ OnlyCore s t ∧ (cur t).x = (cur s).x ∧ (cur t).vtype = (cur s).vtype ∧
        (∀ j, j < 2 ^ r.toNat → vecLater (cur t) (d.toNat + j) = rv s (a.toNat + j)) ∧
        ∀ e, e < d.toNat ∨ d.toNat + 2 ^ r.toNat ≤ e → vecLater (cur t) e = vecLater (cur s) e

namespace Sys2Proof.Machine

/-- R228: the vector memory instructions: destination or source register, base register, address of each element, mask use, and landing class of a load. -/
def vmemRow (s : State) : Instr → Option (BitVec 5 × BitVec 6 × (Nat → Word) × Bool × Option Nat)
  | .vld d a t m _ => some (d, a, fun e => rx6 s a + BitVec.ofNat 64 (w * e / 8), m = 1, some t.toNat)
  | .vlds d a t m _ => some (d, a, fun e => rx6 s a + BitVec.ofNat 64 e * rx6 s (a + 1), m = 1, some t.toNat)
  | .vldx d a b m t _ => some (d, a, fun e => rx6 s a + BitVec.ofNat 64 (elN (vgrp s (vcfg (cur s)) b.toNat w) w e), m = 1, some t.toNat)
  | .vldff d a t m _ => some (d, a, fun e => rx6 s a + BitVec.ofNat 64 (w * e / 8), m = 1, some t.toNat)
  | .vst d a m _ => some (d, a, fun e => rx6 s a + BitVec.ofNat 64 (w * e / 8), m = 1, none)
  | .vsts d a m _ => some (d, a, fun e => rx6 s a + BitVec.ofNat 64 e * rx6 s (a + 1), m = 1, none)
  | .vstx d a b m _ => some (d, a, fun e => rx6 s a + BitVec.ofNat 64 (elN (vgrp s (vcfg (cur s)) b.toNat w) w e), m = 1, none)
  | _ => none
where
  /-- The element width of VTYPE. -/
  w : Nat := (vcfg (cur s)).sew

end Sys2Proof.Machine

/-- R228 to R231: vector loads and stores that issue in V0. A load makes one landing entry whose elements are the active ones (of `vldff`, those below the first that fails, where VL is
cut), each with its line and its place in it; the line is read at issue from the own scratchpad and requested from anywhere else (or where a word that an element reads has an uncorrectable error), with the bytes of its elements alone to be read; elements that
reach one line by equivalent addresses (R87) share its request. A store writes each active element at its address in the own scratchpad, a
later element over an earlier one (a line in the frame of a live record leaves that frame undefined, R30), or sends it in a request of its line; every other byte of memory stands. -/
def Obligations.VectorMemory : Prop :=
  ∀ (s : State) (i : Instr) (o : SlotOp) (r : BitVec 5) (a : BitVec 6) (at_ : Nat → Word) (m : Bool) (cl : Option Nat),
    slotOf 4 i = some o → vmemRow s i = some (r, a, at_, m, cl) → Issues s o → o.on (cur s) = true → (vcfg (cur s)).vl ≠ 0 →
    let v := vcfg (cur s)
    let n := v.sew / 8
    let on := fun (e : Nat) => decide (e < v.vl) && (!m || (rv s 0).getLsbD e)
    let line := fun (x : Word) => x &&& 0xFFFFFFFFFFFFFF80#64
    let one := fun (x y : Nat) => vKey s (at_ x) = vKey s (at_ y)
    let home := fun (x : Nat) (wrt : Bool) => locOf s (at_ x) n wrt / 128 * 128
    (∀ k, cl = some k →
      ∃ t e els ones, exec i s = .next t ∧ (∀ b, rdB t b = rdB s b) ∧ (∀ j, j ≠ s.cur → core t j = core s j) ∧ (cur t).v = (cur s).v ∧
        (cur t).x = (cur s).x ∧ e ∈ (cur t).land ∧ e.id = s.nextId ∧ e.dst = .vec r.toNat v.sew ones els ∧
        e.at_ = (cur s).ctime + (if spc (rx6 s a) = 1 then Nat.max 4 (delayOf s k) else delayOf s k) ∧
        let lim := (cur t).vl.toNat
        ((∀ x, on x = true → ∃ w, chk s (at_ x) n n false = .ok w) → lim = v.vl) ∧
        ((∀ d b t m g, i ≠ .vldff d b t m g) → lim = v.vl) ∧
        (lim < v.vl → on lim = true ∧ (∃ f, chk s (at_ lim) n n false = .error f) ∧ ∀ x, on x = true → x < lim → ∃ w, chk s (at_ x) n n false = .ok w) ∧
        els.map (fun x => x.1) = (List.range lim).filter on ∧
        (∀ x ∈ els, x.2.2 = bitsAt (at_ x.1) 0 7 ∧ x.2.1 < e.parts.length ∧
          (spc (at_ x.1) = 1 → (∀ y, on y = true → y < lim → one y x.1 → errIn s (locOf s (at_ y) n false) n = none) → ∃ z, (e.parts.getD x.2.1 ⟨0, none⟩).data = some z ∧
            z.toNat / 256 ^ x.2.2 % 256 ^ n = rd s (locOf s (at_ x.1) n false) n) ∧
          (spc (at_ x.1) ≠ 1 ∨ (∃ y, on y = true ∧ y < lim ∧ one y x.1 ∧ errIn s (locOf s (at_ y) n false) n ≠ none) →
            ∃ q ∈ t.reqs, q.kind = .load ∧ q.core = s.cur ∧ (∀ e, e ∈ q.act ↔ ∃ y, on y = true ∧ y < lim ∧ one y x.1 ∧ e = (bitsAt (at_ y) 0 7, n)) ∧ (∃ y, on y = true ∧ one y x.1 ∧ q.addr = line (at_ y)) ∧ q.n = 128 ∧
              q.dst = .land e.id x.2.1 ∧ e.parts.getD x.2.1 ⟨0, none⟩ = ⟨q.id, none⟩))) ∧
    (cl = none →
      ∃ t, exec i s = .next t ∧ (∀ j, j ≠ s.cur → core t j = core s j) ∧ (cur t).v = (cur s).v ∧ (cur t).x = (cur s).x ∧
        let free := ∀ x, on x = true → spc (at_ x) = 1 → frameHits s (home x true) 128 = []
        (free → ∀ b, (∀ x, on x = true → spc (at_ x) = 1 → b < locOf s (at_ x) n true ∨ locOf s (at_ x) n true + n ≤ b) → rdB t b = rdB s b) ∧
        ∀ x, on x = true →
          let p := elN (vgrp s v r.toNat v.sew) v.sew x
          (spc (at_ x) = 1 → free → (∀ y, on y = true → x < y → at_ y ≠ at_ x) → rd t (locOf s (at_ x) n true) n = p) ∧
          (spc (at_ x) ≠ 1 → ∃ q ∈ t.reqs, q.kind = .store ∧ q.core = s.cur ∧ (∃ y, on y = true ∧ one y x ∧ q.addr = line (at_ y)) ∧
            ((∀ y, on y = true → x < y → one y x → bitsAt (at_ y) 0 7 ≠ bitsAt (at_ x) 0 7) → ∀ b ∈ bytesOf (bitsAt (at_ x) 0 7) n p, b ∈ q.wr)))

namespace Sys2Proof.Machine

/-- R76: the shift of a write through a scale register into width w, and whether the exponent overflows; `own` is the census of the values. -/
def scaleShift (sc : ScReg) (src : Int) (own w : Nat) (u : Bool) : Int × Bool :=
  let cen := if bit sc 14 then fld sc 8 6 else own
  let need : Int := max 0 ((if u then 31 - (cen : Int) else 32 - cen) + fld sc 15 2 - w)
  let k : Int := if src + need < -128 then -128 - src else need
  (k, decide (src + k > 127))

/-- R65: the census of values at 32 bits. -/
def ownCensus (live : List Int) : Nat := (live.map (fun x => 32 - bitsOf x)).foldl Nat.min 31

/-- R73, R76: scale register `z` after such a write of `outs`, when it held `sc` before. -/
def ScaleWritten (sc z : ScReg) (src : Int) (k : Int × Bool) (live : List Int) (outs : List (Nat × Bool × Bool)) : Prop :=
  scExp z = (if k.2 then 127 else src + k.1) ∧
    (live ≠ [] → fld z 8 6 = ownCensus live ∧ bit z 14 = true) ∧ (live = [] → fld z 8 7 = fld sc 8 7) ∧ fld z 15 17 = fld sc 15 17 ∧
    fld z 64 64 = fld sc 64 64 ∧ fld z 32 16 = Nat.min 65535 (fld sc 32 16 + outs.countP (fun e => e.2.1)) ∧
    fld z 48 16 = Nat.min 65535 (fld sc 48 16 + outs.countP (fun e => e.2.2))

end Sys2Proof.Machine

/-- R76, R216: `vnclip` writes its active elements through the scale register 2s. In every rounding mode but SR the elements are the sources shifted right by what the census in use and the margin ask for, clamped to the
destination's width, NaI where the source is NaI or the exponent overflows; the register's new exponent is the source exponent plus the shift, its census the smallest of the live elements; and the counts grow by what was
clamped and what is NaI. -/
def Obligations.NarrowingThroughScale : Prop :=
  ∀ (s : State) (d a p : BitVec 5) (r : BitVec 2) (m u q : BitVec 1) (g : BitVec 4), Issues s (opVnclip 4 d a p r m u q g) →
    (opVnclip 4 d a p r m u q g).on (cur s) = true → r ≠ 3 → (vcfg (cur s)).vl ≠ 0 →
    let v := vcfg (cur s)
    let w := v.sew
    let wide := if q = 1 then 4 * w else 2 * w
    let acts := (List.range v.vl).filter (fun e => decide (m = 0) || (rv s 0).getLsbD e)
    let val := fun (e : Nat) => tval wide false (elN (vgrp s v a.toNat wide) wide e)
    let live := acts.filterMap val
    let sc := rsc s (2 * p.toNat)
    let src := scExp (rsc s (2 * p.toNat + 1))
    let k := scaleShift sc src (ownCensus live) w (u = 1)
    let out := fun (e : Nat) => tput w (u = 1) (if k.2 then none else (val e).map (fun x => shrG x k.1.toNat (rndOf r.toNat) 0))
    acts ≠ [] →
    ∃ t, exec (.vnclip d a p r m u q g) s = .next t ∧ OnlyCore s t ∧ (cur t).x = (cur s).x ∧
      (∀ e, e < v.ne w → elemLater (cur t) d.toNat w e =
        if e ∈ acts then (out e).1
        else if (if e < v.vl then v.vma else v.vta) then 2 ^ w - 1 else elN (vgrp s v d.toNat w) w e) ∧
      ScaleWritten sc (scaleLater (cur t) (2 * p.toNat)) src k live (acts.map out)

/-! ## Accumulators, matrix products, queues, scale registers -/

namespace Sys2Proof.Machine

/-- What scalar register d holds once the results in flight have come due. -/
def scalarLater (c : Core) (d : Nat) : Word :=
  match c.pend.find? (fun p => p.dst.name = (0, d)) with
  | some ⟨_, .x _ x⟩ => x
  | _ => tget 0 c.x d

/-- A core as it was but for its accumulators, tiles, MXSTAT, scheduled results, busy marks and the Annealer's charge. -/
def MatrixFrame (s t : State) : Prop :=
  OnlyCore s t ∧ { steady (cur s) (cur t) with
    acc := (cur s).acc, accAl := (cur s).accAl, t := (cur s).t, mxstat := (cur s).mxstat, x := (cur s).x, sc := (cur s).sc, pend := (cur s).pend
    land := (cur s).land, busy := (cur s).busy, debt := (cur s).debt, gang := (cur s).gang, denied := (cur s).denied } = cur s

/-- R237 in plain arithmetic: the INT32 pattern of one element of a matrix product. `av`, `bv` and `sh` give the operands and smoothing shifts of the K-rows; `start` is the old element,
none for NaI. -/
def productEl (kt : Nat) (start : Option Int) (av bv : Nat → Option Int) (sh : Nat → Int) : Nat :=
  let block := fun (j : Nat) => (((List.range kt).filter (fun k => k / 128 = j)).map (fun k =>
    ((av k).getD 0) * ((bv k).getD 0) * 2 ^ (8 - sh k).toNat)).sum
  if start = none ∨ (List.range kt).any (fun k => (av k).isNone || (bv k).isNone) = true then 2 ^ 31
  else ((((List.range ((kt + 127) / 128)).foldl (fun c j =>
    Max.max (1 - 2 ^ 31) (Min.min (2 ^ 31 - 1) (c + shrP (block j) 8 .rne))) (start.getD 0)) % 2 ^ 32 : Int)).toNat

end Sys2Proof.Machine

/-- R234, R235, R239, R241, R242: accumulator banks and tiles. `aalloc` gives the lowest free aligned range, `afree` frees, `azero` and `tzero` write zero, `tmov` copies a tile; no
other bank or tile changes. -/
def Obligations.AccumulatorBanks : Prop :=
  ∀ (s : State) (g : BitVec 4) (b n : BitVec 7),
    let N := n.toNat + 1
    let inRange := fun (a k : Nat) => a ≤ k ∧ k < a + N
    (∀ d : BitVec 6, Issues s (opAalloc d n g) → (opAalloc d n g).on (cur s) = true →
      let fits := fun (a : Nat) => a % (([1, 2, 4, 8, 16].find? (fun p => N ≤ p)).getD 32) = 0 ∧ a + N ≤ 128 ∧
        ∀ k, inRange a k → (cur s).accAl.getLsbD k = false
      ∃ t a, exec (.aalloc d n g) s = .next t ∧ MatrixFrame s t ∧ fits a ∧ (∀ a', a' < a → ¬ fits a') ∧
        (∀ k, (cur t).accAl.getLsbD k = true ↔ ((cur s).accAl.getLsbD k = true ∨ inRange a k)) ∧
        (∀ k, ¬ inRange a k → tget 0 (cur t).acc k = tget 0 (cur s).acc k) ∧ (cur t).t = (cur s).t ∧
        (d ≠ 0 → scalarLater (cur t) d.toNat = BitVec.ofNat 64 a) ∧ ∀ e, e ≠ d.toNat → tget 0 (cur t).x e = tget 0 (cur s).x e) ∧
    (Issues s (opAfree b n g) → (opAfree b n g).on (cur s) = true →
      ∃ t, exec (.afree b n g) s = .next t ∧ MatrixFrame s t ∧
        (∀ k, (cur t).accAl.getLsbD k = true ↔ ((cur s).accAl.getLsbD k = true ∧ ¬ inRange b.toNat k)) ∧
        (cur t).acc = (cur s).acc ∧ (cur t).t = (cur s).t ∧ (cur t).x = (cur s).x) ∧
    (Issues s (opAzero b n g) → (opAzero b n g).on (cur s) = true →
      ∃ t, exec (.azero b n g) s = .next t ∧ MatrixFrame s t ∧ (cur t).accAl = (cur s).accAl ∧ (cur t).t = (cur s).t ∧ (cur t).x = (cur s).x ∧
        ∀ k, tget 0 (cur t).acc k = if inRange b.toNat k then 0 else tget 0 (cur s).acc k) ∧
    ∀ d x : BitVec 4, Open s 6 g →
      (∃ t, exec (.tzero d g) s = .next t ∧ MatrixFrame s t ∧ (cur t).acc = (cur s).acc ∧ (cur t).x = (cur s).x ∧
        ∀ k, tget 0 (cur t).t k = if k = d.toNat then 0 else tget 0 (cur s).t k) ∧
      ∃ t, exec (.tmov d x g) s = .next t ∧ MatrixFrame s t ∧ (cur t).acc = (cur s).acc ∧ (cur t).x = (cur s).x ∧
        ∀ k, tget 0 (cur t).t k = if k = d.toNat then tget 0 (cur s).t x.toNat else tget 0 (cur s).t k

/-- R232, R233, R236 to R238, R243, R245: the matrix products. Each element of the C tile is the clamped sum, block of 128 K-rows by block, of the products of its row of A and its column of B, added to the old element
(`mma`, `mmag`) or replacing it (`mmaz`); `mmag` takes each run of rows with the B tile of its group and leaves rows of no group alone; the Annealer is charged; every other bank, tile and register stands. -/
def Obligations.MatrixProducts : Prop :=
  ∀ (s : State) (i : Instr) (o : SlotOp) (a : BitVec 4) (x : BitVec 6) (m : BitVec 1) (z : Bool) (grp : Nat → Option Nat) (n : Nat),
    let rc := fun (j : Nat) => bitsAt (rx6 s (x + 1)) (8 * j) 8
    let upto := fun (j : Nat) => ((List.range j).map rc).sum
    ((∃ b g, i = .mma a b x m g ∧ o = opMma a b x m g ∧ z = false ∧ grp = (fun _ => some b.toNat) ∧ n = 1) ∨
      (∃ b g, i = .mmaz a b x m g ∧ o = opMmaz a b x m g ∧ z = true ∧ grp = (fun _ => some b.toNat) ∧ n = 1) ∨
      (∃ b g, i = .mmag a b x m g ∧ o = opMmag a b x m g ∧ z = false ∧ n = ((List.range 8).filter (fun j => rc j ≠ 0)).length ∧
        grp = (fun r => ((List.range 8).find? (fun j => decide (upto j ≤ r) && decide (r < upto (j + 1)))).map (b.toNat + ·)))) →
    Issues s o → o.on (cur s) = true →
    let w := rx6 s x
    let base := bitsAt w 0 7
    let fa := bitsAt w 7 5
    let fb := bitsAt w 12 5
    let kt := Nat.min (1024 / fmtW fa) (1024 / fmtW fb)
    ∃ t, exec i s = .next t ∧ MatrixFrame s t ∧ (cur t).t = (cur s).t ∧ (cur t).accAl = (cur s).accAl ∧ (cur t).x = (cur s).x ∧
      (cur t).debt = (cur s).debt + n * (kt * (((fmtW fa + 1) / 2) * ((fmtW fb + 1) / 2))) ∧
      (∀ k, k < base ∨ base + 32 ≤ k → tget 0 (cur t).acc k = tget 0 (cur s).acc k) ∧
      ∀ r c, r < 128 → c < 128 → accEl (cur t) base r c = (match grp r with
        | none => accEl (cur s) base r c
        | some b => productEl kt (if z then some 0 else tval 32 false (accEl (cur s) base r c))
            (fun k => tval (fmtW fa) (fmtU fa) (fld (tget 0 (cur s).t a.toNat) (1024 * r + fmtW fa * k) (fmtW fa)))
            (fun k => tval (fmtW fb) (fmtU fb) (colStr (tget 0 (cur s).bt b) c 0 128 / 2 ^ (fmtW fb * k) % 2 ^ fmtW fb))
            (fun k => if m = 1 then (let v := fld (rsm s) (4 * k) 4; if 8 ≤ v then (v : Int) - 16 else v) else 0))

/-- R76, R240: `aout` reads a C tile out through a scale register, in every rounding mode but SR: element [m, n] of the written tile (of the second tile for the upper 64 columns of a format wider than 8 bits) is the
accumulator shifted, clamped and coded in the register's format; with Z the banks become zero; the scale register takes the new exponent, census and counts; nothing else changes. -/
def Obligations.TileReadout : Prop :=
  ∀ (s : State) (d : BitVec 4) (b : BitVec 7) (p : BitVec 5) (r : BitVec 2) (z : BitVec 1) (g : BitVec 4), Issues s (opAout d b p r z g) →
    (opAout d b p r z g).on (cur s) = true → r ≠ 3 →
    let sc := rsc s (2 * p.toNat)
    let w := fmtW (fld sc 17 5)
    let u := fmtU (fld sc 17 5)
    let val := fun (m n : Nat) => tval 32 false (accEl (cur s) b.toNat m n)
    let live := ((List.range 128).map (fun m => (List.range 128).filterMap (val m))).flatten
    let src := scExp (rsc s (2 * p.toNat + 1))
    let k := scaleShift sc src (ownCensus live) w u
    let out := fun (m n : Nat) => tput w u (if k.2 then none else (val m n).map (fun x => shrG x k.1.toNat (rndOf r.toNat) 0))
    ∃ t, exec (.aout d b p r z g) s = .next t ∧ OnlyCore s t ∧ (cur t).x = (cur s).x ∧ (cur t).v = (cur s).v ∧ (cur t).accAl = (cur s).accAl ∧
      (∀ m n, m < 128 → n < 128 →
        (w ≤ 8 → fld (tget 0 (cur t).t d.toNat) (1024 * m + n * w) w = (out m n).1) ∧
        (8 < w → fld (tget 0 (cur t).t (d.toNat + n / 64)) (1024 * m + n % 64 * w) w = (out m n).1)) ∧
      (∀ j, j ≠ d.toNat → (w ≤ 8 ∨ j ≠ d.toNat + 1) → tget 0 (cur t).t j = tget 0 (cur s).t j) ∧
      (∀ j, tget 0 (cur t).acc j = if z = 1 ∧ b.toNat ≤ j ∧ j < b.toNat + 32 then 0 else tget 0 (cur s).acc j) ∧
      ScaleWritten sc (scaleLater (cur t) (2 * p.toNat)) src k live (((List.range 128).map (fun m => (List.range 128).map (out m))).flatten)

/-- R252 to R257: the queues. `qcfg` binds and formats, `qenq` pushes the four entries of a vector register, `aoutq` those of a row of a C tile, `qreset` empties, `qstat` reads; `qdeq` pops four sink entries (one for a tile row), each
element converted from the next of the stream, in every rounding mode but SR. -/
def Obligations.QueueInstructions : Prop :=
  ∀ (s : State) (q g : BitVec 4),
    let x := queueOf (cur s) q.toNat
    let put := fun (y : Queue) => retired1 s 7 1 (fun c => setQueue c q.toNat y)
    (∀ a, Issues s (opQcfgSrc a q g) → (opQcfgSrc a q g).on (cur s) = true → exec (.qcfgSrc a q g) s = .next (put { x with src := rx6 s a })) ∧
    (∀ a, Issues s (opQcfgSnk a q g) → (opQcfgSnk a q g).on (cur s) = true → exec (.qcfgSnk a q g) s = .next (put { x with snk := rx6 s a })) ∧
    (∀ v, Issues s (opQenq v q g) → (opQenq v q g).on (cur s) = true → exec (.qenq v q g) s = .next (put { x with
      ents := x.ents ++ (List.range 4).map (fun k => (rv s v.toNat).extractLsb' (1024 * k) 1024) })) ∧
    (∀ b r z, Issues s (opAoutq q b r z g) → (opAoutq q b r z g).on (cur s) = true → ∃ t, exec (.aoutq q b r z g) s = .next t ∧ OnlyCore s t ∧
      queueOf (cur t) q.toNat = { x with ents := x.ents ++ (List.range 4).map (fun k =>
        (tget 0 (cur s).acc (b.toNat + r.toNat / 4)).extractLsb' (4096 * (r.toNat % 4) + 1024 * k) 1024) } ∧
      ∀ m n, m < 128 → n < 128 → accEl (cur t) b.toNat m n = if z = 1 ∧ m = r.toNat then 0 else accEl (cur s) b.toNat m n) ∧
    (Open s 7 g → exec (.qreset q g) s = .next (put { x with ents := [], pos := 0 }) ∧
      ∀ d, exec (.qstat d q g) s = .next (retired1 s 7 1 (scalarPut 2 d.toNat (BitVec.ofNat 64 (x.ents.length + x.elems * 256))))) ∧
    (x.pos < x.inPer → x.rnd ≠ 3 →
      let wi := ecW x.srcEc
      let wo := ecW x.snkEc
      let conv := fun (j : Nat) =>
        let e := x.pos + j
        tput wo (ecU x.snkEc) ((tval wi (ecU x.srcEc) (fld (x.ents.getD (e / x.inPer) 0) (e % x.inPer * wi) wi)).map
          (fun v => if 0 ≤ x.sh then shrG v x.sh.toNat (rndOf x.rnd) 0 else v * 2 ^ (-x.sh).toNat))
      let after := fun (n : Nat) =>
        { x with ents := x.ents.drop ((x.pos + n * x.outPer) / x.inPer), pos := (x.pos + n * x.outPer) % x.inPer }
      let counted := fun (t : State) (n : Nat) => x.cnt = true →
        scaleLater (cur t) x.sci = scCount (rsc s x.sci) (((List.range (n * x.outPer)).map conv).countP (fun e => e.2.1))
          (((List.range (n * x.outPer)).map conv).countP (fun e => e.2.2))
      (∀ v, Issues s (opQdeq v q g) → (opQdeq v q g).on (cur s) = true → ∃ t, exec (.qdeq v q g) s = .next t ∧ OnlyCore s t ∧
        queueOf (cur t) q.toNat = after 4 ∧ counted t 4 ∧ (cur t).x = (cur s).x ∧
        ∀ j, j < 4 * x.outPer → fld (vecLater (cur t) v.toNat) (j / x.outPer * 1024 + j % x.outPer * wo) wo = (conv j).1) ∧
      ∀ d a, Issues s (opQdeqTile d q a g) → (opQdeqTile d q a g).on (cur s) = true → ∃ t, exec (.qdeqTile d q a g) s = .next t ∧ OnlyCore s t ∧
        queueOf (cur t) q.toNat = after 1 ∧ counted t 1 ∧ (cur t).x = (cur s).x ∧
        (∀ j, j < x.outPer → fld (tget 0 (cur t).t d.toNat) (1024 * bitsAt (rx6 s a) 0 7 + j * wo) wo = (conv j).1) ∧
        (∀ m, m < 128 → m ≠ bitsAt (rx6 s a) 0 7 → fld (tget 0 (cur t).t d.toNat) (1024 * m) 1024 = fld (tget 0 (cur s).t d.toNat) (1024 * m) 1024) ∧
        ∀ j, j ≠ d.toNat → tget 0 (cur t).t j = tget 0 (cur s).t j)

/-- R71, R73, R89, R258 to R260, R243, R246, R247, R251, R261 to R264: what the E slot and the smoothing instructions of the M slot's neighbour set, each for an open slot. `scset` changes the fields that it names of a scale
register; `scld` brings an entry of the scale table to land in a scale register, and `scst` writes one back to the entry it came from, in whatever space the table lies; `srseed` starts new lane states at c + 1 and
gives SRSEED its value at its bound of 2. `smset` and `smclr` set and clear the smoothing vector, `ecfg` writes a field of a channel's shadow program, `estat` and `anstat` read, `slk` sets the slack of later
requests, `evset` and `evclr` set and clear bits of an event word of the own cluster as the next ccy sees it, a set of one ccy winning over a clear, and mark the task COMMITTED. -/
def Obligations.ScaleAndEngineSettings : Prop :=
  (∀ (s : State) (g : BitVec 4), Open s 7 g →
    (∀ (n a : BitVec 6) (f : BitVec 3),
      let x := rx6 s a
      let sc := rsc s n.toNat
      (f = 1 → bitsAt x 0 6 ≤ 31) → (f = 7 → bitsAt x 22 10 = 0) →
      ∃ t, exec (.scset n a f g) s = .next t ∧ OnlyCore s t ∧ (cur t).x = (cur s).x ∧ (cur t).v = (cur s).v ∧ landings (cur t) = landings (cur s) ∧
        (∀ j, j ≠ n.toNat → scaleLater (cur t) j = scaleLater (cur s) j) ∧
        scaleLater (cur t) n.toNat = match f.toNat with
          | 0 => setFld sc 0 8 x.toNat
          | 1 => setFld (setFld sc 8 6 x.toNat) 14 1 (bitsAt x 6 1)
          | 2 => setFld sc 15 2 x.toNat
          | 3 => setFld sc 17 5 x.toNat
          | 4 => setFld sc 32 16 x.toNat
          | 5 => setFld sc 48 16 x.toNat
          | 6 => setFld sc 64 12 x.toNat
          | _ => setFld (setFld sc 0 22 x.toNat) 32 32 (x.toNat / 2 ^ 32)) ∧
    (∀ a : BitVec 6, let v := (rx6 s a).setWidth 32
      exec (.srseed a g) s = .next (retired1 s 7 1 (fun c => putAt { c with lseed := v, lanes := [] } 2 (.seed v)))) ∧
    (∀ (n a : BitVec 6) (k : BitVec 4), RoomFor s 16 → bitsAt (rx6 s a) 12 52 = 0 →
      let e := entD (cur s) 4 + BitVec.ofNat 64 (16 * bitsAt (rx6 s a) 0 12)
      let lands := fun (t : State) (y : Landing) => StartsOnly s t ∧ y ∈ (cur t).land ∧ y.id = s.nextId ∧
        y.dst = .scale n.toNat (BitVec.ofNat 12 (bitsAt (rx6 s a) 0 12)) ∧
        y.at_ = (cur s).ctime + (if spc e = 1 then Nat.max 4 (delayOf s k.toNat) else delayOf s k.toNat)
      (spc e = 1 → ownHeld s = false) →
      (∀ l, spc e = 1 → chk s e 16 16 false = .ok (.loc l) → errIn s l 16 = none →
        ∃ t y, exec (.scld n a k g) s = .next t ∧ lands t y ∧ y.parts = [⟨0, some (BitVec.ofNat 1024 (rd s l 16))⟩]) ∧
      ∀ w, chk s e 16 16 false = .ok w → (spc e ≠ 1 ∨ ∃ l, w = .loc l ∧ errIn s l 16 ≠ none) →
        ∃ t y r, exec (.scld n a k g) s = .next t ∧ lands t y ∧ y.parts = [⟨r.id, none⟩] ∧ r ∈ t.reqs ∧ r.core = s.cur ∧ r.kind = .load ∧
          r.addr = e ∧ r.loc = w.loc? ∧ r.n = 16 ∧ r.dst = .land y.id 0 ∧ r.stage = .out) ∧
    ∀ n : BitVec 6, RoomFor s 0 →
      let e := entD (cur s) 4 + BitVec.ofNat 64 (16 * fld (rsc s n.toNat) 64 12)
      let v := fld (rsc s n.toNat) 0 64
      (∀ l, spc e = 1 → ownHeld s = false → chk s e 16 16 true = .ok (.loc l) →
        exec (.scst n g) s = .next (retired1 (softDone (errClear (wr s l 16 v) l 16) l 16) 7 1 id)) ∧
      ∀ w, GoesOut s e 16 16 true w →
        ∃ t r, exec (.scst n g) s = .next t ∧ StartsOnly s t ∧ (cur t).pend = (cur s).pend ∧ (cur t).land = (cur s).land ∧ r ∈ t.reqs ∧
          r.core = s.cur ∧ r.kind = .store ∧ r.addr = e ∧ r.loc = w.loc? ∧ r.n = 16 ∧ r.wr = bytesOf 0 16 v ∧ r.dst = .none ∧ r.stage = .out) ∧
  (∀ (s : State) (g : BitVec 4),
    (Open s 6 g → exec (.smclr g) s = .next (retired1 s 6 1 (fun c => { c with smstat := setFld c.smstat 21 1 0 })) ∧
      ∀ (a : BitVec 6) (f : BitVec 5) (l : Nat), f = 5 ∨ f = 13 → spc (rx6 s a) = 1 → ownHeld s = false → RoomFor s 0 →
        chk s (rx6 s a) 64 64 false = .ok (.loc l) → errIn s l 64 = none →
        exec (.smset a f g) s = .next (retired1 (softTouch s l 64) 6 1 (fun c => putAt { c with
          smaddr := rx6 s a, smstat := BitVec.ofNat 64 (f.toNat * 2 ^ 16 + 2 ^ 21) } 4 (.sm (BitVec.ofNat 512 (rd s l 64)))))) ∧
    (Open s 7 g →
      (∀ (c : BitVec 2) (f a : BitVec 6), f.toNat ≤ 4 ∨ (8 ≤ f.toNat ∧ f.toNat ≤ 25) →
        let x := chanOf (cur s) c.toNat
        exec (.ecfg c f a g) s = .next (retired1 s 7 1 (fun k => setChan k c.toNat { x with shadow := tset 0 x.shadow f.toNat (rx6 s a) }))) ∧
      (∀ (d : BitVec 6) (c : BitVec 2),
        let x := chanOf (cur s) c.toNat
        let live := match x.live with
          | none => false
          | some p => decide (x.done < pTotal p.f)
        exec (.estat d c g) s = .next (retired1 s 7 1 (scalarPut 2 d.toNat
          (BitVec.ofNat 64 (b2n live + 2 * b2n x.pend.isSome + Nat.min x.done (2 ^ 32 - 1) * 2 ^ 32))))) ∧
      (∀ (d : BitVec 6) (x : BitVec 3), x.toNat ≤ 3 → exec (.anstat d x g) s = .next (retired1 s 7 1 (scalarPut 2 d.toNat
        (if x = 0 then BitVec.ofNat 64 ((cur s).debt % 2 ^ 24 + (cur s).al % 2 ^ 16 * 2 ^ 24 + (cur s).denies % 2 ^ 16 * 2 ^ 40 +
            (cur s).gang % 2 ^ 7 * 2 ^ 56)
          else if x = 1 then (cur s).ancfg else if x = 2 then (cur s).smstat else (cur s).mxstat)))) ∧
      (∀ i : BitVec 12, exec (.slk i g) s = .next (retired1 s 7 1 (fun c => putAt c 2 (.slk (i.setWidth 64))))) ∧
      (∀ a : BitVec 6, exec (.slkReg a g) s =
        .next (retired1 s 7 1 (fun c => putAt c 2 (.slk (BitVec.ofNat 64 (Nat.min (rx6 s a).toNat 4095)))))) ∧
      ∀ (a : BitVec 6) (w : BitVec 3),
        let r0 := frameHome s (cur s).ctx (dieOf s.cur) (cur s).trec.w1
        let n := cluOf s.cur
        let next := fun (t : State) (j : Nat) => evWord { t with ccy := s.ccy + 1 } n j
        let m := (rx6 s a).setWidth 32
        let marked := fun (i : Instr) (v : BitVec 32) => ∃ t, exec i s = .next t ∧
          ((clu s n).evCcy ≤ s.ccy → next t w.toNat = v ∧ ∀ j, j < 8 → j ≠ w.toNat → next t j = next s j) ∧
          (∀ m, m ≠ n → clu t m = clu s m) ∧
          (cur t).trec.committed = true ∧ (rdRec t r0).committed = true ∧ (∀ b, b < r0 ∨ r0 + 8 ≤ b → rdB t b = rdB s b) ∧
          (cur t).x = (cur s).x ∧ ∀ k, k ≠ s.cur → core t k = core s k
        marked (.evset a w g) (next s w.toNat ||| m) ∧
        marked (.evclr a w g) ((next s w.toNat &&& ~~~m) ||| (if (clu s n).evCcy = s.ccy then tget 0 (clu s n).evS w.toNat else 0))))

/-! ## Copies, group barriers, tasks -/

/-- R106, R119, R247, R249 to R251, R262: copies and group barriers. `ego` hands the shadow program over as the live or the pending one; a copy between memory ranges moves its bytes and nothing else, counts as done, and counts its exhausted answers (R119); a program that has done every copy makes
way for the pending one (a copy that reads an uncorrectable error, or writes into the frame of a live record, leaves undefined values, R30, R251). `gbar` becomes a request of the hub that counts in JOINCNT.ISSUED; an arrival that leaves a member out is kept, and the last one completes the epoch for one arrival of each member, with
the epoch's number unless software has written the group table in flight (R49). -/
def Obligations.CopiesAndGroupBarriers : Prop :=
  (∀ (s : State) (c : BitVec 2) (g : BitVec 4), Issues s (opEgo c g) → (opEgo c g).on (cur s) = true →
    let x := chanOf (cur s) c.toNat
    ∃ t p, exec (.ego c g) s = .next t ∧ (∀ k, k ≠ s.cur → core t k = core s k) ∧ (cur t).x = (cur s).x ∧ p.f = x.shadow ∧ p.id = s.nextId ∧ p.chan = c.toNat ∧ p.deps = [] ∧
      p.slack = (if bit (pf x.shadow 3) 12 then fld (pf x.shadow 3) 0 12 else rslk s) ∧ p.next = 0 ∧ p.ahead = [] ∧
      chanOf (cur t) c.toNat = (if x.live = none then { x with live := some p, done := 0 } else { x with pend := some p })) ∧
  (∀ (s : State) (k c i : Nat) (p : CopyProg) (L D : Nat → Nat), (chanOf (core s k) c).live = some p → copyReady s k p i = true →
    pSqe p.f = false → pDqe p.f = false → p.far = [] → offPackage s p.ctx (pSrc p.f i) = false →
    offPackage s p.ctx (pDst p.f i) = false →
    let n := pBytes p.f
    (∀ j, j < n → copyLoc s k p (pSrc p.f i + BitVec.ofNat 64 j) false = .ok (some (L j)) ∧
      copyLoc s k p (pDst p.f i + BitVec.ofNat 64 j) true = .ok (some (D j))) →
    (∀ j h, j < n → h < n → D j = D h → j = h) → (∀ j, j < n → errIn s (L j) 1 = none ∧ frameHits s (D j) 1 = []) →
    ∃ t, exec (.copyPerform k c i) s = .next t ∧ (∀ j, j < n → rdB t (D j) = rdB s (L j)) ∧ (∀ b, (∀ j, j < n → b ≠ D j) → rdB t b = rdB s b) ∧
      (chanOf (core t k) c).done = (chanOf (core s k) c).done + 1 ∧ (chanOf (core t k) c).pend = (chanOf (core s k) c).pend ∧
      { core t k with ch := (core s k).ch, slkstat := (core s k).slkstat } = core s k ∧
      (∃ e, e ≤ 2 * n ∧ (core t k).slkstat = (fun x => satAdd x 0 32)^[e] (core s k).slkstat) ∧ ∀ j, j ≠ k → core t j = core s j) ∧
  (∀ (s : State) (k c : Nat) (p : CopyProg),
    let x := chanOf (core s k) c
    x.live = some p → pTotal p.f ≤ x.done → pf p.f 4 = 0 → exec (.copyProgramComplete k c) s =
      .next (setCore s k (setChan (core s k) c { x with live := x.pend, pend := none, done := if x.pend.isSome then 0 else x.done }))) ∧
  (∀ (s : State) (c : BitVec 6) (e : BitVec 8) (g : BitVec 4), Issues s (opGbar c e g) → (opGbar c e g).on (cur s) = true →
    ∃ t r, exec (.gbar c e g) s = .next t ∧ t.comps = s.comps ++ [r] ∧ r.what = .gbar s.cur (cur s).ctx e.toNat ∧ r.n = 8 ∧
      r.loc = slotLoc s (rx6 s c) 8 ∧ r.frame = (cur s).trec.w1 ∧ fld (cur t).joincnt 0 16 = (fld (cur s).joincnt 0 16 + 1) % 2 ^ 16 ∧
      (cur t).trec.committed = true ∧ (cur t).x = (cur s).x ∧ ∀ k, k ≠ s.cur → core t k = core s k) ∧
  ∀ (s : State) (r : Comp) (k cx g : Nat), findComp s r.id = some r → r.what = .gbar k cx g → performed s r.deps = true →
    let e := tget {} (ctx s cx).epochs g
    (∀ a ∈ e.arr, a.2 ≠ r.id) →
    let member := fun (j : Nat) => j < 512 ∧ (groupOf s cx g).members.getLsbD j = true
    let arr := e.arr ++ [(k, r.id)]
    let first := fun (a : Nat × Nat) => arr.find? (fun b => b.1 = a.1) = some a
    ((∃ j, member j ∧ ∀ a ∈ arr, a.1 ≠ j) → ∃ t, exec (.groupBarrierArrival r.id) s = .next t ∧ t.comps = s.comps ∧ t.mem = s.mem ∧
      tget {} (ctx t cx).epochs g = { e with arr := arr }) ∧
    ((∀ j, member j → ∃ a ∈ arr, a.1 = j) → (ctx s cx).grpBroken = false → ∃ t, exec (.groupBarrierArrival r.id) s = .next t ∧ t.mem = s.mem ∧ t.cores = s.cores ∧
      (tget {} (ctx t cx).epochs g).n = e.n + 1 ∧
      t.comps.length = s.comps.length ∧ ∀ (n : Nat) (c : Comp), s.comps[n]? = some c → ∃ d : Comp, t.comps[n]? = some d ∧
        ((∃ a ∈ arr, member a.1 ∧ first a ∧ a.2 = c.id) → d = { c with what := .done, v := (e.n.setWidth 64).setWidth 1024 }) ∧
        ((∀ a ∈ arr, member a.1 → first a → a.2 ≠ c.id) → d = c))

/-- R25 to R29, R37, R199 to R201: what a task posts. The core's own scratchpad gives the record or word at once; from any other space it is the data of the reply that the core has waited for, without which the bundle sends the request and freezes. `qpush` writes the record (here of a FRAME that no live record has) to its frame's slot with the frame header, adds it to the launch's live records and, with JOIN zero, to the ready queue it names; `tpost` gives the tile word
to its sequencer and counts its completion; `tix` has its word accepted at once and waits for it. -/
def Obligations.TaskPosts : Prop :=
  ∀ (s : State) (a : BitVec 6) (g : BitVec 4) (l : Nat),
    let c := cur s
    let r0 := frameHome s c.ctx (dieOf s.cur) c.trec.w1
    let here := fun (n : Nat) => spc (rx6 s a) = 1 ∧ chk s (rx6 s a) n n false = .ok (.loc l)
    let sent := fun (n v : Nat) => spc (rx6 s a) ≠ 1 ∧ (∃ w, chk s (rx6 s a) n n false = .ok w) ∧ ∃ p d, c.prd = some (p, some (.data d)) ∧ v = d.toNat % 2 ^ (8 * n)
    (∀ v : Nat, (here 64 ∧ v = rd s l 64) ∨ sent 64 v → Issues s (opQpush a g) → (opQpush a g).on (cur s) = true →
      let q := recOf v
      let r := { q with w1 := frameCanon s.cur q.w1 }
      let n := 16 * dieOf s.cur + frClu r.w1
      let b := frameHome s c.ctx (dieOf s.cur) r.w1
      b + 67 ≤ r0 ∨ r0 + 8 ≤ b → swImage s c.ctx n = none → (c.ctx, n, r.w1) ∉ liveAll s → (ringOf (clu s n) (r.qid % 4)).cnt = 0 → (rqOf (clu s n) (r.qid % 4)).length < 32 →
      ∃ t, exec (.qpush a g) s = .next t ∧ rdRec t b = r ∧ rd t (b + 64) 2 = c.ltag.toNat ∧ rd t (b + 66) 1 = c.ctx % 256 ∧
        (cur t).trec.committed = true ∧ (∀ x, (x < b ∨ b + 67 ≤ x) → (x < r0 ∨ r0 + 8 ≤ x) → rdB t x = rdB s x) ∧
        (∀ m, m ≠ n → clu t m = clu s m) ∧ (∀ m, m ≠ r.qid % 4 → rqOf (clu t n) m = rqOf (clu s n) m) ∧
        rqOf (clu t n) (r.qid % 4) = rqOf (clu s n) (r.qid % 4) ++ (if r.join = 0 then [r] else []) ∧
        t.hub.launches = s.hub.launches.map (fun x => if x.tag = c.ltag then { x with recs := x.recs ++ [(n, r.w1)] } else x) ∧
        (cur t).x = (cur s).x ∧ ∀ k, k ≠ s.cur → core t k = core s k) ∧
    (∀ n i, (n = 64 ∧ i = .qpush a g) ∨ (n = 32 ∧ (i = .tix a g ∨ ∃ e, i = .tpost e a g)) → Open s 3 g → RoomFor s 0 → spc (rx6 s a) ≠ 1 → c.prd = none →
      ∀ w, chk s (rx6 s a) n n false = .ok w → ∃ t q, exec i s = .next t ∧ q ∈ t.reqs ∧ q.id = s.nextId ∧ q.kind = .load ∧ q.core = s.cur ∧ q.addr = rx6 s a ∧ q.n = n ∧ q.slack = rslk s ∧ q.stage = .out ∧
        (cur t).prd = some (s.nextId, none) ∧ (cur t).pc = c.pc ∧ (cur t).x = c.x ∧ t.mem = s.mem ∧ ∀ k, k ≠ s.cur → core t k = core s k) ∧
    (∀ w : Bundle, (here 32 ∧ w = BitVec.ofNat 256 (rd s l 32)) ∨ sent 32 w.toNat →
      (∀ e : BitVec 6, Issues s (opTpost e a g) → (opTpost e a g).on (cur s) = true →
        ∃ t y old, exec (.tpost e a g) s = .next t ∧ t.tiles = old ++ [y] ∧ old.length = s.tiles.length ∧
          (∀ (n : Nat) (x : TileW), s.tiles[n]? = some x → old[n]? = some x ∨ old[n]? = some { x with spoilt := true }) ∧ y.id = s.nextId ∧ y.word = w ∧ y.stage = .posted ∧ y.core = s.cur ∧
          y.ctx = c.ctx ∧ y.ltag = c.ltag ∧ y.seed = rseed s ∧ y.src = .tpost (slotLoc s (rx6 s e) 8) c.trec.w1 ∧
          fld (cur t).joincnt 0 16 = (fld c.joincnt 0 16 + 1) % 2 ^ 16 ∧ (cur t).trec.committed = true ∧ (cur t).x = c.x ∧
          ∀ x, x < r0 ∨ r0 + 8 ≤ x → rdB t x = rdB s x) ∧
      (Issues s (opTix a g) → (opTix a g).on (cur s) = true → (∀ y ∈ s.tiles, y.id ≠ s.nextId) → ∃ t y, exec (.tix a g) s = .next t ∧ findTile t s.nextId = some y ∧
        y.word = w ∧ y.stage = .accepted ∧ y.src = .tix ∧ y.core = s.cur ∧ (cur t).mwait = .tix s.nextId ∧ (cur t).trec.committed = true ∧
        (cur t).x = c.x ∧ ∀ x, x < r0 ∨ r0 + 8 ≤ x → rdB t x = rdB s x))

/-- R31 to R35, R365, R367, R369: tasks come and go. A dispatch takes the ready head of the highest queue that is not frozen (here with no head aged and the rings empty) to the lowest idle core, which starts at its PC with the record's FRAME (the event words as the ccy of the dispatch sees them, R47)
and arguments in x1 to x4 and everything else as Table 5 of chapter 02 has it; a pre-empted core's record goes, as KIND 2 with its save block, to the head of its queue, and the core is held idle. -/
def Obligations.TaskStartsAndSaves : Prop :=
  (∀ (s : State) (n cx k q : Nat) (r : Rec) (rest : List Rec), ownerOf s n = some cx → idleCore s n = some k →
    let c := clu (dispatchCcy s n) n
    c.noDisp = false → c.aged = [] → (∀ j, (ringOf c j).cnt = 0) → q < 4 → rqOf c q = r :: rest → r.kind ≠ 2 →
    popOk c q = true → (∀ j, q < j → j < 4 → popOk c j = false) →
    let a := frLoc (dieOf k) r.w1
    let slot := (r.setKind 3).setJoin 0
    ∃ t, exec (.dispatch n) s = .next t ∧
      (core t k).run = .running ∧ (core t k).pc = BitVec.ofNat 64 r.pc ∧ (core t k).ctx = cx ∧ (core t k).trec = slot ∧
      (∀ d, tget 0 (core t k).x d = if d = 1 then r.w1 else if d = 2 then r.w5 else if d = 3 then r.w6 else if d = 4 then r.w7 else 0) ∧
      (core t k).p = 1 ∧ (core t k).ctime = 0 ∧ (core t k).wtime = (core s k).wtime ∧ (core t k).accAl = 0 ∧ (core t k).lpc = [] ∧
      (∀ j, tget 0 (core t k).lt j = 0) ∧ (core t k).joincnt = 0 ∧ (core t k).slkstat = 0 ∧ (core t k).mmstat = 0 ∧ (core t k).frzstat = 0 ∧ (core t k).mxstat = 0 ∧
      fld (core t k).slk 0 12 = r.slack % 2 ^ 12 ∧ (core t k).wait = .none ∧ (core t k).mwait = .none ∧ (core t k).trap = none ∧ tget 0 (clu t n).age q ≤ 1 ∧
      (∀ j, j < 32 → tget 0 (core t k).ent j = ctxD s cx j) ∧
      rdRec t a = slot ∧ (∀ b, b < a ∨ a + 64 ≤ b → rdB t b = rdB s b) ∧ rqOf (clu t n) q = rest ∧
      (∀ j, j ≠ q → rqOf (clu t n) j = rqOf (clu s n) j) ∧ (∀ m, m ≠ n → clu t m = clu s m) ∧ ∀ j, j ≠ k → core t j = core s j) ∧
  ∀ (s : State) (k i : Nat), isSaving (core s k) = true → (∀ j, j ≠ k → cluOf j = cluOf k → isSaving (core s j) = false) →
    let c := core s k
    i + 1 < 2 ^ 20 → freeBlock (ctx s c.ctx) = some i → blkFail s c.ctx i true (savePages c.accAl) = none →
    let n := homeClu k c.trec.w1
    ∃ t r, exec (.preemptSave k) s = .next t ∧ (core t k).run = .idle ∧ (core t k).pre = .held ∧ (∀ j, j ≠ k → core t j = core s j) ∧
      r.kind = 2 ∧ r.pc = c.resume.toNat % 2 ^ 40 ∧ r.join = 0 ∧ r.saveix = i + 1 ∧ rqOf (clu t n) r.qid = r :: rqOf (clu s n) r.qid ∧
      (∀ q, q ≠ r.qid → rqOf (clu t n) q = rqOf (clu s n) q) ∧ (∀ m, m ≠ n → clu t m = clu s m) ∧
      (ctx t c.ctx).saveUsed = i :: (ctx s c.ctx).saveUsed

/-! ## What comes due in a core -/

/-- R126, R127, R130, R135, R137, R138, R245, R365: what the passing of time does to a core. A result whose latency bound has passed stands in its register; occupancies and busy marks that have ended are gone, and no others; at a window boundary
the Annealer pays back and sets its allowance; a freeze of more than 4,194,304 ccy (of whatever causes: the model's choice, log entry 76) raises FRZTO, also in a core that waits for the end of its task: it is recorded at once, and a fault that waits before it keeps its place; a pending trap is taken, and a pre-emption that is being taken turns into saving with JOIN and JOINCNT.ISSUED zero, once R136 holds. -/
def Obligations.CoreEvents : Prop :=
  ∀ (s : State) (k : Nat),
    let c := core s k
    (∃ t, exec (.latencyBoundExpiry k) s = .next t ∧ (∀ j, j ≠ k → core t j = core s j) ∧ t.mem = s.mem ∧
      (core t k).pend = c.pend.filter (fun p => decide (c.ctime < p.ready)) ∧
      { core t k with x := c.x, v := c.v, sc := c.sc, slk := c.slk, smv := c.smv, srseed := c.srseed, pend := c.pend } = c ∧
      (∀ d, (∀ p ∈ c.pend, p.dst.name = PDst.name (.x d 0) → c.ctime < p.ready) → tget 0 (core t k).x d = tget 0 c.x d) ∧
      ∀ p ∈ c.pend, p.ready ≤ c.ctime → (∀ q ∈ c.pend, q.dst.name = p.dst.name → q = p) →
        (∀ d v, p.dst = .x d v → d ≠ 0 → tget 0 (core t k).x d = v) ∧ (∀ d v, p.dst = .v d v → tget 0 (core t k).v d = v) ∧
        (∀ d v, p.dst = .sc d v → tget 0 (core t k).sc d = v) ∧ (∀ v, p.dst = .slk v → (core t k).slk = v) ∧
        (∀ v, p.dst = .seed v → (core t k).srseed = v) ∧ ∀ v, p.dst = .sm v → (core t k).smv = v) ∧
    (∃ t, exec (.occupancyEnd k) s = .next t ∧ t = setCore s k { c with occ := (core t k).occ } ∧
      (tsorted c.occ = true → ∀ j, tget 0 (core t k).occ j = if c.oclk < tget 0 c.occ j then tget 0 c.occ j else 0)) ∧
    (∃ t, exec (.busyClear k) s = .next t ∧ t = setCore s k { c with busy := (core t k).busy } ∧
      (∀ r m, resBusy (core t k) m r = resBusy c m r) ∧ ∀ b ∈ (core t k).busy, b.holds c = true) ∧
    (let a := budgetOf s s.hub.op.toNat
     let pay := Nat.min c.debt c.al
     exec (.annealerWindow k) s = .next (setCore s k (if c.window < c.wtime / 64 then
       { c with
         ancfg := a, debt := c.debt - pay, used := pay, window := c.window + 1
         al := Nat.min (Nat.min (fld a 0 16) 1024) (pay + (if fld a 16 16 = 0 then 65535 else fld a 16 16)) } else c))) ∧
    (c.run = .running ∨ c.run = .ending → 4194304 < c.frz → ∃ t, exec (.frzto k) s = .next t ∧
      (core t k).trap = some (c.trap.getD { info := { code := .frzto, prec := 2 }, off := repOff s c, told := true }) ∧ (c.trap ≠ none → (core t k).lost = true) ∧
      (core t k).wait = .none ∧ (core t k).mwait = .none ∧ (core t k).frz = 0 ∧ (core t k).pc = c.pc ∧ (∀ j, j ≠ k → core t j = core s j) ∧
      let f := (ctx s c.ctx).fr
      let a := f.base + 128 + 128 * (f.tail % 2 ^ f.log2n)
      f.wait = [] → f.room = true → rd t (f.base + 8) 4 = (f.tail + 1) % 2 ^ 32 ∧ rd t a 8 % 2 ^ 16 = Code.frzto.num ∧
        ∀ b, (b < a ∨ a + 64 ≤ b) → (b < f.base + 8 ∨ f.base + 12 ≤ b) → rdB t b = rdB s b) ∧
    (∀ p, c.trap = some p → c.run = .running → quiet c = true → waitedOut s c = none → exec (.trapTaken k) s = .next (takeTrap s k p [])) ∧
    (c.run = .running → c.pre = .taking → quiet c = true → waitedOut s c = none → joinSum s k = 0 → chansIdle c = true →
      let a := frameHome s c.ctx (dieOf k) c.trec.w1
      ∃ t, exec (.interruptTaken k) s = .next t ∧ core t k = { c with pre := .saving, joincnt := setFld c.joincnt 0 16 0, resume := c.pc, frz := 0, satCcy := s.ccy } ∧
        (∀ j, j ≠ k → core t j = core s j) ∧ (rdRec t a).join = 0 ∧ ∀ b, b < a + 16 ∨ a + 24 ≤ b → rdB t b = rdB s b)

/-! ## Tile words -/

namespace Sys2Proof.Machine

/-- The sixteen operations: OP and the word that runs. -/
def tileOpRow : Instr → Option (Nat × Nat)
  | .tmma id => some (1, id)
  | .tmmag id => some (2, id)
  | .tcopy id => some (3, id)
  | .ttrans id => some (4, id)
  | .tred id => some (5, id)
  | .tscan id => some (6, id)
  | .tew id => some (7, id)
  | .tqnt id => some (8, id)
  | .tsmax id => some (9, id)
  | .tnorm id => some (10, id)
  | .topt id => some (11, id)
  | .tcoll id => some (12, id)
  | .tfill id => some (13, id)
  | .tgath id => some (14, id)
  | .tscat id => some (15, id)
  | .tbar id => some (16, id)
  | _ => none

/-- A step concerns tile words alone. -/
def TilesOnly (s t : State) : Prop := { t with tiles := s.tiles, free := s.free } = s

/-- The element of I32 operands without NaI and without saturation, from the values of A, B and C (R280, R284 to R288): `va`, `vb`
and `vc` give the value of an operand's element. -/
def tileVal (t : TileW) (ad bd : List Nat) (va vb vc : Nat → Int) (ea eb : Int) (i : Nat) : Option Int :=
  let d := t.desc.getD 0 0
  let md := twMod t.word
  let n := dscDim d 0
  match twOp t.word with
  | 1 =>
    let k := ad.getD 0 1
    if 128 < k ∨ 1 < md ∨ twKsplit t.word then none
    else some ((if md = 1 then vc i else 0) + ((List.range k).map (fun j =>
      va (i / n * k + j) * vb ((i / n / dscDim d 1 * k + j) * n + i % n))).sum)
  | 5 =>
    let x := coords (dscDims d) i
    let vs := (List.range (ad.getD (md % 4) 1)).map (fun j => va (linear ad (x.set (md % 4) j)))
    (match md / 4 with
      | 0 => some vs.sum
      | 1 => vs.max?
      | 2 => vs.min?
      | _ => none)
  | 6 => if md < 16 then
      some (((List.range (ad.foldl (· * ·) 1)).filter (fun j => (List.range 4).all (fun a =>
        if md.testBit a then decide (coord ad j a ≤ coord ad i a) else decide (coord ad j a = coord ad i a)))).map va).sum
    else none
  | 7 =>
    let j := linear bd ((List.range 4).map (fun a => if bd.getD a 1 = 1 then 0 else coord ad i a))
    if ea ≠ 0 ∨ eb ≠ 0 then none else
    (match md with
      | 0 => some (va i + vb j)
      | 1 => some (va i - vb j)
      | 2 => some (va i * vb j)
      | 3 => some (max (va i) (vb j))
      | 4 => some (min (va i) (vb j))
      | 5 => some (max (va i) 0)
      | 6 => some |va i|
      | 7 => some (-va i)
      | 9 => some (if 0 < va i then 1 else if va i < 0 then -1 else 0)
      | _ => none)
  | 8 => some (va i)
  | 13 =>
    let v : Int := (BitVec.ofNat 32 (fld t.word 192 32)).toInt
    some (if md.testBit 0 then v + i else v)
  | _ => none

end Sys2Proof.Machine

/-- R275 to R277, R303 to R306: the life of a tile word. A posted word is decoded once, and accepted with its descriptors, entries and the words it starts after, or fails with its check's fault; an accepted word that may start runs its operation: each written row
holds its codes and no other byte changes (here for one output without block scales, in an operation without overlap, without staging and without partials that leave the package, written outside the frames of live records), while a word with P and `tbar` write nothing; an access that
fails makes it a child's fault, with the record of its leaf and the chain of links above it, which fails the word; and a word that is done or has failed leaves its sequencer with completion 0 or 1 to the poster's slot, to the core that waits in `tix`, or to its launch. -/
def Obligations.TileWordSteps : Prop :=
  ∀ (s : State) (id : Nat) (w : TileW), findTile s id = some w →
    let view := tileView w
    (w.stage = .posted → ∃ t y, exec (.tileWordAccept id) s = .next t ∧ findTile t id = some y ∧
      (∀ u, tileDecode s w = .ok u → TilesOnly s t ∧
        { y with freed := u.freed, held := barHeld s w } = { u with stage := .accepted, deps := tileDeps s w, held := barHeld s w } ∧
        (twOp w.word ≠ 16 → y = { u with stage := .accepted, deps := tileDeps s w, held := barHeld s w })) ∧
      ∀ f, tileDecode s w = .error f → y = { w with stage := .failed f [] } ∧ (f.code ≠ .uecc → TilesOnly s t)) ∧
    (∀ (i : Instr) (op : Nat), tileOpRow i = some (op, id) → twOp w.word = op → tileReady s w = true → w.far = [] →
      let rd := fun j => readSrc s w j
      let ten := fun j => (rd j).1.headD ⟨w.desc.getD j 0, scExp (w.ents.getD j 0), #[], #[]⟩
      let o := if op = 12 then collOut s w (rd 1).1 else tileOut w (ten 0) (ten 1) (ten 2) (ten 3)
      let cs := if w.stage = .fetch then w.cores else childCores s w
      let failed := (entFail s w).or ([0, 1, 2, 3].findSome? (fun j => if j = 0 ∧ op ≠ 11 then none else (rd j).2))
      (twProbe w.word = true ∨ op = 16 → ∃ t, exec i s = .next t ∧ TilesOnly s t ∧
        findTile t id = some { w with stage := .done, upd := [], degr := false, cores := [] }) ∧
      (twProbe w.word = false → op ≠ 16 → farSrc s w = [] →
        (failed = none → (putOut w.ctx o.rows s).2 = none → overlapped s w = [] →
          farOut s w o.rows = [] → o.send = [] → launchOf s w.ltag = none →
          ∃ t, exec i s = .next t ∧ findTile t id = some { w with stage := .done, upd := o.upd, degr := o.degr, cores := cs } ∧
            { t with tiles := s.tiles, free := s.free } = { (putOut w.ctx o.rows s).1 with tiles := s.tiles, free := s.free } ∧
            ∀ (d : BitVec 512) (rows : List (Nat × List Nat)) (L : Nat → Nat → Nat), o.rows = [(view, d, rows, 0, [])] → dscBlk d = false →
              (rows.map (·.1)).Nodup → (∀ e ∈ rows, e.2.length = dscDim d 0) →
              (∀ r j m e, j < dscRowB d →
                tileLoc { s with mem := m, uecc := e } w.ctx view (dscRow d r + BitVec.ofNat 64 j) true = .ok (some (L r j))) →
              (∀ r j q h, j < dscRowB d → h < dscRowB d → L r j = L q h → r = q ∧ j = h) →
              (∀ e ∈ rows, ∀ j, j < dscRowB d → frameHits s (L e.1 j) 1 = []) →
              (∀ e ∈ rows, ∀ j, j < dscRowB d → (rdB t (L e.1 j)).toNat = packE (dscWid d) e.2 / 256 ^ j % 256) ∧
              ∀ b, (∀ e ∈ rows, ∀ j, j < dscRowB d → b ≠ L e.1 j) → rdB t b = rdB s b) ∧
        ∀ f, failed = some f ∨ (failed = none ∧ (putOut w.ctx o.rows s).2 = some f) →
          let x := (wordFail s w [] ((rd 2).1.headD ⟨w.desc.getD 2 0, 0, #[], #[]⟩)).getD (f, [])
          ∃ t, exec i s = .next t ∧ { t with tiles := s.tiles, free := s.free, hub := s.hub } = s ∧
            findTile t id = some { w with stage := .child (leafInfo w x.1 x.2) x.2, cores := cs })) ∧
    (∀ f ls, w.stage = .child f ls → ∃ t u, exec (.childFault id) s = .next t ∧ findTile t id = some u ∧
      u.stage = .failed f ls ∧ u.word = w.word ∧ u.src = w.src ∧ t.cores = s.cores ∧ t.comps = s.comps) ∧
    (let gone := s.tiles.filter (fun u => decide (u.id ≠ id))
     let clean := w.spoilt = false ∧ (ctx s w.ctx).grpBroken = false
     let ok := w.stage = .done ∧ w.upd = [] ∧ w.far = [] ∧ clean
     (∀ loc f, w.src = .tpost loc f → (ok → ∃ t c, exec (.tileWordCompletion id) s = .next t ∧ t.tiles = gone ∧ t.comps = s.comps ++ [c] ∧
         c.what = .done ∧ c.loc = loc ∧ c.n = 8 ∧ c.v = 0 ∧ c.frame = f ∧ t.cores = s.cores ∧ t.mem = s.mem) ∧
       ∀ i ls, w.stage = .failed i ls → ∃ t c, exec (.tileWordCompletion id) s = .next t ∧ t.tiles = gone ∧ t.comps = s.comps ++ [c] ∧ c.loc = loc ∧ c.v = 1) ∧
     (w.src = .tix → (core s w.core).mwait = .tix id →
       (ok → ∃ t, exec (.tileWordCompletion id) s = .next t ∧ t.tiles = gone ∧ (core t w.core).mwait = .none ∧
         (core t w.core).trap = (core s w.core).trap ∧ (core t w.core).x = (core s w.core).x ∧ t.mem = s.mem ∧ ∀ k, k ≠ w.core → core t k = core s k) ∧
       ∀ i ls, w.stage = .failed i ls → (core s w.core).trap = none → (core s w.core).run = .running →
         let f := (ctx s (core s w.core).ctx).fr
         ∃ t, exec (.tileWordCompletion id) s = .next t ∧ t.tiles = gone ∧ (core t w.core).mwait = .none ∧ (∀ k, k ≠ w.core → core t k = core s k) ∧
         (core t w.core).trap = some { info := { i with prec := if w.slot = 0 then 0 else 1, slot := w.slot }, next := decide (w.slot = 0), off := w.off, links := ls, told := true } ∧
         (w.slot = 0 → (core t w.core).resume = w.npc) ∧
         (clean → ∀ b, (b < f.base ∨ f.base + 128 + 128 * 2 ^ f.log2n ≤ b) → rdB t b = rdB s b)) ∧
     (w.src = .launch → ok → ∃ t, exec (.tileWordCompletion id) s = .next t ∧ t.tiles = gone ∧ t.cores = s.cores ∧ t.mem = s.mem ∧
       t.hub.launches = s.hub.launches.map (fun l => if l.word = some id then { l with word := none, degr := l.degr || w.degr } else l)))

/-- R272, R280, R284 to R288: the elements of an I32 output, where no source element is NaI, every exponent is in range and every value stands in 32 bits: each row holds the values of the operation's own formula, and nothing saturates or is poisoned.
`tcopy` and `ttrans` move codes as they are. -/
def Obligations.TileElements : Prop :=
  ∀ (t : TileW) (td ta tb tc : Ten) (va vb vc : Nat → Int),
    let d := t.desc.getD 0 0
    let n := dscDim d 0
    (dscI32 d = true → t.ents.getD 0 0 = 0 → (∀ i, ta.at_ i = some (va i)) → (∀ i, tb.at_ i = some (vb i)) → (∀ i, tc.at_ i = some (vc i)) →
      dscBlk ta.d = false → dscBlk tb.d = false → dscBlk tc.d = false → -32 ≤ ta.exp → ta.exp ≤ 32 → -32 ≤ tb.exp → tb.exp ≤ 32 →
      ∀ val : Nat → Int, (∀ i, i < dscElems d → tileVal t (dscDims ta.d) (dscDims tb.d) va vb vc ta.exp tb.exp i = some (val i) ∧ |val i| < 2 ^ 31) →
        dscDims ta.d = dscDims d ∨ twOp t.word ≠ 7 → dscDim tb.d 0 = n ∨ twOp t.word ≠ 1 →
        (tileOut t td ta tb tc).rows = [(tileView t, d, (List.range (dscRows d)).map (fun r =>
          (r, (List.range n).map (fun c => (val (r * n + c) % 2 ^ 32).toNat))), 0, [])] ∧
        ∀ u ∈ (tileOut t td ta tb tc).upd, u.sci = dscSci d ∧ u.satc = 0 ∧ u.poison = 0 ∧ u.move = false) ∧
    (dscBlk d = false → dscBlk ta.d = false →
      (twOp t.word = 3 → ∃ x, (tileOut t td ta tb tc).rows = (tileView t, d, (List.range (dscRows d)).map (fun r => (r, ta.row r)), 0, []) :: x ∧
        ∀ e ∈ x, e.2.2.1 = [] ∧ e.2.2.2.2 = []) ∧
      (twOp t.word = 4 → (tileOut t td ta tb tc).rows = [(tileView t, d, (List.range (dscRows d)).map (fun r => (r, (List.range n).map (fun c =>
        let x := coords (dscDims d) (r * n + c)
        ta.codes.getD (linear (dscDims ta.d) [x.getD 1 0, x.getD 0 0, x.getD 2 0, x.getD 3 0]) 0))), 0, [])]))

/-! ## SVI -/

namespace Sys2Proof.Machine

/-- The pipeline operation of an SVI instruction; each Xagael instruction and `ecall` and `ebreak` is that of its native counterpart (R315 to R317). -/
def sviOp : Instr → Option SlotOp
  | .sviIntegerOp o => some (opSviInt o)
  | .sviTransfer o => some (opSviJump o)
  | .sviLoadStore o => some (opSviMem o)
  | .sviFence o => some (opSviFence o)
  | .sviMOp o => some (opSviMul o)
  | .sviCsrAccess o => some (opSviCsr o)
  | .sviVectorOp o => some (opSviVec o)
  | .ecall => some (opSysc 0x7FFF 0)
  | .ebreak => some (opBkpt 0 0)
  | .agTpost b a => some (opTpost (b.setWidth 6) (a.setWidth 6) 0)
  | .agTix a => some (opTix (a.setWidth 6) 0)
  | .agAmo h b a d => some (opAtomic true (agIn h b a d) (.land 16) 0)
  | .agAmoF h b a => some (opAtomic true (agIn h b a 0) .slot 0)
  | .agAmoN h b a => some (opAtomic true (agIn h b a 0) .posted 0)
  | .agDrainR => some (opDrainR 0)
  | .agDrainScope f => some (opFence (BitVec.ofNat 3 (f.toNat - 1)) 0)
  | .agSlk a => some (opSlkReg (a.setWidth 6) 0)
  | .agSlki i => some (opSlk i 0)
  | .agIcinv sc => some (opIcinv (sc.setWidth 3) 0)
  | .agCont i => some (opAgCont i)
  | .agExit => some (opExit 0)
  | _ => none

/-- RV64I on numbers: the result of a function on 64-bit operands. -/
def rv64 (f : SviAlu) (a b : Word) : Word :=
  match f with
  | .add => BitVec.ofInt 64 (a.toInt + b.toInt)
  | .sub => BitVec.ofInt 64 (a.toInt - b.toInt)
  | .sll => BitVec.ofNat 64 (a.toNat * 2 ^ (b.toNat % 64))
  | .slt => if a.toInt < b.toInt then 1 else 0
  | .sltu => if a.toNat < b.toNat then 1 else 0
  | .xor => BitVec.ofNat 64 (a.toNat ^^^ b.toNat)
  | .srl => BitVec.ofNat 64 (a.toNat / 2 ^ (b.toNat % 64))
  | .sra => BitVec.ofInt 64 (a.toInt / (2 : Int) ^ (b.toNat % 64))
  | .or => BitVec.ofNat 64 (a.toNat ||| b.toNat)
  | .and => BitVec.ofNat 64 (a.toNat &&& b.toNat)

/-- The W forms of RV64I: the low words, and the 32-bit result sign-extended. -/
def rv32 (f : SviAlu) (a b : Word) : Option Word :=
  let x := a.setWidth 32
  let out := fun (v : Int) => some (BitVec.ofInt 64 (BitVec.ofInt 32 v).toInt)
  match f with
  | .add => out (a.toInt + b.toInt)
  | .sub => out (a.toInt - b.toInt)
  | .sll => out (x.toNat * 2 ^ (b.toNat % 32))
  | .srl => out (x.toNat / 2 ^ (b.toNat % 32))
  | .sra => out (x.toInt / (2 : Int) ^ (b.toNat % 32))
  | _ => none

/-- The M extension on numbers (R170, R307): a division by zero gives all ones and the dividend, the quotient is cut towards zero. -/
def rvM (f : SviMulFn) (w : Bool) (a b : Word) : Option Word :=
  let x := a.setWidth 32
  let y := b.setWidth 32
  let out := fun (v : Int) => some (BitVec.ofInt 64 (BitVec.ofInt 32 v).toInt)
  match f, w with
  | .mul, false => some (BitVec.ofInt 64 (a.toInt * b.toInt))
  | .mulh, false => some (BitVec.ofInt 64 (a.toInt * b.toInt / (2 : Int) ^ 64))
  | .mulhsu, false => some (BitVec.ofInt 64 (a.toInt * b.toNat / (2 : Int) ^ 64))
  | .mulhu, false => some (BitVec.ofNat 64 (a.toNat * b.toNat / 2 ^ 64))
  | .div, false => some (BitVec.ofInt 64 (if b = 0 then -1 else a.toInt.tdiv b.toInt))
  | .divu, false => some (if b = 0 then BitVec.ofInt 64 (-1) else BitVec.ofNat 64 (a.toNat / b.toNat))
  | .rem, false => some (BitVec.ofInt 64 (if b = 0 then a.toInt else a.toInt.tmod b.toInt))
  | .remu, false => some (if b = 0 then a else BitVec.ofNat 64 (a.toNat % b.toNat))
  | .mul, true => out (a.toInt * b.toInt)
  | .div, true => out (if y = 0 then -1 else x.toInt.tdiv y.toInt)
  | .divu, true => out (if y = 0 then -1 else ((x.toNat / y.toNat : Nat) : Int))
  | .rem, true => out (if y = 0 then x.toInt else x.toInt.tmod y.toInt)
  | .remu, true => out (if y = 0 then x.toInt else ((x.toNat % y.toNat : Nat) : Int))
  | _, true => none

/-- Destination and result of an SVI instruction on integer registers, at SVI PC `pc` (R307, R309). -/
def sviRow (s : State) (pc : Nat) : Instr → Option (Nat × Word)
  | .sviIntegerOp (.lui rd imm) => some (rd.toNat, BitVec.ofInt 64 (4096 * imm.toInt))
  | .sviIntegerOp (.auipc rd imm) => some (rd.toNat, BitVec.ofInt 64 (pc + 4096 * imm.toInt))
  | .sviIntegerOp (.opImm f w rd a imm) => if f = .sub then none else
      (if w then rv32 f (rx s a.toNat) (BitVec.ofInt 64 imm.toInt) else some (rv64 f (rx s a.toNat) (BitVec.ofInt 64 imm.toInt))).map
        (fun v => (rd.toNat, v))
  | .sviIntegerOp (.opReg f w rd a b) => (if w then rv32 f (rx s a.toNat) (rx s b.toNat) else some (rv64 f (rx s a.toNat) (rx s b.toNat))).map (fun v => (rd.toNat, v))
  | .sviMOp m => (rvM m.f m.w (rx s m.rs1.toNat) (rx s m.rs2.toNat)).map (fun v => (m.rd.toNat, v))
  | _ => none

/-- Where a transfer of SVI goes and its link register; no target for a branch not taken (R309). -/
def sviTo (s : State) (pc : Nat) : SviJump → Option Word × Nat
  | .jal rd off => (some (BitVec.ofInt 64 (pc + 2 * off.toInt)), rd.toNat)
  | .jalr rd a imm => (some (BitVec.ofNat 64 ((rx s a.toNat + BitVec.ofInt 64 imm.toInt).toNat / 2 * 2)), rd.toNat)
  | .branch c a b off =>
    let x := rx s a.toNat
    let y := rx s b.toNat
    let taken := match c with
      | .eq => decide (x = y)
      | .ne => decide (x ≠ y)
      | .lt => decide (x.toInt < y.toInt)
      | .ge => decide (y.toInt ≤ x.toInt)
      | .ltu => decide (x.toNat < y.toNat)
      | .geu => decide (y.toNat ≤ x.toNat)
    (if taken then some (BitVec.ofInt 64 (pc + 2 * off.toInt)) else none, 0)

end Sys2Proof.Machine

/-- R170, R307, R309, R311, R314 to R317: an SVI instruction runs as its pipeline operation. With results or loads of the core under way it waits a ccy; else, when it passes
the steps of R130, it commits alone, as its native counterpart does where it has one; an excluded word stops the task with code SVIILL and the word, and a store to the
own scratchpad puts the low bytes of its register in place. What the integer instructions of SVI compute. The result of an RV64I or M instruction stands in rd, and a
transfer goes to its target in the image with the link in rd, at the arena offset that stands for it; nothing else of the machine changes. A target that is no instruction
of the image stops the task with code PCALIGN. -/
def Obligations.SviInstructions : Prop :=
  ((∀ (s : State) (i : Instr) (o : SlotOp), sviOp i = some o →
    ((cur s).land = [] → (cur s).pend = [] → Issues s { o with guard := 0 } → exec i s = .next (commit s [{ o with guard := 0 }])) ∧
    (¬ ((cur s).land = [] ∧ (cur s).pend = []) → exec i s = .next (setCur s (tick (cur s))))) ∧
  (∀ (s : State) (w : BitVec 32), Open s 0 0 → quiet (cur s) = true → exec (.sviill w) s = .next (bump (takeTrap (modCur s giveUp)
    s.cur { info := { code := .sviill, addr := w.setWidth 64 }, off := repOff s (cur s) } []))) ∧
  ∀ (s : State) (z : BitVec 2) (a b : BitVec 5) (imm : BitVec 12),
    let x := rx s a.toNat + BitVec.ofInt 64 imm.toInt
    let n := 2 ^ z.toNat
    let v := (rx s b.toNat).toNat % 2 ^ (8 * n)
    Open s 3 0 → RoomFor s 0 → (cur s).land = [] → (cur s).pend = [] → spc x = 1 → ownHeld s = false → chk s x n n true = .ok (.loc (locOf s x n true)) →
      let l := locOf s x n true
      exec (.sviLoadStore (.store z a b imm)) s = .next (retired1 (softDone (errClear (wr s l n v) l n) l n) 3 1 id)) ∧
  (∀ (s : State), (cur s).land = [] → (cur s).pend = [] →
    (∀ i d v, sviRow s (sviAt s) i = some (d, v) → Open s 1 0 → exec i s = .next (retired1 s 1 1 (scalarPut 1 d v))) ∧
    ∀ j, Open s 0 0 →
      let go := sviTo s (sviAt s) j
      let link := scalarPut 1 go.2 (BitVec.ofNat 64 (sviAt s + 4))
      (go.1 = none → exec (.sviTransfer j) s = .next (retired1 s 0 1 id)) ∧
      ∀ t, go.1 = some t →
        (t.toNat % 4 = 0 → t.toNat < (sviImg s).size → exec (.sviTransfer j) s = .next (gone s link (BitVec.ofNat 64 ((sviImg s).off + 8 * t.toNat)))) ∧
        (¬ (t.toNat % 4 = 0 ∧ t.toNat < (sviImg s).size) → quiet (cur s) = true → exec (.sviTransfer j) s = .next (bump (takeTrap (modCur s giveUp)
          s.cur { info := { code := .pcalign, addr := t, acc := 2 }, off := repOff s (cur s) } []))))

/-! ## Fabric, translation, boot and the host -/

namespace Sys2Proof.Machine

/-- The order of R117 among what waits at an arbiter, older ones first among equals: exhausted, then least slack, then greatest priority. -/
def before (a b : Urg) : Prop :=
  (a.exh = true ∧ b.exh = false) ∨
  (a.exh = false ∧ b.exh = false ∧ (a.slack < b.slack ∨ (a.slack = b.slack ∧ b.prio < a.prio)))

/-- R117: among `o :: rest`, which wait with the oldest first, `g` goes: the oldest once 15 grants have passed it, else the oldest of those that no other
is before. -/
def Chosen {α : Type} (u : α → Urg) (o : α) (rest : List α) (g : α) : Prop :=
  ∃ older younger, o :: rest = older ++ g :: younger ∧ (15 ≤ (u o).seen → older = []) ∧
    ((u o).seen < 15 → (∀ p ∈ older, before (u g) (u p)) ∧ ∀ p ∈ younger, ¬ before (u p) (u g))

end Sys2Proof.Machine

/-- R114, R117, R396, R399, R401 to R403: packets. A tick lowers the slack of every request and packet that waits in a queue by one and marks those at zero exhausted, and neighbours free flits; what is under way inside the package loses a tick or does not, as the model's free value says (log entry 84).
A packet that comes over a trained port on its lane, with room at its input, begins to wait there; a request that may go to its home begins to wait among at most 64. An arbiter grants what R117 puts first, the oldest among equals, or the oldest once 15 grants have passed it: at a home a request's service
begins, at a die a packet enters the package, at a port it leaves with the flits of credit that it takes. The slots of a port run in the pod's count of flit times; the next one carries the circuit flit that its entry names, and a flit that no entry of its port names goes on as an exhausted packet, once there is
room, and is counted. (How packets come to wait here, log entry 40, is the model's.) -/
def Obligations.FabricPackets : Prop :=
  (∀ s : State, ∃ u, exec .slackTick s = .next (overdue u) ∧ u.mem = s.mem ∧ u.cores = s.cores ∧ u.clus = s.clus ∧
    u.hub = { s.hub with ticks := s.hub.ticks + 1, used := u.hub.used } ∧
    (tsorted s.hub.used = true → ∀ k, tget 0 u.hub.used k ≤ tget 0 s.hub.used k) ∧
    u.reqs.length = s.reqs.length ∧ (∀ (n : Nat) (r : Req), s.reqs[n]? = some r →
      let down : Req := { r with slack := r.slack - 1, exh := r.exh || decide (r.slack = 0) }
      ∃ q : Req, u.reqs[n]? = some q ∧ (waitsQ s r = true → q = down) ∧ (underWay s r = true → q = down ∨ q = r) ∧
        (waitsQ s r = false → underWay s r = false → q = r)) ∧
    u.comps.length = s.comps.length ∧ (∀ (n : Nat) (c : Comp), s.comps[n]? = some c → ∃ d : Comp, u.comps[n]? = some d ∧
      (d = c ∨ d = { c with slack := c.slack - 1, exh := c.exh || decide (c.slack = 0) })) ∧
    u.pkts.length = s.pkts.length ∧ ∀ (n : Nat) (p : Pkt), s.pkts[n]? = some p → ∃ q : Pkt, u.pkts[n]? = some q ∧
      (fld p.hdr 0 2 = 2 → q = p) ∧ (fld p.hdr 0 2 ≠ 2 → fld q.hdr 4 12 = fld p.hdr 4 12 - 1 ∧ (bit q.hdr 3 = true ↔ bit p.hdr 3 = true ∨ fld p.hdr 4 12 = 0) ∧
        fld q.hdr 0 3 = fld p.hdr 0 3 ∧ fld q.hdr 16 112 = fld p.hdr 16 112 ∧
        q = { p with hdr := q.hdr, ticks := if lacksCredit s p then p.ticks + 1 else p.ticks })) ∧
  (∀ (s : State) (h : BitVec 128) (a : Word) (v : Line),
    (∀ (x n : Nat) (post ord : Bool), x < 28 → 0 < n → n ≤ 128 →
      let go := fun (t : State) => exec (.packetArrival (x + 32 * n + 2 ^ 13 * b2n post + 2 ^ 14 * b2n ord) h a v) s = .next t
      let p : Pkt := { id := s.nextId, die := x / 6, inp := x % 6, n := n, post := post, ord := ord, hdr := h, addr := a, data := v }
      let comes := x < 24 ∧ bit (fport s x) 0 = true ∧ fld h 18 2 = x / 6 ∧ fld h 0 2 ≠ 3 ∧ 1 < (anyPlan s).size (x % 6 / 2) ∧ hasRoom s p = true
      (¬ comes → go s) ∧
      (comes → ∃ t, go t ∧ t = { s with nextId := s.nextId + 1, pkts := t.pkts } ∧
        ∀ q, q ∈ t.pkts ↔ q ∈ s.pkts ∨ q = Pkt.fit { p with at_ := s.hub.flit })) ∧
    ∀ r : Req, findReq s r.id = some r → fld h 96 32 = r.id → canGo s r = true → r.arr = none →
      let go := fun (t : State) => exec (.packetArrival 28 h a v) s = .next t
      (∀ d, r.home s = some d → (64 ≤ (homeQueue s d).length → go s) ∧
        ((homeQueue s d).length < 64 → go (setReq { s with nextId := s.nextId + 1 } r.id (fun r => { r with arr := some s.nextId })))) ∧
      (r.home s = none → go (setReq s r.id (fun r => { r with arr := some s.nextId, go := true })))) ∧
  (∀ (s : State) (port : Nat), port < 24 →
    (∃ t, exec (.arbiterGrant port) s = .next t ∧ t.mem = s.mem ∧ t.cores = s.cores ∧ t.clus = s.clus ∧ (bit (fport s port) 0 = false → t = s)) ∧
    ∀ (o : Pkt) (rest : List Pkt), bit (fport s port) 0 = true → (∀ r ∈ s.reqs, ownPkt s (port / 6) r = none) →
      (∀ p ∈ s.pkts, bit p.hdr 44 = false ∧ fld p.hdr 0 2 ≠ 2) → contendersAt s port = o :: rest →
      ∃ t g, exec (.arbiterGrant port) s = .next t ∧ Chosen Pkt.urg o rest g ∧ (roomTo s g (port % 6) < g.flits → t = s) ∧
        (g.flits ≤ roomTo s g (port % 6) → t.reqs = s.reqs ∧ t.hub.flit = portTime s port ∧ tget 0 t.hub.slotAt port = portTime s port + g.flits ∧
          (port, { g with hdr := setFld g.hdr 2 1 (nextVc (anyPlan s) g (port % 6)) }) ∈ t.wire ∧
          t.pkts = (s.pkts.filter (fun p => decide (p.id ≠ g.id))).map (fun p => if routeOf s p = some port then { p with seen := p.seen + 1 } else p))) ∧
  (∀ (s : State) (h : Nat),
    (homeQueue s h = [] → exec (.arbiterGrant (28 + h)) s = .next s) ∧
    ∀ (o : Req) (rest : List Req), homeQueue s h = o :: rest → ∃ g, Chosen Req.urg o rest g ∧
      exec (.arbiterGrant (28 + h)) s = .next { s with reqs := s.reqs.map (fun r =>
        if r.id = g.id then { r with go := true } else if r.id ∈ (o :: rest).map (·.id) then { r with seen := r.seen + 1 } else r) }) ∧
  (∀ (s : State) (d : Nat) (o : Pkt) (rest : List Pkt), d < 4 → (∀ p ∈ s.pkts, fld p.hdr 0 2 ≠ 2) → contendersAt s (24 + d) = o :: rest →
    ∃ t g, exec (.arbiterGrant (24 + d)) s = .next t ∧ Chosen Pkt.urg o rest g ∧
      (fld g.hdr 0 2 = 0 → ∀ k, (fld g.hdr 64 8 = 32 ∧ k = ReqKind.load) ∨ (fld g.hdr 64 8 = 33 ∧ k = ReqKind.store) →
        ∃ r : Req, t.reqs = s.reqs ++ [r] ∧ r.id = s.nextId ∧ r.kind = k ∧ r.slack = fld g.hdr 4 12 ∧ r.exh = bit g.hdr 3 ∧ r.prio = fld g.hdr 16 2 ∧
          r.n = Nat.max 1 (Nat.min g.n (128 - g.addr.toNat % 128)) ∧ (k = .store → r.wr = bytesOf 0 r.n g.data.toNat) ∧ r.dst = .remote g.hdr ∧
          r.stage = .out ∧ (∀ p ∈ t.pkts, p.id ≠ g.id) ∧ t.mem = s.mem ∧ t.cores = s.cores) ∧
      (fld g.hdr 0 2 = 1 → s.merges = [] → ∀ q : Req, s.reqs.find? (fun r => r.sent && decide (r.stage = .out) && decide (r.id % 2 ^ 32 = fld g.hdr 96 32)) = some q →
        findReq s q.id = some q → (∃ e i, q.dst = .land e i) → g.addr = 0 →
        t.mem = s.mem ∧ t.cores = s.cores ∧ ∃ u, findReq t q.id = some u ∧ u.stage = .done ∧ u.res = g.data ∧ u.exh = bit g.hdr 3 ∧ u.slack = fld g.hdr 4 12)) ∧
  ∀ (s : State) (port : Nat), port < 24 → bit (fport s port) 0 = true → (∀ r ∈ s.reqs, ownPkt s (port / 6) r = none) →
    let time := Nat.max (tget 0 s.hub.slotAt port) s.hub.flit
    let go := fun (t : State) => exec (.circuitSlot port (time % 256)) s = .next t ∧ t.hub.flit = time ∧ tget 0 t.hub.slotAt port = time + 1
    let only := fun (t : State) => { t with pkts := s.pkts, wire := s.wire, hub := { t.hub with
      flit := s.hub.flit, slotAt := s.hub.slotAt, fport := s.hub.fport } } = s
    let here := s.pkts.filter (fun p => decide (fld p.hdr 0 2 = 2) && decide (routeOf s p = some port))
    let names := fun (j : Nat) (p : Pkt) =>
      let e := tget 0 s.hub.slots (256 * port + j)
      bit e 0 = true ∧ fld e 1 3 = p.inp ∧ fld e 4 8 = fld p.hdr 72 8
    (here = [] → ∃ t, go t ∧ only t ∧ t.pkts = s.pkts ∧ t.wire = s.wire ∧ t.hub.fport = s.hub.fport) ∧
    ∀ p, here = [p] → p.at_ ≤ tget 0 s.hub.slotAt port → s.hub.flit ≤ tget 0 s.hub.slotAt port →
      (names (time % 256) p → ∃ t, go t ∧ only t ∧ t.pkts = s.pkts.filter (fun q => decide (q.id ≠ p.id)) ∧ (port, p) ∈ t.wire ∧ t.hub.fport = s.hub.fport) ∧
      (¬ names (time % 256) p → (∃ j, j < 256 ∧ names j p) → ∃ t, go t ∧ only t ∧ t.pkts = s.pkts ∧ t.wire = s.wire ∧ t.hub.fport = s.hub.fport) ∧
      ((∀ j, j < 256 → ¬ names j p) → hasRoom s p.exhausted = true →
        ∃ (t : State) (u : Pkt → BitVec 128), go t ∧ only t ∧ t.wire = s.wire ∧ t.pkts = s.pkts.map (fun q => if q.id = p.id then { q with hdr := u q } else q) ∧
          fld (u p) 0 3 = 0 ∧ fld (u p) 4 12 = 0 ∧ bit (u p) 3 = true ∧ fld (u p) 16 56 = fld p.hdr 16 56 ∧ fld (u p) 72 8 = 0 ∧
          fld (u p) 80 48 = fld p.hdr 80 48 ∧ fport t port = satAdd (fport s port) 24 16)

/-- R379, R382, R383, R397, R399, R402, R408, R411: what TLBs keep and what links report. A page walk for a cluster's TLB that succeeds fills an entry with the walk's answer, under the context's ASID and generation, and one that fails is not kept; a walk for a core fills its own TLB and its cluster's; that a full TLB drops its oldest entry is the model's choice (log entry 6), not the spec's; a TLB may drop entries, and only those of the page. A retry counts at its port or at the host link; a link or port
that changes state shows it in its register and journals it. -/
def Obligations.TranslationAndLinks : Prop :=
  (∀ (s : State) (cx page : Nat),
    let va := page % 2 ^ 32 * 65536
    let place := page / 2 ^ 32
    let root := ctxD s cx 5
    let go := fun (t : State) => exec (.pageWalkComplete cx page) s = .next t
    (ctxValid s cx = false → go s) ∧
    (1024 ≤ place → place < 1088 → tlbIn s place cx va = none →
      (∀ e, walk s root va = .error e → go s) ∧
      ∀ x, ctxValid s cx = true → walk s root va = .ok x → ∃ t y, go t ∧ t = { s with tlb := t.tlb, free := t.free } ∧
        t.tlb = (if 4096 ≤ s.tlb.countP (fun e => decide (e.place = place)) then s.tlb.eraseP (fun e => decide (e.place = place)) else s.tlb) ++ [y] ∧
        (x.size ≠ 65536 ∨ bit (l1Entry s root va) 5 = false → y =
          { place := place, ctx := cx, gen := (ctx s cx).gen, asid := BitVec.ofNat 16 (fld (ctxD s cx 0) 0 16), va := va / x.size * x.size
            size := x.size, pa := x.pa, r := x.r, w := x.w, cow := x.cow })) ∧
    (place < 512 →
      (∀ e, tlbFind s place cx va = none → walk s root va = .error e → go s) ∧
      ∀ x, ctxValid s cx = true → walk s root va = .ok x → ∃ t, go t ∧ t = { s with tlb := t.tlb, free := t.free } ∧
        (tlbIn t place cx va).isSome = true ∧ (tlbIn t (cluTlb (cluOf place)) cx va).isSome = true) ∧
    ∃ t, exec (.tlbDrop cx page) s = .next t ∧ t = { s with tlb := t.tlb } ∧
      ∀ e, e ∈ t.tlb ↔ e ∈ s.tlb ∧ ¬ (e.place = place ∧ e.ctx = cx ∧ e.va ≤ va ∧ va < e.va + e.size)) ∧
  ∀ s : State,
    (∀ p, p < 24 → exec (.flitRetry p) s = .next (setFport s p (satAdd (fport s p) 8 16))) ∧
    exec (.flitRetry 31) s = .next { s with hub := { s.hub with linkstat := satAdd s.hub.linkstat 8 24 } } ∧
    (∀ (up : Bool) (w r : BitVec 2), ∃ t, exec (.linkStateChange up w r) s = .next t ∧ fld t.hub.linkstat 0 1 = b2n up ∧ fld t.hub.linkstat 1 2 = w.toNat ∧
      fld t.hub.linkstat 3 2 = r.toNat ∧ t.hub.jseq = s.hub.jseq + 1 ∧ t.mem = s.mem ∧ t.cores = s.cores ∧
      ∃ e : JEnt, t.hub.journal.head? = some e ∧ fld e.j1 0 8 = 7 ∧ e.arg = BitVec.ofNat 64 (31 + 32 * b2n up)) ∧
    ∀ (p : Nat) (up : Bool) (d : BitVec 8), p < 24 → ∃ t, exec (.portStateChange p up d) s = .next t ∧ bit (fport t p) 0 = up ∧ fld (fport t p) 56 8 = d.toNat ∧
      fld (fport t p) 8 48 = fld (fport s p) 8 48 ∧ t.hub.jseq = s.hub.jseq + 1 ∧ t.mem = s.mem ∧ t.cores = s.cores ∧
      (up = true → tget 0 t.hub.slotAt p = t.hub.flit ∧ ((∃ o, o < 24 ∧ o ≠ p ∧ bit (fport s o) 0 = true) → t.hub.flit = s.hub.flit)) ∧
      ∃ e : JEnt, t.hub.journal.head? = some e ∧ fld e.j1 0 8 = 7 ∧ e.arg = BitVec.ofNat 64 (p + 32 * b2n up)

/-- R9, R408 to R412, R417 to R419, R429: boot and the host. A package reset leaves every core and register as after reset with the fuses; TRAIN ends with the link, WAIT with BOOTCTL.GO; an image comes into the hub or boot fails with error 6; a good image enters RUN with system queue 0, and a bad
one FAIL with its error; a host store puts its bytes in place, and a load brings those of memory or of the register aperture to the host; the boot registers take writes up to WAIT, ERRSTAT is cleared by ones; the mirror writes the next journal entry; a corrected error counts, and an uncorrectable one counts apart and leaves its word open. -/
def Obligations.BootAndHost : Prop :=
  ∀ (s : State),
    let h := s.hub
    (∃ t, exec .packageReset s = .next t ∧ t.cores = [] ∧ t.clus = [] ∧ t.ctxs = [] ∧ t.reqs = [] ∧ t.comps = [] ∧ t.tiles = [] ∧ t.tlb = [] ∧ t.pkts = [] ∧
      t.hub = { State.reset.hub with minSvn := h.minSvn, hostData := h.hostData } ∧ t.uecc = s.uecc.filter (fun w => decide (w < 2 ^ 52)) ∧ ∀ a, rdB t a = if a < 2 ^ 52 then rdB s a else 0) ∧
    (h.bootState = 0 → ∃ t, exec .linkTrained s = .next t ∧ t.hub.bootState = 1 ∧ bit t.hub.linkstat 0 = true ∧ (∀ a, rdB t a = if a < 2 ^ 52 then rdB s a else 0) ∧
      t.cores = s.cores ∧ t.hub.jseq = h.jseq + 1) ∧
    (h.bootState = 1 → exec .bootctlGo s = .next { s with hub := { h with bootState := 2 } }) ∧
    (h.bootState = 2 → exec (.imageLoaded false) s = .next { s with hub := { h with bootState := 7, bootErr := 6 } } ∧
      ∃ t, exec (.imageLoaded true) s = .next t ∧ t = { s with hub := { h with bootState := 3, image := t.hub.image } } ∧
        t.hub.image.length = 1152 + Nat.min (rd s (2 ^ 51 + fld h.bootaddr 0 50 + 8) 4) (2 ^ 23) ∧
        ∀ n, n < t.hub.image.length → t.hub.image[n]? = some (rdB s (2 ^ 51 + fld h.bootaddr 0 50 + n))) ∧
    (h.bootState = 3 → (∀ e, imageErr s = some e → exec .imageVerified s = .next { s with hub := { h with bootState := 7, bootErr := e } }) ∧
      (imageErr s = none → ∃ t, exec .imageVerified s = .next t ∧ t.hub.bootState = 4 ∧ t.hub.bootErr = h.bootErr ∧ t.mem = s.mem ∧ t.cores = s.cores ∧
        h.minSvn.toNat ≤ t.hub.minSvn.toNat ∧ t.hub.fwEntry = some (imgNum h.image 12 4) ∧ t.hub.svn = BitVec.ofNat 16 (imgNum h.image 6 2) ∧
        (tget {} t.hub.lq 0).base = h.sq0base ∧ (tget {} t.hub.lq 0).ctl = h.sq0ctl ∧ fld (tget {} t.hub.lq 0).cfg 0 5 = h.sq0log.toNat)) ∧
    (∀ pa n : Nat, 0 < n → n ≤ 128 → paOk pa = true → paOk (pa + n - 1) = true → pa + n ≤ 2 ^ 52 →
      (∀ v : Line, ∃ t, exec (.hostMemoryWrite pa n v) s = .next t ∧ t.cores = s.cores ∧
        rd t pa n = v.toNat % 2 ^ (8 * n) ∧ ∀ b, b < pa ∨ pa + n ≤ b → rdB t b = rdB s b) ∧
      (errIn s pa n = none → exec (.hostMemoryRead pa n) s = .next { s with hub := { h with hostData := BitVec.ofNat 1024 (rd s pa n) } }) ∧
      (errIn s pa n ≠ none → ∃ t, exec (.hostMemoryRead pa n) s = .next t ∧ t.mem = s.mem ∧ t.cores = s.cores ∧
        t.hub = { h with hostData := t.hub.hostData, errstat := setFld h.errstat 32 16 (Nat.min (fld h.errstat 32 16 + 1) 65535) })) ∧
    (∀ e ∈ [(0x00, BitVec.ofNat 64 h.jseq), (0x08, h.jmbase), (0x10, h.linkstat), (0x18, h.revid), (0x28, h.bootaddr), (0x30, h.sq0base), (0x38, h.sq0ctl),
        (0x40, devId.extractLsb' 0 64), (0x48, devId.extractLsb' 64 64), (0x50, h.errstat)] ++ (List.range 24).map (fun p => (0x100 + 8 * p, fport s p)),
      ∃ t, exec (.hostMemoryRead (2 ^ 52 + e.1) 8) s = .next t ∧ t = { s with hub := { h with hostData := t.hub.hostData }, free := t.free } ∧
        t.hub.hostData.toNat = e.2.toNat) ∧
    (∃ t, exec (.hostMemoryRead (2 ^ 52 + 0x20) 8) s = .next t ∧ t = { s with hub := { h with hostData := t.hub.hostData }, free := t.free } ∧
      bit t.hub.hostData 0 = false ∧ (h.bootState < 8 → fld t.hub.hostData 1 3 = h.bootState)) ∧
    (∀ v : Word, (h.bootState ≤ 1 → exec (.registerWrite 0x08 v) s = .next { s with hub := { h with jmbase := v } } ∧
        exec (.registerWrite 0x28 v) s = .next { s with hub := { h with bootaddr := v &&& 0xFFFFFFFFFFFFF } }) ∧
      (2 ≤ h.bootState → exec (.registerWrite 0x08 v) s = .next s ∧ exec (.registerWrite 0x28 v) s = .next s ∧ exec (.registerWrite 0x20 v) s = .next s) ∧
      exec (.registerWrite 0x50 v) s = .next { s with hub := { h with errstat := h.errstat &&& ~~~v } }) ∧
    (∀ e : JEnt, h.bootState = 4 → h.jseq ≤ h.mirrored + 4096 → h.journal.find? (fun x => decide (x.seq.toNat = h.mirrored + 1)) = some e →
      let a := 2 ^ 51 + (fld h.jmbase 0 50 + 32 * ((h.mirrored + 1) % 4096)) % 2 ^ 50
      ∃ t, exec .journalMirrorWrite s = .next t ∧ t.hub = { h with mirrored := h.mirrored + 1 } ∧ rd t a 8 = e.seq.toNat ∧ rd t (a + 8) 8 = e.j1.toNat ∧
        rd t (a + 16) 8 = e.time.toNat ∧ rd t (a + 24) 8 = e.arg.toNat ∧ ∀ b, b < a ∨ a + 32 ≤ b → rdB t b = rdB s b) ∧
    ∀ loc : Nat, exec (.scrub loc false) s = .next { s with hub := { h with errstat := satAdd h.errstat 0 32 } } ∧
      (loc < 2 ^ 57 → (∀ n, n < 64 → ctxValid s n = false) → ∃ t, exec (.scrub loc true) s = .next t ∧ t.hub = { h with errstat := satAdd h.errstat 32 16 } ∧
        loc / 8 * 8 ∈ t.uecc ∧ ∀ b, b < loc / 8 * 8 ∨ loc / 8 * 8 + 8 ≤ b → rdB t b = rdB s b) ∧
      (∀ k i, k < 512 → i < 16 → ∃ t, exec (.scrub (2 ^ 57 + k + 8192 * i) true) s = .next t ∧ (∀ j, j ≠ k → core t j = core s j) ∧
        t.hub.errstat = satAdd h.errstat 32 16 ∧ (∀ j, j ≠ i → tget 0 (core t k).t j = tget 0 (core s k).t j) ∧ (core t k).x = (core s k).x ∧
        ((core s k).run = .idle → t.mem = s.mem ∧ (core t k).trap = (core s k).trap) ∧
        ((core s k).run = .running → (core s k).trap = none → (core t k).trap =
          some { info := { code := .uecc, prec := 1, engine := 4 }, off := repOff s (core s k), told := true })) ∧
      ∃ t, exec (.scrub (2 ^ 60 + loc) true) s = .next t ∧ t.hub = h ∧ t.cores = s.cores ∧ loc / 8 * 8 ∈ t.uecc ∧
        ∀ b, b < loc / 8 * 8 ∨ loc / 8 * 8 + 8 ≤ b → rdB t b = rdB s b

/-! ## Launches and commands -/

namespace Sys2Proof.Machine

/-- The commands that finish at once: queue, CMD, variant and effect (R364, Table 4 of chapter 16). -/
def cmdRow : Instr → Option (Nat × Nat × (Line → Bool) × (State → Word → Word → Word → Except Code State))
  | .ctxset q => some (q, 1, anyRec, Sys2Proof.Machine.ctxset)
  | .classign q => some (q, 2, anyRec, Sys2Proof.Machine.classign)
  | .clrelease q => some (q, 3, anyRec, Sys2Proof.Machine.clrelease)
  | .place q => some (q, 4, anyRec, Sys2Proof.Machine.place)
  | .qconf q => some (q, 5, anyRec, Sys2Proof.Machine.qconf)
  | .savecfg q => some (q, 6, anyRec, Sys2Proof.Machine.savecfg)
  | .swin q => some (q, 9, anyRec, Sys2Proof.Machine.swin)
  | .resume q => some (q, 11, fun r => !bit (lw r 10) 0, Sys2Proof.Machine.resume)
  | .resumeAbort q => some (q, 11, fun r => bit (lw r 10) 0, Sys2Proof.Machine.resumeAbort)
  | .partset q => some (q, 12, anyRec, Sys2Proof.Machine.partset)
  | .faultRingConfig q => some (q, 14, fun r => decide (fld (lw r 9) 8 2 = 0), ringConfig)
  | .faultResume q => some (q, 14, fun r => decide (fld (lw r 9) 8 2 = 1), Sys2Proof.Machine.faultResume)
  | .faultDiscard q => some (q, 14, fun r => decide (fld (lw r 9) 8 2 = 3), Sys2Proof.Machine.faultDiscard)
  | .fplan q => some (q, 15, fun r => !bit (lw r 11) 0, Sys2Proof.Machine.fplan)
  | .fplanDegronly q => some (q, 15, fun r => bit (lw r 11) 0, fplanDegr)
  | .anset q => some (q, 17, anyRec, Sys2Proof.Machine.anset)
  | .tripset q => some (q, 18, anyRec, Sys2Proof.Machine.tripset)
  | .attest q => some (q, 19, anyRec, Sys2Proof.Machine.attest)
  | _ => none

/-- The commands that go on after they have begun: queue, CMD, variant and beginning. -/
def cmdBegin : Instr → Option (Nat × Nat × (Line → Bool) × (State → Word → Word → Word → Except Code (State × List Nat)))
  | .preempt q => some (q, 7, anyRec, preemptBegin)
  | .swout q => some (q, 8, anyRec, swoutBegin)
  | .stop q => some (q, 10, anyRec, stopBegin)
  | .tlbinv q => some (q, 13, fun r => !bit (lw r 9) 8, tlbinvRange)
  | .tlbinvAll q => some (q, 13, fun r => bit (lw r 9) 8, Sys2Proof.Machine.tlbinvAll)
  | .opset q => some (q, 16, anyRec, Sys2Proof.Machine.opset)
  | _ => none

end Sys2Proof.Machine

/-- R37, R49 to R51, R359 to R363: launches. A tail write makes the hub reread TAIL, and a distance above the ring's size turns the queue off. The record that the sequencer takes raises HEAD by one; with good checks a task list is in flight with its records in their frame slots (here one that
waits for JOIN), and a tile word with its word accepted; a breach ends it with RESULT 2; a launch without records, words and requests retires with its status at CMPADDR. -/
def Obligations.Launches : Prop :=
  (∀ (s : State) (q l : Nat), (lqOf s q).en = true → hubLoc s (lqOf s q).sysq (lqOf s q).ctx (lqOf s q).ctl false = .ok l →
    let x := { lqOf s q with tail := BitVec.ofNat 32 (rd s l 4) }
    ((x.tail - x.head).toNat ≤ 2 ^ fld x.cfg 0 5 → exec (.launchQueueTailWrite q) s = .next (setLq (cleanLine s q) q x)) ∧
    (2 ^ fld x.cfg 0 5 < (x.tail - x.head).toNat → ∃ t, exec (.launchQueueTailWrite q) s = .next t ∧ (lqOf t q).en = false ∧ (lqOf t q).tail = x.tail ∧
      t.mem = s.mem ∧ t.cores = s.cores ∧ t.hub.jseq = s.hub.jseq + 1)) ∧
  (∀ (s t : State) (q : Nat) (r : Line) (test : Line → Bool), served? s q test = some (r, t) →
    (lqOf t q).head = (lqOf s q).head + 1 ∧ test r = true ∧ t.hub.jseq = s.hub.jseq + 1 ∧ t.cores = s.cores ∧ t.clus = s.clus ∧ t.ctxs = s.ctxs) ∧
  (∀ (s t : State) (q : Nat) (r : Line) (gs : List (Nat × Bank)) (e : Rec), served? s q (fun r => decide (lKind r = 1) || decide (3 ≤ lKind r) || (decide (lKind r = 2) && !cmdListed (lCmd r))) = some (r, t) →
    lrecFail s q r = none → lKind r = 1 → launchChecks s (lqOf s q).ctx r = .ok gs → listRecs s (lqOf s q).ctx (lDie r) (!(lqOf s q).sysq) (lw r 8) (lCount r) = .ok [e] →
    e.join ≠ 0 → (∀ x ∈ s.hub.launches, x.tag ≠ newTag s) → ((lqOf s q).ctx, 16 * lDie r + frClu e.w1, e.w1) ∉ liveAll s →
      let a := frameHome s (lqOf s q).ctx (lDie r) e.w1
      ∃ u l, exec (.taskListLaunch q) s = .next u ∧ u.hub.launches = s.hub.launches ++ [l] ∧ l.tag = newTag s ∧ l.q = q ∧ l.ctx = (lqOf s q).ctx ∧ l.kind = 1 ∧
        l.recs = [(16 * lDie r + frClu e.w1, e.w1)] ∧ l.cmpaddr = lw r 2 ∧ l.cmpval = lw r 3 ∧ l.failed = none ∧ l.word = none ∧
        (ctx u (lqOf s q).ctx).gptr = lw r 1 ∧ rdRec u a = e ∧ u.cores = s.cores ∧ u.clus = s.clus ∧ ∀ b, b < a ∨ a + 67 ≤ b → rdB u b = rdB t b) ∧
  (∀ (s t : State) (q : Nat) (r : Line), served? s q (fun r => decide (lKind r = 0)) = some (r, t) →
    (∀ c, lrecFail s q r = some c → exec (.tileWordLaunch q) s = .next (bump (refuse t q r c))) ∧
    (lrecFail s q r = none → (∀ c, launchChecks s (lqOf s q).ctx r = .error c → exec (.tileWordLaunch q) s = .next (bump (refuse t q r c))) ∧
      ∀ gs, launchChecks s (lqOf s q).ctx r = .ok gs →
        let l := { launchFrom s q r with word := some t.nextId }
        let w := launchWord t q r l.tag
        (∀ i, tileDecode (launchIn t l gs) w = .error i → twLevel w.word ≠ 4 → exec (.tileWordLaunch q) s = .next (bump (refuse t q r i.code))) ∧
        ∀ w', tileDecode (launchIn t l gs) w = .ok w' → ∃ u, exec (.tileWordLaunch q) s = .next u ∧ u.hub.launches = s.hub.launches ++ [l] ∧ u.mem = t.mem ∧ u.cores = s.cores ∧
          ∃ old, u.tiles = old ++ [{ w' with stage := .accepted, deps := tileDeps (launchIn t l gs) w }] ∧ old.length = s.tiles.length ∧
          ∀ (n : Nat) (x : TileW), s.tiles[n]? = some x → old[n]? = some x ∨ old[n]? = some { x with spoilt := true })) ∧
  (∀ (s t : State) (q : Nat) (r : Line) (c : Code), served? s q (fun r => decide (lKind r = 1) || decide (3 ≤ lKind r) || (decide (lKind r = 2) && !cmdListed (lCmd r))) = some (r, t) →
    lrecFail s q r = some c ∨ (lrecFail s q r = none ∧ lKind r = 1 ∧ launchChecks s (lqOf s q).ctx r = .error c) → exec (.taskListLaunch q) s = .next (bump (refuse t q r c))) ∧
  ∀ (s : State) (l : Launch), s.hub.launches.find? (fun k => decide (k.tag = l.tag)) = some l → retired s l = true → l.cmpaddr ≠ 0 → fld l.cmpaddr 0 4 = 0 →
    ∀ p, hubLoc s l.sysq l.ctx l.cmpaddr true = .ok p →
      let result := if l.stopped then 3 else if l.failed.isSome then 1 else 0
      ∃ t, exec (.launchRetire l.tag.toNat) s = .next t ∧ t.hub.launches = s.hub.launches.filter (fun k => decide (k.tag ≠ l.tag)) ∧ rd t p 8 = l.cmpval.toNat ∧
        (l.failed = none → rd t (p + 8) 8 = result + b2n l.degr * 2 ^ 24 + l.tag.toNat * 2 ^ 32) ∧ t.hub.jseq = s.hub.jseq + 1 ∧ t.cores = s.cores ∧ t.clus = s.clus ∧
        ∀ b, b < p ∨ p + 16 ≤ b → rdB t b = rdB s b

/-- R364, R365, R370, R374, R375, R384, R391, R392: a state command runs when the sequencer takes it. One that is good takes its effect and ends at once with RESULT 0, or goes on among the commands in progress; one whose operands break its rules ends with RESULT 2 and its code, and nothing else of it happens;
one in progress ends when what it waits for has come, or at its limit. -/
def Obligations.CommandForms : Prop :=
  (∀ (i : Instr) (s t : State) (q c : Nat) (sub : Line → Bool) (act : State → Word → Word → Word → Except Code State) (r : Line), cmdRow i = some (q, c, sub, act) →
    cmdHead s q c sub = some (r, t) → lrecFail s q r = none →
    (∀ u, act t (lw r 9) (lw r 10) (lw r 11) = .ok u → exec i s = .next (bump (endCmd u q r 0 none))) ∧
    ∀ e, act t (lw r 9) (lw r 10) (lw r 11) = .error e → exec i s = .next (bump (endCmd t q r 2 (some e)))) ∧
  (∀ (i : Instr) (s t : State) (q c : Nat) (sub : Line → Bool) (act : State → Word → Word → Word → Except Code (State × List Nat)) (r : Line), cmdBegin i = some (q, c, sub, act) →
    cmdRun s q c = none → cmdHead s q c sub = some (r, t) → lrecFail s q r = none →
    (∀ u, act t (lw r 9) (lw r 10) (lw r 11) = .ok u → ∃ v m, exec i s = .next v ∧ v.hub.cmds = u.1.hub.cmds ++ [m] ∧ m.q = q ∧ m.cmd = lCmd r ∧
      m.op0 = lw r 9 ∧ m.op1 = lw r 10 ∧ m.op2 = lw r 11 ∧ m.cmpaddr = lw r 2 ∧ m.cmpval = lw r 3 ∧ m.ids = u.2 ∧ (m.cmd = 13 → m.phase = (ctx v (fld m.op0 0 6)).gen.toNat) ∧
      v = bump { u.1 with hub := { u.1.hub with cmds := v.hub.cmds } }) ∧
    ∀ e, act t (lw r 9) (lw r 10) (lw r 11) = .error e → exec i s = .next (bump (endCmd t q r 2 (some e)))) ∧
  (∀ (s : State) (q : Nat) (m : Cmd), m.q = q →
    (s.hub.cmds = [m] →
      (m.cmd = 7 → m.phase ≠ phaseFull → (∀ k ∈ coresOf (preemptClus m), isHeld (core s k) = true) → exec (.preempt q) s = .next (endRun s m 0 none)) ∧
      (m.cmd = 7 ∨ m.cmd = 8 → exec (.commandLimitExpiry q) s = .next (endRun s m 1 (some .timeout))) ∧
      (m.cmd = 10 → m.phase ≠ phaseFull → stillOn s (fld m.op0 0 6) = [] → wordRuns s (fld m.op0 0 6) = false → exec (.stop q) s = .next (endRun s m 0 none)) ∧
      (m.cmd = 10 → m.phase = 0 → ∃ t, exec (.stopFallback q) s = .next t ∧ t.hub.cmds = [{ m with phase := 1 }] ∧ t.mem = s.mem ∧
        (∀ k, (core t k).stepStop = ((core s k).stepStop || decide (k ∈ stepCores s (fld m.op0 0 6)))) ∧ ∀ k, { core t k with stepStop := false } = { core s k with stepStop := false }) ∧
      (m.cmd = 13 → performed s m.ids = true → oldCopies s (fld m.op0 0 6) (BitVec.ofNat 8 m.phase) = false → exec (.tlbinvEnd q) s = .next (endRun s m 0 none)) ∧
      (m.cmd = 14 → ∀ k, stoppedCore s (fld m.op0 0 6) m.op1 = some k → joinSum s k = 0 → exec (.faultReplay q) s = .next (endRun (replayCore s k m.op2) m 0 none)) ∧
      (m.cmd = 16 → ∀ e rest, s.hub.opNext = e :: rest → e.trip = false →
        let p := if (s.hub.tripAt.map (·.1)) = some e.at_ then (s.hub.tripAt.map (·.2)).getD 0 else e.op
        exec .operatingPointChange s = .next (endRun { s with hub := { s.hub with op := p, opNext := rest } } m 0 none)))) ∧
  ∀ (s : State) (q : Nat) (r : Line) (result : Nat) (code : Option Code) (l : Nat), lw r 2 ≠ 0 → fld (lw r 2) 0 4 = 0 → hubLoc s (lqOf s q).sysq (lqOf s q).ctx (lw r 2) true = .ok l → result < 4 →
    let t := endCmd s q r result code
    rd t l 8 = (lw r 3).toNat ∧ rd t (l + 8) 8 = result + code.elim 0 Code.num * 2 ^ 8 ∧ t.hub.jseq = s.hub.jseq + 1 ∧ t.cores = s.cores ∧ t.clus = s.clus ∧ t.ctxs = s.ctxs ∧
      ∀ b, b < l ∨ l + 16 ≤ b → rdB t b = rdB s b

/-- R340, R344, R345, R351, R369, R374, R384, R385, R390, R424, R426, R427: what the commands do. CTXSET writes the doublewords of its mask but for CLOWN, CLSW and the number of the context; CLASSIGN and CLRELEASE set and clear CLOWN; SAVECFG, PARTSET, ANSET and TRIPSET set their registers; OPSET and a thermal trip queue
a change of the operating point, which a later step takes; TLBINV drops the context's entries and raises GEN; RESUME ends every hold; a fault ring begins empty at HEAD and takes waiting records as HEAD moves. -/
def Obligations.CommandEffects : Prop :=
  (∀ (s : State) (n : Nat) (b c : Word), n < 64 → physBad b 1 = false → c.toNat < 2 ^ 32 → flying s n = false →
    let d := fun (j : Nat) => if bit c j = true ∧ j ≠ 9 ∧ j ≠ 28 then
      (if j = 0 then setFld (BitVec.ofNat 64 (rd s b.toNat 8)) 16 6 0 else BitVec.ofNat 64 (rd s (b.toNat + 8 * j) 8)) else tget 0 (ctx s n).d j
    (bit (d 0) 24 = true → entBad s n d = false) →
    ∃ t, ctxset s (BitVec.ofNat 64 n) b c = .ok t ∧ (∀ j, j < 32 → tget 0 (ctx t n).d j = d j) ∧ t.mem = s.mem ∧ (∀ m, m ≠ n → ctx t m = ctx s m) ∧
      (ctxValid s n = true → bit (d 0) 24 = true → (ctx t n).objs = (ctx s n).objs ∧ (ctx t n).rwin = (ctx s n).rwin) ∧
      (bit (d 0) 24 = true → ctxValid s n = false → (ctx t n).rwin = []) ∧
      (bit (d 0) 24 = true → ctxValid s n = false → ∀ k, ∀ e ∈ (core t k).ic, e.1 < fld (d 1) 0 52 ∨ fld (d 1) 0 52 + fld (d 2) 0 41 ≤ e.1)) ∧
  (∀ (s : State) (n k : Nat) (b : Word), n < 64 → k < 16 → physBad b 1 = false → assignFail s n [(k, b.toNat)] = none → bit (ctxD s n 9) k = false →
    ∃ t, classign s (BitVec.ofNat 64 n) b (BitVec.ofNat 64 (2 ^ k)) = .ok t ∧ (∀ c, bit (ctxD t n 9) c = (decide (c = k) || bit (ctxD s n 9) c)) ∧ (∀ w, evWord t k w = 0) ∧ (clu t k).rq = [] ∧
      (clu t k).frz = [] ∧ (∀ q, q < 4 → (ringOf (clu t k) q).base = BitVec.ofNat 64 (rd s (b.toNat + 32 * q) 8)) ∧ t.mem = s.mem ∧ t.cores = s.cores ∧ ∀ m, m ≠ k → clu t m = clu s m) ∧
  (∀ (s : State) (n k : Nat), n < 64 → k < 16 → bit (ctxD s n 9) k = true → cluBusy s n k = false →
    ∃ t, clrelease s (BitVec.ofNat 64 n) 0 (BitVec.ofNat 64 (2 ^ k)) = .ok t ∧ (∀ c, bit (ctxD t n 9) c = (decide (c ≠ k) && bit (ctxD s n 9) c)) ∧ (clu t k).rq = [] ∧ t.mem = s.mem ∧
      ∀ m, m ≠ k → clu t m = clu s m) ∧
  (∀ (s : State) (n : Nat) (b c : Word), n < 64 → fld b 0 21 = 0 → fld b 48 16 = 0 → c.toNat < 2 ^ 20 → (ctx s n).saveUsed = [] →
    regionOut s n b c.toNat = false →
    savecfg s (BitVec.ofNat 64 n) b c = .ok (setCtx s n { ctx s n with saveBase := b, saveCnt := c.toNat })) ∧
  (∀ (s : State) (p : Nat) (b c : Word), p < 8 → b.toNat < 2 ^ 16 → c.toNat < 2 ^ 16 →
    ∃ t, anset s (BitVec.ofNat 64 p) b c = .ok t ∧ budgetOf t p = BitVec.ofNat 64 (b.toNat + 65536 * c.toNat) ∧ (∀ m, m ≠ p → budgetOf t m = budgetOf s m) ∧ t = { s with hub := { s.hub with budget := t.hub.budget } }) ∧
  (∀ (s : State) (p : Nat) (b : Word), p < 8 → b.toNat < 256 →
    tripset s (BitVec.ofNat 64 p) b 0 = .ok { s with hub := { s.hub with emerg := BitVec.ofNat 3 p, trip := BitVec.ofNat 8 b.toNat } } ∧
    opset s (BitVec.ofNat 64 p) 0 0 = .ok ({ s with hub := { s.hub with opNext := s.hub.opNext ++ [{ op := BitVec.ofNat 3 p, at_ := s.hub.ticks }] } }, [])) ∧
  (∀ (s : State) (d : BitVec 2) (x : BitVec 8), (x.toNat < s.hub.trip.toNat → exec (.thermalTrip d x) s = .next s) ∧
    (s.hub.trip.toNat ≤ x.toNat → exec (.thermalTrip d x) s = .next { s with hub := { s.hub with opNext := s.hub.opNext ++
      [{ op := s.hub.emerg, trip := true, arg := BitVec.ofNat 64 (d.toNat + 4 * s.hub.emerg.toNat + 256 * x.toNat), at_ := s.hub.ticks }] } })) ∧
  (∀ (s : State) (o : OpChg) (rest : List OpChg), s.hub.opNext = o :: rest → o.trip = true → ∃ t e, exec .operatingPointChange s = .next t ∧
    t.hub.op = o.op ∧ t.hub.tripAt = some (s.hub.ticks, o.op) ∧ t.hub.opNext = rest.map (fun x => if x.trip then x else { x with op := o.op }) ∧
    t.hub.journal.head? = some e ∧ fld e.j1 0 8 = 6 ∧ e.arg = o.arg ∧ t.cores = s.cores ∧ t.mem = s.mem) ∧
  (∀ (s : State) (p : Nat), p < 64 → p % 4 ≠ 3 → (∀ n, n < 64 → ctxValid s n = false) →
    ∃ t, partset s (BitVec.ofNat 64 p) 0 0 = .ok t ∧ t.hub = { s.hub with partcfg := BitVec.ofNat 64 p } ∧ t.ctxs = s.ctxs) ∧
  (∀ (s : State) (n : Nat), n < 64 → ∃ t ids, tlbinvAll s (BitVec.ofNat 64 (n + 256)) 0 0 = .ok (t, ids) ∧ t.tlb = s.tlb.filter (fun e => decide (e.ctx ≠ n)) ∧
    (ctx t n).gen = (ctx s n).gen + 1 ∧ t.mem = s.mem ∧ ∀ r ∈ s.reqs, r.ctx = n → r.stage = .out → r.id ∈ ids) ∧
  (∀ (s : State) (n : Nat), n < 64 → ∃ t, resume s (BitVec.ofNat 64 n) 0 0 = .ok t ∧ (ctx t n).stopped = false ∧ t.mem = s.mem ∧
    (∀ c, c < 64 → bit (ctxD s n 9) c = true → (clu t c).noDisp = false) ∧ ∀ k, k ∈ resumeCores s n → (core t k).stepStop = false ∧ (core t k).atStep = false) ∧
  (∀ (s : State) (n z : Nat) (b : Word), n < 64 → 4 ≤ z → z ≤ 16 → physBad b 128 = false → (ctx s n).fr.wait = [] →
    ∃ t, ringConfig s (BitVec.ofNat 64 n) b (BitVec.ofNat 64 z) = .ok t ∧ (ctx t n).fr.base = b.toNat ∧ (ctx t n).fr.log2n = z ∧
      (ctx t n).fr.head = rd s b.toNat 4 ∧ (ctx t n).fr.tail = rd s b.toNat 4 ∧ rd t (b.toNat + 8) 4 = rd s b.toNat 4 ∧ ∀ a, a < b.toNat + 8 ∨ b.toNat + 12 ≤ a → rdB t a = rdB s a) ∧
  ∀ (s : State) (n : Nat), (ctx s n).fr.log2n ≠ 0 → (ctx s n).fr.wait = [] → ∃ t, exec (.faultRingHeadWrite n) s = .next t ∧ (ctx t n).fr.head = rd s (ctx s n).fr.base 4 ∧
    (ctx t n).fr.tail = (ctx s n).fr.tail ∧ t.mem = s.mem ∧ t.cores = s.cores ∧ ∀ e ∈ t.hub.dirty, e.1 ≠ 16384 + n

/-! ## Rules in full -/

/-- R86: where a byte of the cluster windows and of space 0x1 lies. Offset o of a window (space 0x2 of the own cluster, 0x6 of the cluster the address names) stands in the scratchpad of core o[9:7] of that cluster at local byte 0x20_0000 + o[23:10] × 128 + o[6:0]; private offset o of space 0x1 is local byte o of the
own core. So no address of space 0x1 and no window address, of whatever cores, name one byte. -/
def Obligations.WindowBytes : Prop :=
  (∀ (s : State) (a : Word) (n al : Nat) (w : Bool) (l : Nat), s.cur < 512 → chk s a n al w = .ok (.loc l) →
    let o := fld a 0 24
    let clu := if spc a = 2 then s.cur / 8 else s.cur / 128 * 16 + fld a 24 4
    (spc a = 1 → l = spLoc s.cur (fld a 0 21)) ∧
    (spc a = 2 ∨ spc a = 6 → l = spLoc (8 * clu + o / 128 % 8) (0x200000 + o / 1024 * 128 + o % 128))) ∧
  ∀ (s t : State) (a b : Word) (n m al bl : Nat) (v w : Bool) (l h : Nat), s.cur < 512 → t.cur < 512 → chk s a n al v = .ok (.loc l) → chk t b m bl w = .ok (.loc h) →
    spc a = 1 → spc b = 2 ∨ spc b = 6 → l ≠ h

/-- R195: handler 16 sets EXPECT from its operand, clears COUNT, OVR and OVRCNT, sets WAKE from its second operand, leaves PHASE, and returns the old 128 bits; no other byte changes. -/
def Obligations.BarrierReset : Prop :=
  ∀ (s : State) (r : Req) (l t : Nat), findReq s r.id = some r → r.kind = .amo → r.h = 16 → canPerform s r = true → reqLoc s r = .ok l → (∀ a n f, r.dst ≠ .slot a n f) →
    errIn s l r.n = none → frameHits s l r.n = [] →
    ∃ (u : State) (n : BitVec 128), exec (.barrierReset r.id t) s = .next u ∧ rd u l 16 = n.toNat ∧ (∀ b, b < l ∨ l + 16 ≤ b → rdB u b = rdB s b) ∧
      HasPerformed u r (rd s l 16) ∧
      fld n 0 16 = fld r.op 0 16 ∧ fld n 16 16 = 0 ∧ fld n 36 1 = 0 ∧ fld n 40 16 = 0 ∧ fld n 64 64 = r.op2.toNat ∧ fld n 32 4 = fld (BitVec.ofNat 128 (rd s l 16)) 32 4

/-- R168, R169: the saturating adds and the bit-field instructions. `adds` and `subs` read the low w bits of their operands as signed, with w 64, 32, 16 or 8 for fn 0 to 3, clamp the exact result to ±(2^(w−1) − 1) and sign-extend it; fn 4 to 7 raise UNDEF. `bfx`, `bfxu` and `bfi` work on len bits of xa from pos on, with pos := xb[5:0] and
len := xb[14:8] cut to 64 − pos. -/
def Obligations.SaturatingAndBitFields : Prop :=
  ∀ (s : State) (d a b : BitVec 6) (f : BitVec 3) (g : BitVec 4),
    let x := rx6 s a
    let y := rx6 s b
    let out := fun (v : Word) => goTo (retired1 s 1 1 (scalarPut 1 d.toNat v))
    let w := 64 / 2 ^ f.toNat
    let sx := fun (v : Word) => ((v.toNat : Int) + 2 ^ (w - 1)) % 2 ^ w - 2 ^ (w - 1)
    let sat := fun (v : Int) => BitVec.ofInt 64 (Max.max (-(2 ^ (w - 1) - 1)) (Min.min (2 ^ (w - 1) - 1) v))
    let pos := bitsAt y 0 6
    let len := Nat.min (bitsAt y 8 7) (64 - pos)
    let field := x.toNat / 2 ^ pos % 2 ^ len
    (Open s 1 g → (f.toNat < 4 → exec (.adds d a b f g) s = out (sat (sx x + sx y)) ∧ exec (.subs d a b f g) s = out (sat (sx x - sx y))) ∧
      exec (.bfxu d a b g) s = out (BitVec.ofNat 64 field) ∧
      exec (.bfx d a b g) s = out (if len = 0 then 0 else BitVec.ofInt 64 (if 2 ^ (len - 1) ≤ field then (field : Int) - 2 ^ len else field)) ∧
      exec (.bfi d a b g) s = out (BitVec.ofNat 64 ((rx6 s d).toNat - (rx6 s d).toNat / 2 ^ pos % 2 ^ len * 2 ^ pos + x.toNat % 2 ^ len * 2 ^ pos))) ∧
    (4 ≤ f.toNat → occupied (cur s) 1 = false → masked (cur s) 1 = false → (cur s).emuAct = false → bit (entD (cur s) 10) 40 = false → quiet (cur s) = true →
      ∀ i ∈ [Instr.adds d a b f g, Instr.subs d a b f g], ∃ e : FaultInfo, e.code = .undef ∧ e.slot = 1 ∧
        exec i s = .next (takeTrap s s.cur { info := repInfo s (cur s) e, off := repOff s (cur s) } []))
end

