-- ==== Sys2Proof/Laws/Tables.lean ====
section
/-! SUPPORT. Laws of the sparse tables: what a read finds after a write, that two writes of one key are one, and that the canonical form
is kept. -/
namespace Sys2Proof.Machine

variable {α : Type} {d : α} {t : Tab α} {k j : Nat} {a b : α}

theorem tget_tdel (t : Tab α) (k j : Nat) : tget d (tdel t k) j = if j = k then d else tget d t j := by
  induction t with
  | nil => simp [tdel, tget]
  | cons e t ih =>
    obtain ⟨i, b⟩ := e
    by_cases h : i = k
    · subst h
      simp only [tdel, if_true, ih, tget]
      by_cases hj : j = i
      · simp [hj]
      · simp [hj, Ne.symm hj]
    · simp only [tdel, h, if_false, tget, ih]
      by_cases hi : i = j
      · subst hi; simp [h]
      · simp [hi]

theorem tget_tins_ne (t : Tab α) (h : j ≠ k) : tget d (tins t k a) j = tget d t j := by
  induction t with
  | nil => simp [tins, tget, Ne.symm h]
  | cons e t ih =>
    obtain ⟨i, b⟩ := e
    by_cases hk : k < i
    · simp [tins, hk, tget, Ne.symm h]
    · simp only [tins, hk, if_false, tget, ih]

theorem tget_tins_self (t : Tab α) (h : ∀ e ∈ t, e.1 ≠ k) : tget d (tins t k a) k = a := by
  induction t with
  | nil => simp [tins, tget]
  | cons e t ih =>
    obtain ⟨i, b⟩ := e
    have hi : i ≠ k := h (i, b) (by simp)
    by_cases hk : k < i
    · simp [tins, hk, tget]
    · simp only [tins, hk, if_false, tget, hi]
      exact ih fun e he => h e (by simp [he])

theorem mem_tdel_ne : ∀ (t : Tab α) (k : Nat), ∀ e ∈ tdel t k, e.1 ≠ k
  | [], _, e, he => by simp [tdel] at he
  | (i, b) :: t, k, e, he => by
    by_cases h : i = k
    · simp only [tdel, h, if_true] at he
      exact mem_tdel_ne t k e he
    · simp only [tdel, h, if_false, List.mem_cons] at he
      rcases he with rfl | he
      · exact h
      · exact mem_tdel_ne t k e he

variable [DecidableEq α]

@[simp] theorem tget_tset_self (t : Tab α) (k : Nat) (a : α) : tget d (tset d t k a) k = a := by
  unfold tset
  split
  · rename_i h; simp [tget_tdel, h]
  · exact tget_tins_self _ (mem_tdel_ne t k)

theorem tget_tset_ne (t : Tab α) (a : α) (h : j ≠ k) : tget d (tset d t k a) j = tget d t j := by
  unfold tset
  split <;> simp [tget_tdel, tget_tins_ne, h]

theorem tget_tset (t : Tab α) (k j : Nat) (a : α) : tget d (tset d t k a) j = if j = k then a else tget d t j := by
  by_cases h : j = k
  · subst h; simp
  · simp [tget_tset_ne, h]

omit [DecidableEq α] in
theorem tdel_of_ne (t : Tab α) (h : ∀ e ∈ t, e.1 ≠ k) : tdel t k = t := by
  induction t with
  | nil => rfl
  | cons e t ih =>
    obtain ⟨i, b⟩ := e
    have hi : i ≠ k := h (i, b) (by simp)
    simp only [tdel, hi, if_false]
    rw [ih fun e he => h e (by simp [he])]

omit [DecidableEq α] in
theorem tdel_tins_self (t : Tab α) (h : ∀ e ∈ t, e.1 ≠ k) : tdel (tins t k a) k = t := by
  induction t with
  | nil => simp [tins, tdel]
  | cons e t ih =>
    obtain ⟨i, b⟩ := e
    have hi : i ≠ k := h (i, b) (by simp)
    have ht : ∀ e ∈ t, e.1 ≠ k := fun e he => h e (by simp [he])
    by_cases hk : k < i
    · simp only [tins, hk, if_true, tdel, hi, if_false]
      rw [tdel_of_ne t ht]
    · simp only [tins, hk, if_false, tdel, hi, ih ht]

/-- Of two writes of one key the later alone counts. -/
@[simp] theorem tset_tset (t : Tab α) (k : Nat) (a b : α) : tset d (tset d t k a) k b = tset d t k b := by
  have e : tdel (tset d t k a) k = tdel t k := by
    unfold tset
    split
    · exact tdel_of_ne _ (mem_tdel_ne t k)
    · exact tdel_tins_self _ (mem_tdel_ne t k)
  simp only [tset] at e ⊢
  rw [e]

/-! ## The canonical form -/

omit [DecidableEq α] in
theorem tsorted_cons {e : Nat × α} {t : Tab α} : tsorted (e :: t) = true ↔ (∀ f ∈ t, e.1 < f.1) ∧ tsorted t = true := by
  induction t generalizing e with
  | nil => simp [tsorted]
  | cons f t ih =>
    obtain ⟨j, a⟩ := e
    obtain ⟨i, b⟩ := f
    simp only [tsorted, Bool.and_eq_true, decide_eq_true_eq, List.mem_cons, forall_eq_or_imp]
    constructor
    · rintro ⟨h, h2⟩
      exact ⟨⟨h, fun f hf => Nat.lt_trans h ((ih.mp h2).1 f hf)⟩, h2⟩
    · rintro ⟨⟨h, -⟩, h2⟩
      exact ⟨h, h2⟩

omit [DecidableEq α] in
theorem mem_tdel (t : Tab α) (k : Nat) : ∀ e ∈ tdel t k, e ∈ t := by
  induction t with
  | nil => simp [tdel]
  | cons f t ih =>
    obtain ⟨i, b⟩ := f
    intro e he
    by_cases h : i = k
    · simp only [tdel, h, if_true] at he
      exact List.mem_cons_of_mem _ (ih e he)
    · simp only [tdel, h, if_false, List.mem_cons] at he ⊢
      exact he.imp_right (ih e)

omit [DecidableEq α] in
theorem mem_tins {t : Tab α} {e : Nat × α} : e ∈ tins t k a ↔ e = (k, a) ∨ e ∈ t := by
  induction t with
  | nil => simp [tins]
  | cons f t ih =>
    obtain ⟨i, b⟩ := f
    by_cases h : k < i
    · simp [tins, h]
    · simp only [tins, h, if_false, List.mem_cons, ih]
      tauto

omit [DecidableEq α] in
theorem tsorted_tdel : ∀ (t : Tab α) (k : Nat), tsorted t = true → tsorted (tdel t k) = true
  | [], _, _ => by simp [tdel, tsorted]
  | (i, b) :: t, k, h => by
    rw [tsorted_cons] at h
    by_cases hk : i = k
    · simp only [tdel, hk, if_true]
      exact tsorted_tdel t k h.2
    · simp only [tdel, hk, if_false]
      exact tsorted_cons.mpr ⟨fun f hf => h.1 f (mem_tdel t k f hf), tsorted_tdel t k h.2⟩

omit [DecidableEq α] in
theorem tsorted_tins : ∀ (t : Tab α), tsorted t = true → (∀ e ∈ t, e.1 ≠ k) → tsorted (tins t k a) = true
  | [], _, _ => by simp [tins, tsorted]
  | (i, b) :: t, h, hne => by
    have h' := tsorted_cons.mp h
    by_cases hk : k < i
    · simp only [tins, hk, if_true]
      refine tsorted_cons.mpr ⟨fun f hf => ?_, h⟩
      rcases List.mem_cons.mp hf with rfl | hf
      · exact hk
      · exact Nat.lt_trans hk (h'.1 f hf)
    · simp only [tins, hk, if_false]
      have hi : i ≠ k := hne (i, b) (by simp)
      refine tsorted_cons.mpr ⟨fun f hf => ?_, tsorted_tins t h'.2 fun e he => hne e (by simp [he])⟩
      rcases mem_tins.mp hf with rfl | hf
      · simp only; omega
      · exact h'.1 f hf

/-- A write keeps the canonical form: keys stay in strict order, and a default is not listed. -/
theorem twf_tset {t : Tab α} (h : twf d t = true) (k : Nat) (a : α) : twf d (tset d t k a) = true := by
  simp only [twf, Bool.and_eq_true, List.all_eq_true, decide_eq_true_eq] at h ⊢
  unfold tset
  split
  · exact ⟨tsorted_tdel t k h.1, fun e he => h.2 e (mem_tdel t k e he)⟩
  · rename_i ha
    refine ⟨tsorted_tins _ (tsorted_tdel t k h.1) (mem_tdel_ne t k), fun e he => ?_⟩
    rcases mem_tins.mp he with rfl | he
    · exact ha
    · exact h.2 e (mem_tdel t k e he)

theorem twf_filter {t : Tab α} (h : twf d t = true) (p : Nat × α → Bool) : twf d (t.filter p) = true := by
  simp only [twf, Bool.and_eq_true, List.all_eq_true, decide_eq_true_eq] at h ⊢
  refine ⟨?_, fun e he => h.2 e (List.mem_of_mem_filter he)⟩
  obtain ⟨hs, -⟩ := h
  induction t with
  | nil => simp [tsorted]
  | cons f t ih =>
    rw [tsorted_cons] at hs
    by_cases hp : p f = true
    · rw [List.filter_cons_of_pos hp]
      exact tsorted_cons.mpr ⟨fun g hg => hs.1 g (List.mem_of_mem_filter hg), ih hs.2⟩
    · rw [List.filter_cons_of_neg hp]
      exact ih hs.2

@[simp] theorem twf_nil : twf d ([] : Tab α) = true := by simp [twf, tsorted]

/-- Two canonical tables that read alike are one list. -/
theorem twf_ext {t u : Tab α} (ht : twf d t = true) (hu : twf d u = true) (h : ∀ k, tget d t k = tget d u k) : t = u := by
  have low : ∀ {t : Tab α} {i : Nat} {b : α}, twf d ((i, b) :: t) = true → b ≠ d ∧ (∀ k ≤ i, tget d t k = d) ∧ twf d t = true := by
    intro t i b h
    simp only [twf, Bool.and_eq_true, List.all_eq_true, decide_eq_true_eq, tsorted_cons, List.mem_cons, forall_eq_or_imp] at h ⊢
    refine ⟨h.2.1, fun k hk => ?_, h.1.2, h.2.2⟩
    have : ∀ (t : Tab α), (∀ f ∈ t, i < f.1) → tget d t k = d := by
      intro t
      induction t with
      | nil => intro _; rfl
      | cons f t ih =>
        intro hf
        have := hf f (by simp)
        obtain ⟨j, c⟩ := f
        simp only [tget]
        rw [if_neg (by simp only at this; omega)]
        exact ih fun g hg => hf g (by simp [hg])
    exact this t h.1.1
  induction t generalizing u with
  | nil =>
    cases u with
    | nil => rfl
    | cons f u =>
      obtain ⟨i, b⟩ := f
      have := h i
      simp only [tget, if_true] at this
      exact absurd this.symm (low hu).1
  | cons e t ih =>
    obtain ⟨i, a⟩ := e
    cases u with
    | nil =>
      have := h i
      simp only [tget, if_true] at this
      exact absurd this (low ht).1
    | cons f u =>
      obtain ⟨j, b⟩ := f
      obtain ⟨ha, la, wt⟩ := low ht
      obtain ⟨hb, lb, wu⟩ := low hu
      have hij : i = j := by
        rcases Nat.lt_trichotomy i j with hlt | heq | hgt
        · have := h i
          simp only [tget, if_true] at this
          rw [if_neg (by omega), lb i (by omega)] at this
          exact absurd this ha
        · exact heq
        · have := h j
          simp only [tget, if_true] at this
          rw [if_neg (by omega), la j (by omega)] at this
          exact absurd this.symm hb
      subst hij
      have hab : a = b := by simpa [tget] using h i
      subst hab
      congr 1
      refine ih wt wu fun k => ?_
      by_cases hk : i = k
      · subst hk; rw [la i (Nat.le_refl i), lb i (Nat.le_refl i)]
      · simpa [tget, hk] using h k

end Sys2Proof.Machine
end

