-- ==== Sys2Proof/Laws/State.lean ====
section
/-! SUPPORT. What each update of the state leaves alone, field by field, and what a read of a unit finds after an update of one. -/
namespace Sys2Proof.Machine

/-! ## One lemma per field and update -/

@[simp] theorem setCore_clus (s : State) (k : Nat) (c : Core) : (setCore s k c).clus = s.clus := rfl
@[simp] theorem setCore_mem (s : State) (k : Nat) (c : Core) : (setCore s k c).mem = s.mem := rfl
@[simp] theorem setCore_ctxs (s : State) (k : Nat) (c : Core) : (setCore s k c).ctxs = s.ctxs := rfl
@[simp] theorem setCore_reqs (s : State) (k : Nat) (c : Core) : (setCore s k c).reqs = s.reqs := rfl
@[simp] theorem setCore_comps (s : State) (k : Nat) (c : Core) : (setCore s k c).comps = s.comps := rfl
@[simp] theorem setCore_tiles (s : State) (k : Nat) (c : Core) : (setCore s k c).tiles = s.tiles := rfl
@[simp] theorem setCore_tlb (s : State) (k : Nat) (c : Core) : (setCore s k c).tlb = s.tlb := rfl
@[simp] theorem setCore_pkts (s : State) (k : Nat) (c : Core) : (setCore s k c).pkts = s.pkts := rfl
@[simp] theorem setCore_merges (s : State) (k : Nat) (c : Core) : (setCore s k c).merges = s.merges := rfl
@[simp] theorem setCore_uecc (s : State) (k : Nat) (c : Core) : (setCore s k c).uecc = s.uecc := rfl
@[simp] theorem setCore_wire (s : State) (k : Nat) (c : Core) : (setCore s k c).wire = s.wire := rfl
@[simp] theorem setCore_ccy (s : State) (k : Nat) (c : Core) : (setCore s k c).ccy = s.ccy := rfl
@[simp] theorem setCore_hub (s : State) (k : Nat) (c : Core) : (setCore s k c).hub = s.hub := rfl
@[simp] theorem setCore_svi (s : State) (k : Nat) (c : Core) : (setCore s k c).svi = s.svi := rfl
@[simp] theorem setCore_vx (s : State) (k : Nat) (c : Core) : (setCore s k c).vx = s.vx := rfl
@[simp] theorem setCore_cur (s : State) (k : Nat) (c : Core) : (setCore s k c).cur = s.cur := rfl
@[simp] theorem setCore_agenda (s : State) (k : Nat) (c : Core) : (setCore s k c).agenda = s.agenda := rfl
@[simp] theorem setCore_free (s : State) (k : Nat) (c : Core) : (setCore s k c).free = s.free := rfl
@[simp] theorem setCore_nextId (s : State) (k : Nat) (c : Core) : (setCore s k c).nextId = s.nextId := rfl

@[simp] theorem modCore_clus (s : State) (k : Nat) (f : Core → Core) : (modCore s k f).clus = s.clus := rfl
@[simp] theorem modCore_mem (s : State) (k : Nat) (f : Core → Core) : (modCore s k f).mem = s.mem := rfl
@[simp] theorem modCore_ctxs (s : State) (k : Nat) (f : Core → Core) : (modCore s k f).ctxs = s.ctxs := rfl
@[simp] theorem modCore_reqs (s : State) (k : Nat) (f : Core → Core) : (modCore s k f).reqs = s.reqs := rfl
@[simp] theorem modCore_comps (s : State) (k : Nat) (f : Core → Core) : (modCore s k f).comps = s.comps := rfl
@[simp] theorem modCore_tiles (s : State) (k : Nat) (f : Core → Core) : (modCore s k f).tiles = s.tiles := rfl
@[simp] theorem modCore_tlb (s : State) (k : Nat) (f : Core → Core) : (modCore s k f).tlb = s.tlb := rfl
@[simp] theorem modCore_pkts (s : State) (k : Nat) (f : Core → Core) : (modCore s k f).pkts = s.pkts := rfl
@[simp] theorem modCore_merges (s : State) (k : Nat) (f : Core → Core) : (modCore s k f).merges = s.merges := rfl
@[simp] theorem modCore_uecc (s : State) (k : Nat) (f : Core → Core) : (modCore s k f).uecc = s.uecc := rfl
@[simp] theorem modCore_wire (s : State) (k : Nat) (f : Core → Core) : (modCore s k f).wire = s.wire := rfl
@[simp] theorem modCore_ccy (s : State) (k : Nat) (f : Core → Core) : (modCore s k f).ccy = s.ccy := rfl
@[simp] theorem modCore_hub (s : State) (k : Nat) (f : Core → Core) : (modCore s k f).hub = s.hub := rfl
@[simp] theorem modCore_svi (s : State) (k : Nat) (f : Core → Core) : (modCore s k f).svi = s.svi := rfl
@[simp] theorem modCore_vx (s : State) (k : Nat) (f : Core → Core) : (modCore s k f).vx = s.vx := rfl
@[simp] theorem modCore_cur (s : State) (k : Nat) (f : Core → Core) : (modCore s k f).cur = s.cur := rfl
@[simp] theorem modCore_agenda (s : State) (k : Nat) (f : Core → Core) : (modCore s k f).agenda = s.agenda := rfl
@[simp] theorem modCore_free (s : State) (k : Nat) (f : Core → Core) : (modCore s k f).free = s.free := rfl
@[simp] theorem modCore_nextId (s : State) (k : Nat) (f : Core → Core) : (modCore s k f).nextId = s.nextId := rfl

@[simp] theorem setCur_clus (s : State) (c : Core) : (setCur s c).clus = s.clus := rfl
@[simp] theorem setCur_mem (s : State) (c : Core) : (setCur s c).mem = s.mem := rfl
@[simp] theorem setCur_ctxs (s : State) (c : Core) : (setCur s c).ctxs = s.ctxs := rfl
@[simp] theorem setCur_reqs (s : State) (c : Core) : (setCur s c).reqs = s.reqs := rfl
@[simp] theorem setCur_comps (s : State) (c : Core) : (setCur s c).comps = s.comps := rfl
@[simp] theorem setCur_tiles (s : State) (c : Core) : (setCur s c).tiles = s.tiles := rfl
@[simp] theorem setCur_tlb (s : State) (c : Core) : (setCur s c).tlb = s.tlb := rfl
@[simp] theorem setCur_pkts (s : State) (c : Core) : (setCur s c).pkts = s.pkts := rfl
@[simp] theorem setCur_merges (s : State) (c : Core) : (setCur s c).merges = s.merges := rfl
@[simp] theorem setCur_uecc (s : State) (c : Core) : (setCur s c).uecc = s.uecc := rfl
@[simp] theorem setCur_wire (s : State) (c : Core) : (setCur s c).wire = s.wire := rfl
@[simp] theorem setCur_ccy (s : State) (c : Core) : (setCur s c).ccy = s.ccy := rfl
@[simp] theorem setCur_hub (s : State) (c : Core) : (setCur s c).hub = s.hub := rfl
@[simp] theorem setCur_svi (s : State) (c : Core) : (setCur s c).svi = s.svi := rfl
@[simp] theorem setCur_vx (s : State) (c : Core) : (setCur s c).vx = s.vx := rfl
@[simp] theorem setCur_cur (s : State) (c : Core) : (setCur s c).cur = s.cur := rfl
@[simp] theorem setCur_agenda (s : State) (c : Core) : (setCur s c).agenda = s.agenda := rfl
@[simp] theorem setCur_free (s : State) (c : Core) : (setCur s c).free = s.free := rfl
@[simp] theorem setCur_nextId (s : State) (c : Core) : (setCur s c).nextId = s.nextId := rfl

@[simp] theorem modCur_clus (s : State) (f : Core → Core) : (modCur s f).clus = s.clus := rfl
@[simp] theorem modCur_mem (s : State) (f : Core → Core) : (modCur s f).mem = s.mem := rfl
@[simp] theorem modCur_ctxs (s : State) (f : Core → Core) : (modCur s f).ctxs = s.ctxs := rfl
@[simp] theorem modCur_reqs (s : State) (f : Core → Core) : (modCur s f).reqs = s.reqs := rfl
@[simp] theorem modCur_comps (s : State) (f : Core → Core) : (modCur s f).comps = s.comps := rfl
@[simp] theorem modCur_tiles (s : State) (f : Core → Core) : (modCur s f).tiles = s.tiles := rfl
@[simp] theorem modCur_tlb (s : State) (f : Core → Core) : (modCur s f).tlb = s.tlb := rfl
@[simp] theorem modCur_pkts (s : State) (f : Core → Core) : (modCur s f).pkts = s.pkts := rfl
@[simp] theorem modCur_merges (s : State) (f : Core → Core) : (modCur s f).merges = s.merges := rfl
@[simp] theorem modCur_uecc (s : State) (f : Core → Core) : (modCur s f).uecc = s.uecc := rfl
@[simp] theorem modCur_wire (s : State) (f : Core → Core) : (modCur s f).wire = s.wire := rfl
@[simp] theorem modCur_ccy (s : State) (f : Core → Core) : (modCur s f).ccy = s.ccy := rfl
@[simp] theorem modCur_hub (s : State) (f : Core → Core) : (modCur s f).hub = s.hub := rfl
@[simp] theorem modCur_svi (s : State) (f : Core → Core) : (modCur s f).svi = s.svi := rfl
@[simp] theorem modCur_vx (s : State) (f : Core → Core) : (modCur s f).vx = s.vx := rfl
@[simp] theorem modCur_cur (s : State) (f : Core → Core) : (modCur s f).cur = s.cur := rfl
@[simp] theorem modCur_agenda (s : State) (f : Core → Core) : (modCur s f).agenda = s.agenda := rfl
@[simp] theorem modCur_free (s : State) (f : Core → Core) : (modCur s f).free = s.free := rfl
@[simp] theorem modCur_nextId (s : State) (f : Core → Core) : (modCur s f).nextId = s.nextId := rfl

@[simp] theorem setClu_cores (s : State) (n : Nat) (c : Cluster) : (setClu s n c).cores = s.cores := rfl
@[simp] theorem setClu_mem (s : State) (n : Nat) (c : Cluster) : (setClu s n c).mem = s.mem := rfl
@[simp] theorem setClu_ctxs (s : State) (n : Nat) (c : Cluster) : (setClu s n c).ctxs = s.ctxs := rfl
@[simp] theorem setClu_reqs (s : State) (n : Nat) (c : Cluster) : (setClu s n c).reqs = s.reqs := rfl
@[simp] theorem setClu_comps (s : State) (n : Nat) (c : Cluster) : (setClu s n c).comps = s.comps := rfl
@[simp] theorem setClu_tiles (s : State) (n : Nat) (c : Cluster) : (setClu s n c).tiles = s.tiles := rfl
@[simp] theorem setClu_tlb (s : State) (n : Nat) (c : Cluster) : (setClu s n c).tlb = s.tlb := rfl
@[simp] theorem setClu_pkts (s : State) (n : Nat) (c : Cluster) : (setClu s n c).pkts = s.pkts := rfl
@[simp] theorem setClu_merges (s : State) (n : Nat) (c : Cluster) : (setClu s n c).merges = s.merges := rfl
@[simp] theorem setClu_uecc (s : State) (n : Nat) (c : Cluster) : (setClu s n c).uecc = s.uecc := rfl
@[simp] theorem setClu_wire (s : State) (n : Nat) (c : Cluster) : (setClu s n c).wire = s.wire := rfl
@[simp] theorem setClu_ccy (s : State) (n : Nat) (c : Cluster) : (setClu s n c).ccy = s.ccy := rfl
@[simp] theorem setClu_hub (s : State) (n : Nat) (c : Cluster) : (setClu s n c).hub = s.hub := rfl
@[simp] theorem setClu_svi (s : State) (n : Nat) (c : Cluster) : (setClu s n c).svi = s.svi := rfl
@[simp] theorem setClu_vx (s : State) (n : Nat) (c : Cluster) : (setClu s n c).vx = s.vx := rfl
@[simp] theorem setClu_cur (s : State) (n : Nat) (c : Cluster) : (setClu s n c).cur = s.cur := rfl
@[simp] theorem setClu_agenda (s : State) (n : Nat) (c : Cluster) : (setClu s n c).agenda = s.agenda := rfl
@[simp] theorem setClu_free (s : State) (n : Nat) (c : Cluster) : (setClu s n c).free = s.free := rfl
@[simp] theorem setClu_nextId (s : State) (n : Nat) (c : Cluster) : (setClu s n c).nextId = s.nextId := rfl

@[simp] theorem setCtx_cores (s : State) (n : Nat) (c : Ctx) : (setCtx s n c).cores = s.cores := rfl
@[simp] theorem setCtx_clus (s : State) (n : Nat) (c : Ctx) : (setCtx s n c).clus = s.clus := rfl
@[simp] theorem setCtx_mem (s : State) (n : Nat) (c : Ctx) : (setCtx s n c).mem = s.mem := rfl
@[simp] theorem setCtx_reqs (s : State) (n : Nat) (c : Ctx) : (setCtx s n c).reqs = s.reqs := rfl
@[simp] theorem setCtx_comps (s : State) (n : Nat) (c : Ctx) : (setCtx s n c).comps = s.comps := rfl
@[simp] theorem setCtx_tiles (s : State) (n : Nat) (c : Ctx) : (setCtx s n c).tiles = s.tiles := rfl
@[simp] theorem setCtx_tlb (s : State) (n : Nat) (c : Ctx) : (setCtx s n c).tlb = s.tlb := rfl
@[simp] theorem setCtx_pkts (s : State) (n : Nat) (c : Ctx) : (setCtx s n c).pkts = s.pkts := rfl
@[simp] theorem setCtx_merges (s : State) (n : Nat) (c : Ctx) : (setCtx s n c).merges = s.merges := rfl
@[simp] theorem setCtx_uecc (s : State) (n : Nat) (c : Ctx) : (setCtx s n c).uecc = s.uecc := rfl
@[simp] theorem setCtx_wire (s : State) (n : Nat) (c : Ctx) : (setCtx s n c).wire = s.wire := rfl
@[simp] theorem setCtx_ccy (s : State) (n : Nat) (c : Ctx) : (setCtx s n c).ccy = s.ccy := rfl
@[simp] theorem setCtx_hub (s : State) (n : Nat) (c : Ctx) : (setCtx s n c).hub = s.hub := rfl
@[simp] theorem setCtx_svi (s : State) (n : Nat) (c : Ctx) : (setCtx s n c).svi = s.svi := rfl
@[simp] theorem setCtx_vx (s : State) (n : Nat) (c : Ctx) : (setCtx s n c).vx = s.vx := rfl
@[simp] theorem setCtx_cur (s : State) (n : Nat) (c : Ctx) : (setCtx s n c).cur = s.cur := rfl
@[simp] theorem setCtx_agenda (s : State) (n : Nat) (c : Ctx) : (setCtx s n c).agenda = s.agenda := rfl
@[simp] theorem setCtx_free (s : State) (n : Nat) (c : Ctx) : (setCtx s n c).free = s.free := rfl
@[simp] theorem setCtx_nextId (s : State) (n : Nat) (c : Ctx) : (setCtx s n c).nextId = s.nextId := rfl

@[simp] theorem wrB_cores (s : State) (a : Nat) (b : Byte) : (wrB s a b).cores = s.cores := rfl
@[simp] theorem wrB_clus (s : State) (a : Nat) (b : Byte) : (wrB s a b).clus = s.clus := rfl
@[simp] theorem wrB_ctxs (s : State) (a : Nat) (b : Byte) : (wrB s a b).ctxs = s.ctxs := rfl
@[simp] theorem wrB_reqs (s : State) (a : Nat) (b : Byte) : (wrB s a b).reqs = s.reqs := rfl
@[simp] theorem wrB_comps (s : State) (a : Nat) (b : Byte) : (wrB s a b).comps = s.comps := rfl
@[simp] theorem wrB_tiles (s : State) (a : Nat) (b : Byte) : (wrB s a b).tiles = s.tiles := rfl
@[simp] theorem wrB_tlb (s : State) (a : Nat) (b : Byte) : (wrB s a b).tlb = s.tlb := rfl
@[simp] theorem wrB_pkts (s : State) (a : Nat) (b : Byte) : (wrB s a b).pkts = s.pkts := rfl
@[simp] theorem wrB_merges (s : State) (a : Nat) (b : Byte) : (wrB s a b).merges = s.merges := rfl
@[simp] theorem wrB_uecc (s : State) (a : Nat) (b : Byte) : (wrB s a b).uecc = s.uecc := rfl
@[simp] theorem wrB_wire (s : State) (a : Nat) (b : Byte) : (wrB s a b).wire = s.wire := rfl
@[simp] theorem wrB_ccy (s : State) (a : Nat) (b : Byte) : (wrB s a b).ccy = s.ccy := rfl
@[simp] theorem wrB_hub (s : State) (a : Nat) (b : Byte) : (wrB s a b).hub = s.hub := rfl
@[simp] theorem wrB_svi (s : State) (a : Nat) (b : Byte) : (wrB s a b).svi = s.svi := rfl
@[simp] theorem wrB_vx (s : State) (a : Nat) (b : Byte) : (wrB s a b).vx = s.vx := rfl
@[simp] theorem wrB_cur (s : State) (a : Nat) (b : Byte) : (wrB s a b).cur = s.cur := rfl
@[simp] theorem wrB_agenda (s : State) (a : Nat) (b : Byte) : (wrB s a b).agenda = s.agenda := rfl
@[simp] theorem wrB_free (s : State) (a : Nat) (b : Byte) : (wrB s a b).free = s.free := rfl
@[simp] theorem wrB_nextId (s : State) (a : Nat) (b : Byte) : (wrB s a b).nextId = s.nextId := rfl

@[simp] theorem wr_cores (s : State) (a n v : Nat) : (wr s a n v).cores = s.cores := rfl
@[simp] theorem wr_clus (s : State) (a n v : Nat) : (wr s a n v).clus = s.clus := rfl
@[simp] theorem wr_ctxs (s : State) (a n v : Nat) : (wr s a n v).ctxs = s.ctxs := rfl
@[simp] theorem wr_reqs (s : State) (a n v : Nat) : (wr s a n v).reqs = s.reqs := rfl
@[simp] theorem wr_comps (s : State) (a n v : Nat) : (wr s a n v).comps = s.comps := rfl
@[simp] theorem wr_tiles (s : State) (a n v : Nat) : (wr s a n v).tiles = s.tiles := rfl
@[simp] theorem wr_tlb (s : State) (a n v : Nat) : (wr s a n v).tlb = s.tlb := rfl
@[simp] theorem wr_pkts (s : State) (a n v : Nat) : (wr s a n v).pkts = s.pkts := rfl
@[simp] theorem wr_merges (s : State) (a n v : Nat) : (wr s a n v).merges = s.merges := rfl
@[simp] theorem wr_uecc (s : State) (a n v : Nat) : (wr s a n v).uecc = s.uecc := rfl
@[simp] theorem wr_wire (s : State) (a n v : Nat) : (wr s a n v).wire = s.wire := rfl
@[simp] theorem wr_ccy (s : State) (a n v : Nat) : (wr s a n v).ccy = s.ccy := rfl
@[simp] theorem wr_hub (s : State) (a n v : Nat) : (wr s a n v).hub = s.hub := rfl
@[simp] theorem wr_svi (s : State) (a n v : Nat) : (wr s a n v).svi = s.svi := rfl
@[simp] theorem wr_vx (s : State) (a n v : Nat) : (wr s a n v).vx = s.vx := rfl
@[simp] theorem wr_cur (s : State) (a n v : Nat) : (wr s a n v).cur = s.cur := rfl
@[simp] theorem wr_agenda (s : State) (a n v : Nat) : (wr s a n v).agenda = s.agenda := rfl
@[simp] theorem wr_free (s : State) (a n v : Nat) : (wr s a n v).free = s.free := rfl
@[simp] theorem wr_nextId (s : State) (a n v : Nat) : (wr s a n v).nextId = s.nextId := rfl

@[simp] theorem bump_cores (s : State) : (bump s).cores = s.cores := rfl
@[simp] theorem bump_clus (s : State) : (bump s).clus = s.clus := rfl
@[simp] theorem bump_mem (s : State) : (bump s).mem = s.mem := rfl
@[simp] theorem bump_ctxs (s : State) : (bump s).ctxs = s.ctxs := rfl
@[simp] theorem bump_reqs (s : State) : (bump s).reqs = s.reqs := rfl
@[simp] theorem bump_comps (s : State) : (bump s).comps = s.comps := rfl
@[simp] theorem bump_tiles (s : State) : (bump s).tiles = s.tiles := rfl
@[simp] theorem bump_tlb (s : State) : (bump s).tlb = s.tlb := rfl
@[simp] theorem bump_pkts (s : State) : (bump s).pkts = s.pkts := rfl
@[simp] theorem bump_merges (s : State) : (bump s).merges = s.merges := rfl
@[simp] theorem bump_uecc (s : State) : (bump s).uecc = s.uecc := rfl
@[simp] theorem bump_wire (s : State) : (bump s).wire = s.wire := rfl
@[simp] theorem bump_ccy (s : State) : (bump s).ccy = s.ccy := rfl
@[simp] theorem bump_hub (s : State) : (bump s).hub = s.hub := rfl
@[simp] theorem bump_svi (s : State) : (bump s).svi = s.svi := rfl
@[simp] theorem bump_vx (s : State) : (bump s).vx = s.vx := rfl
@[simp] theorem bump_cur (s : State) : (bump s).cur = s.cur := rfl
@[simp] theorem bump_agenda (s : State) : (bump s).agenda = s.agenda := rfl
@[simp] theorem bump_nextId (s : State) : (bump s).nextId = s.nextId := rfl

@[simp] theorem setCore_cores (s : State) (k : Nat) (c : Core) : (setCore s k c).cores = tset {} s.cores k c := rfl
@[simp] theorem setClu_clus (s : State) (n : Nat) (c : Cluster) : (setClu s n c).clus = tset {} s.clus n c := rfl
@[simp] theorem setCtx_ctxs (s : State) (n : Nat) (c : Ctx) : (setCtx s n c).ctxs = tset {} s.ctxs n c := rfl
@[simp] theorem wrB_mem (s : State) (a : Nat) (b : Byte) : (wrB s a b).mem = tset 0 s.mem a b := rfl
@[simp] theorem wr_mem (s : State) (a n v : Nat) : (wr s a n v).mem = wrMem s.mem a n v := rfl
@[simp] theorem bump_free (s : State) : (bump s).free = s.free + 1 := rfl

/-! ## Reading a unit -/

@[simp] theorem core_setCore_self (s : State) (k : Nat) (c : Core) : core (setCore s k c) k = c := by simp [core]
theorem core_setCore (s : State) (k j : Nat) (c : Core) : core (setCore s k c) j = if j = k then c else core s j := by
  simp [core, tget_tset]
theorem core_setCore_ne (s : State) (c : Core) {k j : Nat} (h : j ≠ k) : core (setCore s k c) j = core s j := by
  simp [core_setCore, h]
@[simp] theorem core_modCore_self (s : State) (k : Nat) (f : Core → Core) : core (modCore s k f) k = f (core s k) := by
  simp [modCore]
theorem core_modCore (s : State) (k j : Nat) (f : Core → Core) :
    core (modCore s k f) j = if j = k then f (core s k) else core s j := by simp [modCore, core_setCore]
theorem core_modCore_ne (s : State) (f : Core → Core) {k j : Nat} (h : j ≠ k) : core (modCore s k f) j = core s j := by
  simp [core_modCore, h]
@[simp] theorem cur_setCur (s : State) (c : Core) : cur (setCur s c) = c := by simp [cur, setCur]
@[simp] theorem cur_modCur (s : State) (f : Core → Core) : cur (modCur s f) = f (cur s) := by simp [modCur]
theorem core_setCur_ne (s : State) (c : Core) {j : Nat} (h : j ≠ s.cur) : core (setCur s c) j = core s j := core_setCore_ne s c h
theorem core_modCur_ne (s : State) (f : Core → Core) {j : Nat} (h : j ≠ s.cur) : core (modCur s f) j = core s j :=
  core_setCur_ne s _ h
@[simp] theorem clu_setClu_self (s : State) (n : Nat) (c : Cluster) : clu (setClu s n c) n = c := by simp [clu]
theorem clu_setClu (s : State) (n m : Nat) (c : Cluster) : clu (setClu s n c) m = if m = n then c else clu s m := by
  simp [clu, tget_tset]
@[simp] theorem ctx_setCtx_self (s : State) (n : Nat) (c : Ctx) : ctx (setCtx s n c) n = c := by simp [ctx]
theorem ctx_setCtx (s : State) (n m : Nat) (c : Ctx) : ctx (setCtx s n c) m = if m = n then c else ctx s m := by
  simp [ctx, tget_tset]

@[simp] theorem core_bump (s : State) (k : Nat) : core (bump s) k = core s k := rfl
@[simp] theorem cur_bump (s : State) : Machine.cur (bump s) = Machine.cur s := rfl
@[simp] theorem core_wr (s : State) (a n v k : Nat) : core (wr s a n v) k = core s k := rfl
@[simp] theorem cur_wr (s : State) (a n v : Nat) : Machine.cur (wr s a n v) = Machine.cur s := rfl
@[simp] theorem clu_setCore (s : State) (k n : Nat) (c : Core) : clu (setCore s k c) n = clu s n := rfl
@[simp] theorem ctx_setCore (s : State) (k n : Nat) (c : Core) : ctx (setCore s k c) n = ctx s n := rfl
@[simp] theorem core_setClu (s : State) (k n : Nat) (c : Cluster) : core (setClu s n c) k = core s k := rfl
@[simp] theorem core_setCtx (s : State) (k n : Nat) (c : Ctx) : core (setCtx s n c) k = core s k := rfl
@[simp] theorem cur_setClu (s : State) (n : Nat) (c : Cluster) : Machine.cur (setClu s n c) = Machine.cur s := rfl
@[simp] theorem cur_setCtx (s : State) (n : Nat) (c : Ctx) : Machine.cur (setCtx s n c) = Machine.cur s := rfl
@[simp] theorem clu_modCur (s : State) (n : Nat) (f : Core → Core) : clu (modCur s f) n = clu s n := rfl
@[simp] theorem ctx_modCur (s : State) (n : Nat) (f : Core → Core) : ctx (modCur s f) n = ctx s n := rfl

/-! ## Updates of one unit in a row are one update -/

@[simp] theorem setCore_setCore (s : State) (k : Nat) (c e : Core) : setCore (setCore s k c) k e = setCore s k e := by
  simp [setCore]
@[simp] theorem setCur_setCur (s : State) (c e : Core) : setCur (setCur s c) e = setCur s e := by simp [setCur]
@[simp] theorem modCur_modCur (s : State) (f g : Core → Core) : modCur (modCur s f) g = modCur s (fun c => g (f c)) := by
  simp [modCur]
@[simp] theorem modCur_setCur (s : State) (c : Core) (f : Core → Core) : modCur (setCur s c) f = setCur s (f c) := by
  simp [modCur]

end Sys2Proof.Machine
end

