-- ==== Sys2Proof/Laws/Issue.lean ====
section
/-! SUPPORT. Laws of the issue of one instruction: when it commits, and what the commit of an instruction comes to that only changes
registers. -/
namespace Sys2Proof.Machine

/-- An instruction that passes every step of R130 commits. -/
theorem issue1_of_issues {s : State} {o : SlotOp} (h : Issues s o) : issue1 o s = .next (commit s [o]) := by
  obtain ⟨h1, h2, h3, h4, h5, h6⟩ := h
  have hb : ([o].filter (fun o => !masked (cur s) o.slot && !o.legal s)) = [] := by
    rcases Bool.eq_false_or_eq_true (masked (cur s) o.slot) with hm | hm <;> simp_all
  unfold issue1 issue
  simp only [hb, List.any_cons, List.any_nil, Bool.or_false, h1, h3, h4, Bool.false_eq_true, if_false, ne_eq, not_true_eq_false]
  by_cases ho : o.on (cur s) = true
  · obtain ⟨a1, a2, ap, a3, a4⟩ := h5 ho
    have hq : ¬ (cur s).probed < o.probe s := by omega
    have hp : preadOf s [o] = none := by simp [preadOf, ho, a2]
    have hi : issuedOf s [o] = o.issued s := by simp [issuedOf, ho]
    have hf : firstFault s (issuedOf s [o]) [o] (fld (cur s).joincnt 0 16) = none := by
      simp only [firstFault, ho, if_true, hi, a3]
      split
      · rename_i hj; have := a4 hj.2; omega
      · rfl
    have hc : ¬ (costOf s [o] ≠ none ∧ (cur s).al ≤ (cur s).debt) := by
      rcases h6 with h6 | h6
      · simp [costOf, h6]
      · omega
    simp [ho, a1, hp, hq, hf, hc]
  · have ho' : o.on (cur s) = false := by simpa using ho
    have hp : preadOf s [o] = none := by simp [preadOf, ho']
    have hf : firstFault s (issuedOf s [o]) [o] (fld (cur s).joincnt 0 16) = none := by simp [firstFault, ho']
    have hc : ¬ (costOf s [o] ≠ none ∧ (cur s).al ≤ (cur s).debt) := by
      rcases h6 with h6 | h6
      · simp [costOf, h6]
      · omega
    simp [ho', hp, hf, hc]

/-- Nothing settles where the bundle has begun no wait. -/
theorem settleWaits_same (p : Core) (ds : List Nat) (q : Bool) (c : Core) (hw : c.wait = p.wait) (hm : c.mwait = p.mwait) :
    settleWaits p ds q c = c := by
  have h0 : stageOver q c 0 = false := by simp [stageOver]
  have h1 : (if p.mwait = .none then p.mwait else .none) = Wait.none := by split <;> simp_all
  unfold settleWaits
  simp only [hw, hm, h1, waitPd, h0]
  by_cases h : p.wait = .none
  · cases c; simp_all [dropPd]
  · cases c; simp_all

theorem settle_same {p s : State} (ops : List SlotOp) (ctl : Ctl) (hw : (cur s).wait = (cur p).wait) (hm : (cur s).mwait = (cur p).mwait) :
    settle p ops ctl s = setCur s (cur s) := by
  unfold settle modCur
  rw [settleWaits_same _ _ _ _ hw hm]

/-- The commit of an instruction whose effect is `f` on the current core, with no request, charge or transfer. -/
theorem commit_plain {s : State} {o : SlotOp} {f : Core → Core} (hon : o.on (cur s) = true) (he : o.eff s s = modCur s f)
    (hu : ∀ t, o.effu s t = (t, [])) (hl : ∀ t, o.late s t = t) (hc : o.ctl s = .seq) (hk : o.commits s = false)
    (ha : o.cost s = none) (hi : o.issued s = 0)
    (hw : (f (cur s)).wait = (cur s).wait ∧ (f (cur s)).mwait = (cur s).mwait) :
    commit s [o] = retired1 s o.slot (o.occ s) f := by
  have e1 : effects s [o] s = modCur s f := by simp [effects, effectsGo, hon, he, hu, putScales]
  have e2 : lates s [o] (modCur s f) = modCur s f := by simp [lates, hl]
  have e3 : bundleOrder s [o] (modCur s f) = modCur s f := by simp [bundleOrder]
  have e4 : ctlOf s [o] = .seq := by simp [ctlOf, hon, hc]
  have e5 : issuedOf s [o] = 0 := by simp [issuedOf, hon, hi]
  have e6 : costOf s [o] = none := by simp [costOf, ha]
  have e7 : settle s [o] .seq (modCur s f) = modCur s f := by
    rw [settle_same [o] .seq (by simp [hw]) (by simp [hw])]
    simp [modCur]
  simp [commit, e1, e2, e3, e4, e5, e6, e7, hon, hk, control, afterCommit, retired1, occupy, leave]

/-- The commit of an instruction that has no effect beyond those of every issue. -/
theorem commit_none {s : State} {o : SlotOp} (hon : o.on (cur s) = true) (he : o.eff s s = s)
    (hu : ∀ t, o.effu s t = (t, [])) (hl : ∀ t, o.late s t = t) (hc : o.ctl s = .seq) (hk : o.commits s = false)
    (ha : o.cost s = none) (hi : o.issued s = 0) :
    commit s [o] = retired1 s o.slot (o.occ s) id := by
  have e1 : effects s [o] s = s := by simp [effects, effectsGo, hon, he, hu, putScales]
  have e2 : lates s [o] s = s := by simp [lates, hl]
  have e3 : bundleOrder s [o] s = s := by simp [bundleOrder]
  have e4 : ctlOf s [o] = .seq := by simp [ctlOf, hon, hc]
  have e5 : issuedOf s [o] = 0 := by simp [issuedOf, hon, hi]
  have e6 : costOf s [o] = none := by simp [costOf, ha]
  have e7 := settle_same [o] .seq (p := s) (s := s) rfl rfl
  simp [commit, e1, e2, e3, e4, e5, e6, e7, hon, hk, control, afterCommit, retired1, occupy, leave, modCur]

/-- The commit of an instruction whose guard is off or whose slot is masked. -/
theorem commit_off {s : State} {o : SlotOp} (hon : o.on (cur s) = false) (ha : o.cost s = none) :
    commit s [o] = retired1 s o.slot (o.occ s) id := by
  have e1 : effects s [o] s = s := by simp [effects, effectsGo, hon, putScales]
  have e2 : lates s [o] s = s := by simp [lates, hon]
  have e3 : bundleOrder s [o] s = s := by simp [bundleOrder]
  have e4 : ctlOf s [o] = .seq := by simp [ctlOf, hon]
  have e5 : issuedOf s [o] = 0 := by simp [issuedOf, hon]
  have e6 : costOf s [o] = none := by simp [costOf, ha]
  have e7 := settle_same [o] .seq (p := s) (s := s) rfl rfl
  simp [commit, e1, e2, e3, e4, e5, e6, e7, hon, control, afterCommit, retired1, occupy, leave, modCur]

end Sys2Proof.Machine
end

