-- ==== Sys2Proof/Laws/Control.lean ====
section
/-! SUPPORT. Laws of the PC and the hardware loops: a boundary step, a back edge and a transfer touch the PC, the loop registers, the
predicates and the pre-emption state alone; without an active loop the PC rises by 32. -/
namespace Sys2Proof.Machine

/-- The fields that loops and transfers touch, put back to those of `c`. -/
def loopless (c c' : Core) : Core := { c' with pc := c.pc, p := c.p, lpc := c.lpc, pre := c.pre }

theorem loopless_trans {a b c : Core} (h1 : loopless a b = a) (h2 : loopless b c = b) : loopless a c = a := by
  have : loopless a c = loopless a (loopless b c) := rfl
  rw [this, h2, h1]

theorem boundary_loopless (c : Core) (k : Nat) : loopless c (boundary c k).1 = c := by
  unfold boundary
  dsimp only
  split_ifs <;> rfl

theorem drainEnd_loopless (c : Core) : loopless c (drainEnd c) = c := by
  unfold drainEnd
  split <;> rfl

theorem levelEnd_loopless (c : Core) (k : Nat) : loopless c (levelEnd c k) = c := by
  unfold levelEnd
  split
  · exact drainEnd_loopless c
  · rfl

theorem backEdge_loopless (l : List Nat) : ∀ (c : Core) (pc : Nat), loopless c (backEdge c pc l) = c := by
  induction l with
  | nil => intro c pc; rfl
  | cons k t ih =>
    intro c pc
    have hb := boundary_loopless c k
    have hd := loopless_trans hb (drainEnd_loopless (boundary c k).1)
    have pcs : ∀ {c d : Core} (w : Word), loopless c d = c → loopless c { d with pc := w } = c := fun _ h => h
    simp only [backEdge]
    by_cases h1 : lpActive c k = true
    · by_cases h2 : pc = lpStart c k + 32 * (lpLen c k - 1)
      · by_cases h3 : (boundary c k).2 = true
        · by_cases h4 : drainedOpen (boundary c k).1 k = true
          · simp only [h1, h2, h3, h4, if_true]
            exact pcs _ hd
          · simp only [h1, h2, h3, h4, if_true, Bool.false_eq_true, if_false]
            exact loopless_trans (loopless_trans hb (levelEnd_loopless (boundary c k).1 k)) (ih _ _)
        · simp only [h1, h2, h3, if_true, Bool.false_eq_true, if_false]
          exact pcs _ hb
      · simp only [h1, h2, if_true, if_false]
        rfl
    · simp only [h1, Bool.false_eq_true, if_false]
      exact ih _ _

theorem seqPc_loopless (c : Core) : loopless c (seqPc c) = c := by
  unfold seqPc
  split
  · rfl
  · exact backEdge_loopless _ c _

theorem endLoops_loopless (l : List Nat) : ∀ (c : Core) (t : Nat), loopless c (endLoops c t l) = c := by
  induction l with
  | nil => intro c t; rfl
  | cons k t ih =>
    intro c tg
    have hg : ∀ w : Tab Word, loopless c { c with lpc := w } = c := fun _ => rfl
    simp only [endLoops]
    by_cases h1 : lpActive c k = true
    · by_cases h2 : inBody c k tg = true
      · simp only [h1, h2, if_true]
        rfl
      · by_cases h3 : bit (tget 0 c.lpc k) 43 = true
        · simp only [h1, h2, h3, if_true, Bool.false_eq_true, if_false]
          exact loopless_trans (loopless_trans (hg _) (drainEnd_loopless _)) (ih _ _)
        · simp only [h1, h2, h3, if_true, Bool.false_eq_true, if_false]
          exact loopless_trans (hg _) (ih _ _)
    · simp only [h1, Bool.false_eq_true, if_false]
      exact ih _ _

/-- Only what a back edge touches decides which stage predicates it writes. -/
theorem stepStages_wait (l : List Nat) : ∀ (c : Core) (w : Wait) (pc : Nat), stepStages { c with wait := w } pc l = stepStages c pc l := by
  have hb : ∀ (c : Core) (w : Wait) k, boundary { c with wait := w } k = ({ (boundary c k).1 with wait := w }, (boundary c k).2) := by
    intro c w k
    unfold boundary
    dsimp only
    split_ifs <;> rfl
  have hl : ∀ (c : Core) (w : Wait) k, levelEnd { c with wait := w } k = { levelEnd c k with wait := w } := by
    intro c w k
    unfold levelEnd drainEnd
    dsimp only
    split_ifs <;> rfl
  induction l with
  | nil => intro c w pc; rfl
  | cons k t ih =>
    intro c w pc
    have h0 : stepStages { c with wait := w } pc t = stepStages c pc t := ih c w pc
    have h1 : stepStages (levelEnd (boundary { c with wait := w } k).1 k) pc t = stepStages (levelEnd (boundary c k).1 k) pc t := by
      rw [hb c w k, hl (boundary c k).1 w k]
      exact ih _ w pc
    have h2 : (boundary { c with wait := w } k).2 = (boundary c k).2 := by rw [hb c w k]
    have h3 : drainedOpen (boundary { c with wait := w } k).1 k = drainedOpen (boundary c k).1 k := by
      rw [hb c w k]
      rfl
    unfold stepStages
    dsimp only
    rw [h0, h1, h2, h3]
    rfl

theorem backEdge_noLoop (c : Core) (h : NoLoop c) (pc : Nat) :
    backEdge c pc [3, 2, 1, 0] = { c with pc := BitVec.ofNat 64 (pc + 32) } := by
  simp [backEdge, h 0, h 1, h 2, h 3]

/-- Without an active loop, or inside an emulation handler, the PC rises by 32 and nothing else changes (R151, R356). -/
theorem seqPc_noLoop (c : Core) (h : NoLoop c ∨ c.emuAct = true) : seqPc c = { c with pc := c.pc + 32 } := by
  unfold seqPc
  split
  · rfl
  · rename_i he
    rw [backEdge_noLoop c (h.resolve_right he)]
    congr 1

/-- The core after the issue of a bundle, with the fields that every issue moves put back. -/
theorem steady_retired (slot occ : Nat) (c : Core) (f : Core → Core) :
    { steady c (tick (seqPc (leave slot occ (f c)))) with joincnt := c.joincnt, lps := c.lps } =
      { steady c (f c) with joincnt := c.joincnt, lps := c.lps } := by
  have h := seqPc_loopless (leave slot occ (f c))
  have : ∀ (a b : Core), loopless a b = a →
      { steady c (tick b) with joincnt := c.joincnt, lps := c.lps } = { steady c a with joincnt := c.joincnt, lps := c.lps } := by
    intro a b hab
    rw [← hab]
    rfl
  rw [this _ _ h]
  rfl

end Sys2Proof.Machine
end

