-- ==== Sys2Proof/Laws/Memory.lean ====
section
/-! SUPPORT. Laws of memory: the canonical form is kept by every memory operation; a store leaves the bytes outside it alone; a read finds
what was stored. -/
namespace Sys2Proof.Machine

/-! ## The canonical form -/

theorem wf_tset {m : List Host.Cell} (h : Memory.wf m = true) (a : Nat) (b : Byte) : Memory.wf (tset (0 : Byte) m a b) = true :=
  twf_tset h a b

theorem wf_wrMem (n : Nat) : ∀ {m : List Host.Cell}, Memory.wf m = true → ∀ a v, Memory.wf (wrMem m a n v) = true := by
  induction n with
  | zero => intro m h a v; exact h
  | succ n ih => intro m h a v; exact ih (wf_tset h a _) (a + 1) (v / 256)

theorem wf_wrList (l : List (Nat × Byte)) : ∀ {m : List Host.Cell}, Memory.wf m = true → ∀ a, Memory.wf (wrList m a l) = true := by
  induction l with
  | nil => intro m h a; exact h
  | cons e t ih => intro m h a; exact ih (wf_tset h (a + e.1) e.2) a

theorem wf_filter {m : List Host.Cell} (h : Memory.wf m = true) (p : Host.Cell → Bool) : Memory.wf (m.filter p) = true :=
  twf_filter h p

theorem wf_foldl {β : Type} (f : List Host.Cell → β → List Host.Cell) (hf : ∀ m e, Memory.wf m = true → Memory.wf (f m e) = true)
    (l : List β) : ∀ {m : List Host.Cell}, Memory.wf m = true → Memory.wf (l.foldl f m) = true := by
  induction l with
  | nil => intro m h; exact h
  | cons e t ih => intro m h; exact ih (hf m e h)

theorem wf_copyMem {m : List Host.Cell} (h : Memory.wf m = true) (src dst n : Nat) : Memory.wf (copyMem m src dst n) = true :=
  wf_foldl _ (fun _ _ hm => wf_tset hm _ _) _ (wf_filter h _)

theorem wf_wr {s : State} (h : Memory.wf s.mem = true) (a n v : Nat) : Memory.wf (wr s a n v).mem = true := wf_wrMem n h a v
theorem wf_wrB {s : State} (h : Memory.wf s.mem = true) (a : Nat) (b : Byte) : Memory.wf (wrB s a b).mem = true := wf_tset h a b

theorem wf_wrWords (l : List Word) : ∀ {s : State}, Memory.wf s.mem = true → ∀ a, Memory.wf (wrWords s a l).mem = true := by
  induction l with
  | nil => intro s h a; exact h
  | cons w t ih => intro s h a; exact ih (wf_wr h a 8 w.toNat) (a + 8)

theorem wf_wrRec {s : State} (h : Memory.wf s.mem = true) (a : Nat) (r : Rec) : Memory.wf (wrRec s a r).mem = true :=
  wf_wrWords _ h a

/-- The memory of the machine after reset has the form. -/
theorem wf_reset : Memory.wf State.reset.mem = true := by decide

/-- Canonical memories that read alike at every location are equal. -/
theorem wf_ext {m n : List Host.Cell} (hm : Memory.wf m = true) (hn : Memory.wf n = true)
    (h : ∀ a, tget (0 : Byte) m a = tget (0 : Byte) n a) : m = n := twf_ext hm hn h

/-! ## Reads after stores -/

/-- A store of n bytes leaves every byte outside them alone. -/
theorem tget_wrMem_out (n : Nat) : ∀ (m : List Host.Cell) (a v b : Nat), (b < a ∨ a + n ≤ b) →
    tget (0 : Byte) (wrMem m a n v) b = tget (0 : Byte) m b := by
  induction n with
  | zero => intros; rfl
  | succ n ih =>
    intro m a v b h
    simp only [wrMem]
    rw [ih _ _ _ _ (by omega), tget_tset_ne _ _ (by omega)]

theorem rdB_wr_out (s : State) {a n v b : Nat} (h : b < a ∨ a + n ≤ b) : rdB (wr s a n v) b = rdB s b :=
  tget_wrMem_out n s.mem a v b h

/-- Byte i of a store of n bytes. -/
theorem tget_wrMem_in (n : Nat) : ∀ (m : List Host.Cell) (a v i : Nat), i < n →
    tget (0 : Byte) (wrMem m a n v) (a + i) = BitVec.ofNat 8 (v / 256 ^ i) := by
  induction n with
  | zero => intro m a v i h; omega
  | succ n ih =>
    intro m a v i h
    simp only [wrMem]
    cases i with
    | zero => rw [tget_wrMem_out _ _ _ _ _ (by omega)]; simp
    | succ i =>
      rw [show a + (i + 1) = a + 1 + i by omega, ih _ _ _ _ (by omega), Nat.div_div_eq_div_mul, Nat.pow_succ']

theorem rdB_wr_in (s : State) {a n v i : Nat} (h : i < n) : rdB (wr s a n v) (a + i) = BitVec.ofNat 8 (v / 256 ^ i) :=
  tget_wrMem_in n s.mem a v i h

/-- Reads that agree byte for byte agree. -/
theorem rdMem_congr (n : Nat) : ∀ (m l : List Host.Cell) (a : Nat), (∀ i < n, tget (0 : Byte) m (a + i) = tget (0 : Byte) l (a + i)) →
    rdMem m a n = rdMem l a n := by
  induction n with
  | zero => intros; rfl
  | succ n ih =>
    intro m l a h
    simp only [rdMem]
    rw [show tget (0 : Byte) m a = tget (0 : Byte) l a from h 0 (by omega),
      ih m l (a + 1) fun i hi => by simpa [Nat.add_assoc, Nat.add_comm 1 i] using h (i + 1) (by omega)]

/-- A read of other bytes does not see a store. -/
theorem rd_wr_out (s : State) {a n v b k : Nat} (h : b + k ≤ a ∨ a + n ≤ b) : rd (wr s a n v) b k = rd s b k :=
  rdMem_congr k _ _ b fun i hi => tget_wrMem_out n s.mem a v (b + i) (by omega)

/-- A read of the n bytes just stored gives the n low bytes of the value. -/
theorem rdMem_wrMem (n : Nat) : ∀ (m : List Host.Cell) (a v : Nat), rdMem (wrMem m a n v) a n = v % 256 ^ n := by
  induction n with
  | zero => intro m a v; simp [rdMem, Nat.mod_one]
  | succ n ih =>
    intro m a v
    have h0 : tget (0 : Byte) (wrMem m a (n + 1) v) a = BitVec.ofNat 8 v := by
      simpa using tget_wrMem_in (n + 1) m a v 0 (by omega)
    have hr : rdMem (wrMem m a (n + 1) v) (a + 1) n = v / 256 % 256 ^ n := by simpa [wrMem] using ih _ (a + 1) (v / 256)
    have e : v % 256 ^ (n + 1) = v % 256 + 256 * (v / 256 % 256 ^ n) := by rw [Nat.pow_succ', Nat.mod_mul]
    rw [rdMem, h0, hr, e]
    simp

theorem rd_wr_self (s : State) (a n v : Nat) : rd (wr s a n v) a n = v % 256 ^ n := rdMem_wrMem n s.mem a v

theorem rdMem_lt (n : Nat) : ∀ (m : List Host.Cell) (a : Nat), rdMem m a n < 256 ^ n := by
  induction n with
  | zero => intros; simp [rdMem]
  | succ n ih =>
    intro m a
    have h1 := (tget (0 : Byte) m a).isLt
    have h2 := ih m (a + 1)
    rw [rdMem, Nat.pow_succ]
    omega

theorem tget_wrList_out (l : List (Nat × Byte)) : ∀ (m : List Host.Cell) (a b : Nat), (∀ e ∈ l, b ≠ a + e.1) →
    tget (0 : Byte) (wrList m a l) b = tget (0 : Byte) m b := by
  induction l with
  | nil => intros; rfl
  | cons e t ih =>
    intro m a b h
    simp only [wrList]
    rw [ih _ _ _ fun f hf => h f (by simp [hf]), tget_tset_ne _ _ (h e (by simp))]

end Sys2Proof.Machine
end

