-- ==== Sys2Proof/Laws/Scalar.lean ====
section
/-! SUPPORT. Laws of instructions that write one scalar register or one predicate: what they come to in an open slot, and in any state. -/
namespace Sys2Proof.Machine

theorem retired1_same {s : State} {slot occ : Nat} {f f' : Core → Core} (h : f (cur s) = f' (cur s)) :
    retired1 s slot occ f = retired1 s slot occ f' := by
  simp only [retired1, modCur, h]

/-- A slot operation that asks for nothing, checks nothing and changes the core by `f` commits in an open slot. -/
theorem open_commits {s : State} {o : SlotOp} {f : Core → Core} (h : Open s o.slot o.guard) (hl : o.legal s = true)
    (hr : o.reqs s = (0, 0)) (hp : o.pread s = none) (hpr : o.probe s = 0) (hadm : o.admits s = true) (hch : ∀ n, o.check s n = none)
    (he : o.eff s s = modCur s f ∨ (o.eff s s = s ∧ f (cur s) = cur s)) (hu : ∀ t, o.effu s t = (t, [])) (hlate : ∀ t, o.late s t = t) (hc : o.ctl s = .seq)
    (hk : o.commits s = false) (ha : o.cost s = none) (hi : o.issued s = 0)
    (hw : (f (cur s)).wait = (cur s).wait ∧ (f (cur s)).mwait = (cur s).mwait) :
    issue1 o s = .next (retired1 s o.slot (o.occ s) f) := by
  obtain ⟨h1, h2, h3, h4⟩ := h
  have hon : o.on (cur s) = true := by simp [SlotOp.on, h3, h4]
  have hi' : Issues s o := by
    refine ⟨h1, by simp [hl], ?_, ?_, fun _ => ⟨hadm, hp, by omega, hch _, fun h => by omega⟩, Or.inl ha⟩
    · simp [resBusy, h2]
    · simp [roomOk, reqSum, hon, hr]
  rw [issue1_of_issues hi']
  rcases he with he | ⟨he, hid⟩
  · rw [commit_plain hon he hu hlate hc hk ha hi hw]
  · rw [commit_none hon he hu hlate hc hk ha hi, retired1_same (f' := f) hid.symm]

/-- A scalar result leaves the waits. -/
theorem scalarPut_waits (b d : Nat) (v : Word) (c : Core) :
    (scalarPut b d v c).wait = c.wait ∧ (scalarPut b d v c).mwait = c.mwait := by
  unfold scalarPut putAt putNow takeOver
  repeat' split
  all_goals exact ⟨rfl, rfl⟩

/-- A scalar instruction in an open slot. -/
theorem opS_open {s : State} {slot b d : Nat} {g : BitVec 4} {v : State → Word} (h : Open s slot g) :
    issue1 (opS slot g b d v) s = .next (retired1 s slot 1 (scalarPut b d (v s))) := by
  refine open_commits (o := opS slot g b d v) h rfl rfl rfl rfl rfl (fun _ => rfl) ?_ (fun _ => rfl) (fun _ => rfl) rfl rfl rfl rfl (scalarPut_waits b d _ _)
  by_cases hd : d = 0
  · exact Or.inr ⟨if_pos hd, if_pos hd⟩
  · refine Or.inl (Eq.trans (b := modCur s (putAt · b (.x d (v s)))) (if_neg hd) ?_)
    exact congrArg (modCur s) (funext fun c => (if_neg hd).symm)

/-- A predicate instruction in an open slot. -/
theorem opP_open {s : State} {slot d : Nat} {g : BitVec 4} {v : State → Bool} (h : Open s slot g) :
    issue1 (opP slot g d v) s =
      .next (retired1 s slot 1 (fun c => if d = 0 then c else { c with p := setFld c.p d 1 (b2n (v s)) })) := by
  refine open_commits (o := opP slot g d v) h rfl rfl rfl rfl rfl (fun _ => rfl) ?_ (fun _ => rfl) (fun _ => rfl) rfl rfl rfl rfl (by split <;> exact ⟨rfl, rfl⟩)
  by_cases hd : d = 0
  · exact Or.inr ⟨if_pos hd, if_pos hd⟩
  · refine Or.inl (Eq.trans (b := modCur s (fun c => { c with p := setFld c.p d 1 (b2n (v s)) })) (if_neg hd) ?_)
    simp only [hd, if_false]

end Sys2Proof.Machine
end

