-- ==== Sys2Proof/Machine/Jco.lean ====
section
/-! DEFINITION. Jekai code objects: the file, its checks, the choice of an image and the relocations that a loader makes before PLACE
(R319 to R322). The loader is software; the machine's part begins with PLACE (R349). -/
namespace Sys2Proof.Machine

/-- Why a load fails (R322): no image, a bad file, or a size of the text that the placement refuses (R349). -/
inductive JcoFail where
  | noimage | jcobad | cmdbad
  deriving DecidableEq, Repr

/-- A section table entry (R320, Table 6). -/
structure JcoSec where
  kind : Nat
  image : Nat
  reserved : Nat
  offset : Nat
  size : Nat
  align : Nat
  deriving DecidableEq, Repr

/-- An image table entry (R320). -/
structure JcoImg where
  rev : Nat
  svi : Bool
  reserved : Nat
  cmask : BitVec 64
  deriving DecidableEq, Repr

/-- A relocation (R321): the section to patch, the section whose load address is added, the field's offset. -/
structure JcoRel where
  patch : Nat
  target : Nat
  reserved : Nat
  offset : Nat
  deriving DecidableEq, Repr

/-- The section table of a file. -/
def jcoSecs (f : List Byte) : List JcoSec :=
  (List.range (imgNum f 6 2)).map (fun i =>
    let o := imgNum f 8 4 + 32 * i
    ⟨imgNum f o 1, imgNum f (o + 1) 1, imgNum f (o + 2) 6, imgNum f (o + 8) 8, imgNum f (o + 16) 8, imgNum f (o + 24) 8⟩)

/-- The image table of a file. -/
def jcoImgs (f : List Byte) : List JcoImg :=
  (List.range (imgNum f 12 2)).map (fun i =>
    let o := imgNum f 16 4 + 16 * i
    ⟨imgNum f o 2, imgNum f (o + 2) 1 % 2 = 1, imgNum f (o + 2) 6 / 2, BitVec.ofNat 64 (imgNum f (o + 8) 8)⟩)

/-- The relocations of a file, from its sections of KIND 10. -/
def jcoRels (f : List Byte) : List JcoRel :=
  (((jcoSecs f).filter (fun e => e.kind = 10)).map (fun e => (List.range (e.size / 16)).map (fun i =>
    let o := e.offset + 16 * i
    (⟨imgNum f o 2, imgNum f (o + 2) 2, imgNum f (o + 4) 4, imgNum f (o + 8) 8⟩ : JcoRel)))).flatten

/-- The task table entries of a file whose reserved bits are not zero (R320). -/
def jcoTaskBad (f : List Byte) : Bool :=
  ((jcoSecs f).filter (fun e => e.kind = 8)).any (fun e => (List.range (e.size / 16)).any (fun i =>
    decide (imgNum f (e.offset + 16 * i + 4) 4 / 16 ≠ 0) || decide (imgNum f (e.offset + 16 * i + 8) 8 ≠ 0)))

/-- The entries of the task table (R320): string offset of the name, QID, PRIO. -/
structure JcoTask where
  name : Nat
  qid : Nat
  prio : Nat
  deriving DecidableEq, Repr

/-- NTASK of the header (R319), and the task table. -/
def jcoNTask (f : List Byte) : Nat := imgNum f 14 2
def jcoTasks (f : List Byte) : List JcoTask :=
  match (jcoSecs f).find? (fun e => e.kind = 8) with
  | none => []
  | some e => (List.range (jcoNTask f)).map (fun i =>
      let o := e.offset + 16 * i
      ⟨imgNum f o 4, imgNum f (o + 4) 1 % 4, imgNum f (o + 4) 1 / 4 % 4⟩)

/-- The octets of a name, from its offset in the strings. PRESUMED (log entry 59): a zero octet ends it. -/
def jcoName (f : List Byte) (t : JcoTask) : List Byte :=
  match (jcoSecs f).find? (fun e => e.kind = 11) with
  | none => []
  | some e => ((f.drop (e.offset + t.name)).take (e.size - t.name)).takeWhile (· ≠ 0)

/-- The entry vector of an image: the text offset of each task's entry point, in task-table order (R320). -/
def jcoEntries (f : List Byte) (img : Nat) : List Nat :=
  match (jcoSecs f).find? (fun e => decide (e.kind = 9) && decide (e.image = img)) with
  | none => []
  | some e => (List.range (jcoNTask f)).map (fun i => imgNum f (e.offset + 8 * i) 8)

/-- The record fields that the tables give task t of an image whose text stands at an arena offset: PC, PRIO and QID of W0 (R25, R320). In
translated SVI text an instruction takes 32 bytes (log entry 9). -/
def jcoRecord (f : List Byte) (img text t : Nat) : Word :=
  let e := (jcoEntries f img).getD t 0
  let k := (jcoTasks f).getD t ⟨0, 0, 0⟩
  let at_ := if (jcoImgs f)[img]?.any (·.svi) then text + 8 * e else text + e
  BitVec.ofNat 64 (at_ % 2 ^ 40 + k.prio * 2 ^ 48 + k.qid * 2 ^ 50)

/-- A reserved field of the header or a table is not zero. -/
def jcoReserved (f : List Byte) : Bool :=
  decide (imgNum f 20 44 ≠ 0) ||
    (jcoSecs f).any (fun e => decide (e.reserved ≠ 0) || decide (e.kind = 0) || decide (12 ≤ e.kind) ||
      (decide (e.image ≠ 0) && !(decide (e.kind = 1) || decide (e.kind = 2) || decide (e.kind = 9)))) ||
    (jcoImgs f).any (fun e => decide (e.reserved ≠ 0) || (e.svi && (decide (e.rev ≠ 0) || decide (e.cmask ≠ 0)))) ||
    (jcoRels f).any (fun e => decide (e.reserved ≠ 0)) || jcoTaskBad f

/-- An image without its text or its entry vector. -/
def jcoLacks (f : List Byte) : Bool :=
  (jcoImgs f).zipIdx.any (fun e =>
    let has := fun (k : Nat) => (jcoSecs f).any (fun x => decide (x.kind = k) && decide (x.image = e.2))
    !has (if e.1.svi then 2 else 1) || !has 9)

/-- The cases of JCOBAD (R322). -/
def jcoBad (f : List Byte) : Bool :=
  let imgs := jcoImgs f
  decide (imgNum f 0 4 ≠ 0x314F434A) || decide (imgNum f 4 2 ≠ 1) || jcoReserved f ||
    (jcoSecs f).any (fun e => decide (f.length < e.offset + e.size)) ||
    !decide ((imgs.filter (fun e => !e.svi)).map (·.rev)).Nodup || decide (1 < imgs.countP (·.svi)) || jcoLacks f ||
    (jcoRels f).any (fun e => decide ((jcoSecs f).length ≤ e.patch) || decide ((jcoSecs f).length ≤ e.target))

/-- The image whose revision is the highest of a list. -/
def jcoHighest (l : List (JcoImg × Nat)) : Option (JcoImg × Nat) :=
  l.foldl (fun b e => match b with
    | none => some e
    | some x => if x.1.rev < e.1.rev then some e else some x) none

/-- The image that a loader takes on revision v: the one of that revision, else the highest below it that names v in CMASK, else the
SVI image (R322). -/
def jcoSelect (f : List Byte) (v : Nat) : Except JcoFail Nat :=
  if jcoBad f then .error .jcobad
  else
    let imgs := (jcoImgs f).zipIdx
    match imgs.find? (fun e => !e.1.svi && decide (e.1.rev = v)) with
    | some e => .ok e.2
    | none =>
      match jcoHighest (imgs.filter (fun e => !e.1.svi && decide (e.1.rev < v) && decide (v - e.1.rev ≤ 64) &&
          e.1.cmask.getLsbD (v - e.1.rev - 1))) with
      | some e => .ok e.2
      | none => match imgs.find? (fun e => e.1.svi) with
        | some e => .ok e.2
        | none => .error .noimage

/-- The contents of a section. -/
def jcoBytes (f : List Byte) (e : JcoSec) : List Byte := (f.drop e.offset).take e.size

/-- A load address added to the 8-byte field at an offset, modulo 2^64 (R321). -/
def jcoPatch (l : List Byte) (o a : Nat) : List Byte :=
  l.take o ++ ((bytesOf 0 8 ((imgNum l o 8 + a) % 2 ^ 64)).map (·.2)) ++ l.drop (o + 8)

/-- A load address meets the section's alignment (R320). -/
def JcoSec.alignOk (e : JcoSec) (a : Nat) : Bool := decide (a % Nat.max 1 e.align = 0)

/-- Load addresses from `base` up, each section behind the one before it at its alignment (R320). -/
def jcoLayout : List JcoSec → Nat → List Nat
  | [], _ => []
  | e :: t, base =>
    let al := Nat.max 1 e.align
    let a := (base + al - 1) / al * al
    a :: jcoLayout t (a + e.size)

/-- The sections as they are loaded, `at_` being the load address of each; relocations apply to kinds 3 to 7 only (R321). -/
def jcoLoad (f : List Byte) (at_ : Nat → Nat) : List (List Byte) :=
  (jcoRels f).foldl (fun l r =>
    match (jcoSecs f)[r.patch]? with
    | some e => if 3 ≤ e.kind ∧ e.kind ≤ 7 then l.set r.patch (jcoPatch (l.getD r.patch []) r.offset (at_ r.target)) else l
    | none => l) ((jcoSecs f).map (jcoBytes f))

/-- The text section of an image: native or SVI (R322). -/
def jcoText (f : List Byte) (img : Nat) : Option JcoSec :=
  (jcoSecs f).find? (fun e => decide (e.image = img) && decide (e.kind = if (jcoImgs f)[img]?.any (·.svi) then 2 else 1))

/-- The loader's placement of the selected image in context cx (R322): native text as it stands, or what the translator has made of the SVI text
that the loader keeps at physical address `at_`. It is the effect of the PLACE command. -/
def jcoPlace (s : State) (cx v at_ : Nat) (f : List Byte) (translate : List Byte → List Byte) : Except (JcoFail ⊕ Nat × Nat) State :=
  match jcoSelect f v with
  | .error e => .error (.inl e)
  | .ok img =>
    match jcoText f img with
    | none => .error (.inl .jcobad)
    | some e =>
      let text := jcoBytes f e
      let obj := if e.kind = 2 then translate text else text
      if sizeBad obj.length then .error (.inl .cmdbad) else
      match placeObj s cx false (bit (ctxD s cx 10) 40) obj.length (some (leNum obj)) with
      | .error x => .error (.inr x)
      | .ok r => .ok (if e.kind = 2
          then addSvi r.1 cx { base := at_, size := text.length, off := r.2 } else r.1)

end Sys2Proof.Machine
end

