-- ==== Sys2Proof/Tests/Slice0.lean ====
section
/-! SUPPORT. Tests of the model: words read as the spec's encodings give them, ill-formed terms that the checks refuse, one step of the
instructions on small states with the results that the spec's rules give, and a state for every statement that meets its hypotheses. -/
namespace Sys2Proof.Machine

set_option Elab.async false

/-! ## Decoding: words written from the encodings of chapters 05 to 11, with distinct field values -/

/-- Every word reads as its instruction in the class, which is well formed and encodes back to it. -/
def readsAs (k : Cls) (l : List (Nat × Instr)) : Bool :=
  l.all (fun e => decide (decodeWord k (BitVec.ofNat 32 e.1) = some e.2) && wellFormed e.2 &&
    decide (encode e.2 = some (BitVec.ofNat 32 e.1)) && decide (clsOf e.2 = some k))

theorem test_decode_c1 : readsAs .c [
    (0x033BF87D, .br 0x13bf87 0xd),
    (0x059AF29D, .brp 0x33 1 0xf29 0xd),
    (0x06531C5D, .call 0x531c5 0xd),
    (0x0800000D, .ret 0xd),
    (0x0A07C00D, .jr 0x3e 0xd),
    (0x3205200D, .callX 0x29 0xd),
    (0x0C03161D, .loop 0x18 0x161 0xd),
    (0x0E120A9D, .loope 2 0x10 0xa9 0xd),
    (0x1000000D, .lpstage 0xd),
    (0x1207422D, .step 0x7422 0xd),
    (0x1400000D, .exit 0xd),
    (0x167B1B3D, .cont 0x7b1b3 0xd),
    (0x18B0B42D, .setlt 0xb 0xb42 0xd),
    (0x30A6600D, .setltX 0xa 0x33 0xd)] = true := by decide +kernel

theorem test_decode_c2 : readsAs .c [
    (0x1A374C9D, .evwait 3 0x3a 0x19 1 0xd),
    (0x1C07074D, .trap 0x7074 0xd),
    (0x1E028AFD, .sysc 0x28af 0xd),
    (0x2600298D, .bkpt 0x298 0xd),
    (0x2000000D, .emret 0xd),
    (0x2200002D, .icinv 2 0xd),
    (0x2461D68D, .publish 0xc 0xe 0x2d 0xd),
    (0x295C040D, .csrr 0x2b 0x808 0xd),
    (0x2B50198D, .csrw 0x2a 0x33 0xd),
    (0x2D000D0D, .csrs 0x20 0x1a 0xd),
    (0x2E20090D, .csrc 4 0x12 0xd),
    (0x3450048D, .csrwI 0xa 9 0xd),
    (0x3720278D, .csrsI 0x24 0x4f 0xd),
    (0x3858018D, .csrcI 0xb 3 0xd)] = true := by decide +kernel

theorem test_decode_s1 : readsAs .s [
    (0x02A7AF0D, .add 0x14 0x3d 0x1e 0xd),
    (0x05BBDE8D, .sub 0x37 0x1e 0x3d 0xd),
    (0x07DA482D, .addi 0x3b 0x12 0x82 0xd),
    (0x08FECA8D, .and 0x1f 0x36 0x15 0xd),
    (0x0A976C0D, .or 0x12 0x3b 0x18 0xd),
    (0x0C872D0D, .xor 0x10 0x39 0x1a 0xd),
    (0x0FDA542D, .andi 0x3b 0x12 0x142 0xd),
    (0x11CA080D, .ori 0x39 0x10 0x80 0xd),
    (0x13091D8D, .xori 0x21 8 0x1d8 0xd),
    (0x14EE8B8D, .sll 0x1d 0x34 0x17 0xd),
    (0x160D058D, .srl 1 0x28 0xb 0xd),
    (0x19EA9B8D, .sra 0x3d 0x14 0x37 0xd),
    (0x1A0D239D, .slli 1 0x29 0x39 0xd)] = true := by decide +kernel

theorem test_decode_s2 : readsAs .s [
    (0x1C0D038D, .srli 1 0x28 0x38 0xd),
    (0x1F39C1ED, .srai 0x27 0xe 0x1e 0xd),
    (0x21CA900D, .li 0x39 0x2900 0xd),
    (0x22E8724D, .lih 0x1d 0x724 0xd),
    (0x2568938D, .mul 0x2d 4 0x27 0xd),
    (0x260D058D, .mulh 1 0x28 0xb 0xd),
    (0x28F6EA0D, .mulhu 0x1e 0x37 0x14 0xd),
    (0x2ABFCE8D, .mulhsu 0x17 0x3e 0x1d 0xd),
    (0x2D9B5C8D, .div 0x33 0x1a 0x39 0xd),
    (0x2E0D250D, .divu 1 0x29 0xa 0xd),
    (0x3035E60D, .rem 6 0x2f 0xc 0xd),
    (0x3311740D, .remu 0x22 0xb 0x28 0xd),
    (0x34E6AB0D, .min 0x1c 0x35 0x16 0xd)] = true := by decide +kernel

theorem test_decode_s3 : readsAs .s [
    (0x36A7AF0D, .max 0x14 0x3d 0x1e 0xd),
    (0x3909158D, .minu 0x21 8 0x2b 0xd),
    (0x3A7CC28D, .maxu 0xf 0x26 5 0xd),
    (0x3CCE000D, .clz 0x19 0x30 0xd),
    (0x3FE2A00D, .ctz 0x3c 0x15 0xd),
    (0x407CC00D, .popc 0xf 0x26 0xd),
    (0x4287229D, .sext 0x10 0x39 0x29 0xd),
    (0x44A7A2DD, .zext 0x14 0x3d 0x2d 0xd),
    (0x4646AB5D, .cmp 4 0x35 0x16 5 0xd),
    (0x4857966D, .cmpi 5 0x3c 0x2c 6 0xd),
    (0x4A10210D, .pand 1 1 2 0xd),
    (0x4C10218D, .por 1 1 3 0xd),
    (0x4E70C28D, .pxor 7 6 5 0xd)] = true := by decide +kernel

theorem test_decode_s4 : readsAs .s [
    (0x5020608D, .pandn 2 3 1 0xd),
    (0x5350701D, .sel 0x2a 3 0x20 1 0xd),
    (0x54AF800D, .mov 0x15 0x3c 0xd),
    (0x54D0001D, .movFromPall 0x1a 0xd),
    (0x5404A02D, .movToPall 0x25 0xd),
    (0x5674E22D, .adds 0xe 0x27 4 2 0xd),
    (0x58FECABD, .subs 0x1f 0x36 0x15 3 0xd),
    (0x5ACE098D, .bfx 0x19 0x30 0x13 0xd),
    (0x5C8F0D8D, .bfxu 0x11 0x38 0x1b 0xd),
    (0x5EFECA8D, .bfi 0x1f 0x36 0x15 0xd)] = true := by decide +kernel

theorem test_decode_m1 : readsAs .m [
    (0x0350759D, .ldb 0x2a 3 0xa 0x19 0xd),
    (0x058B022D, .ldbu 0x31 0x18 1 2 0xd),
    (0x07DA568D, .ldh 0x3b 0x12 0xb 8 0xd),
    (0x09D2749D, .ldhu 0x3a 0x13 0xa 9 0xd),
    (0x0B31ED5D, .ldw 0x26 0xf 6 0x15 0xd),
    (0x0D93641D, .ldwu 0x32 0x1b 2 1 0xd),
    (0x0F298B6D, .ldd 0x25 0xc 5 0x16 0xd),
    (0x1149550D, .stb 0x29 0xa 0x150 0xd),
    (0x13C3681D, .sth 0x38 0x1b 0x81 0xd),
    (0x1528C9CD, .stw 0x25 6 0x9c 0xd),
    (0x1730A1FD, .std 0x26 5 0x1f 0xd),
    (0x18FECAFD, .ldx 0x1f 0x36 0x15 7 0xd),
    (0x1AEFEE2D, .stx 0x1d 0x3f 0x1c 1 0xd),
    (0x1D108E4D, .tld 8 8 0x11 0x32 0xd),
    (0x1E67512D, .tldt 3 3 0x2a 9 0xd)] = true := by decide +kernel

theorem test_decode_m2 : readsAs .m [
    (0x21E1EBCD, .tst 0xf 0x3d 0x1e 0xd),
    (0x2300C50D, .bld 8 1 0x22 1 0xd),
    (0x2565CE5D, .rld 0x2c 0x2e 3 1 5 0xd),
    (0x27084A6D, .rst 0x21 2 1 1 6 0xd),
    (0x2840CF1D, .amo 8 6 0xf 1 0xd),
    (0x2A40CF0D, .amoF 8 6 0xf 0xd),
    (0x2C40CF0D, .amoN 8 6 0xf 0xd),
    (0x2E00003D, .fence 3 0xd),
    (0x3000001D, .drain 1 0xd),
    (0x3200000D, .drainR 0xd),
    (0x3426684D, .bwait 2 0x33 0x10 4 0xd),
    (0x3603A00D, .qpush 0x1d 0xd),
    (0x394D600D, .tpost 0x29 0x2b 0xd),
    (0x3A05C00D, .tix 0x2e 0xd)] = true := by decide +kernel

theorem test_decode_v1 : readsAs .v [
    (0x0215640D, .vsetvl 2 0x2b 8 0xd),
    (0x03D0001D, .vsetvlRead 0x3a 0xd),
    (0x051162AD, .vsetvli 0x22 0xb 0x2a 0xd),
    (0x0678FADD, .vsetivli 0xf 0x1f 0x2d 0xd),
    (0x09067A6D, .vadd 0x10 0x19 0x3a 1 1 0xd),
    (0x0B36996D, .vsub 0x13 0x1a 0x19 1 1 0xd),
    (0x0DB4B16D, .vand 0x1b 0x12 0x31 1 1 0xd),
    (0x0FE5F46D, .vor 0x1e 0x17 0x34 1 1 0xd),
    (0x11477E6D, .vxor 0x14 0x1d 0x3e 1 1 0xd),
    (0x1394336D, .vsll 0x19 0x10 0x33 1 1 0xd),
    (0x14532F6D, .vsrl 5 0xc 0x2f 1 1 0xd),
    (0x1794136D, .vsra 0x19 0x10 0x13 1 1 0xd),
    (0x1890436D, .vmul 9 1 3 1 1 0xd),
    (0x1BB4B17D, .vmulh 0x1b 0x12 0x31 1 1 1 0xd)] = true := by decide +kernel

theorem test_decode_v2 : readsAs .v [
    (0x1D84726D, .vmin 0x18 0x11 0x32 1 1 0xd),
    (0x1F067A6D, .vmax 0x10 0x19 0x3a 1 1 0xd),
    (0x21B4916D, .vminu 0x1b 0x12 0x11 1 1 0xd),
    (0x23573F6D, .vmaxu 0x15 0x1c 0x3f 1 1 0xd),
    (0x25475E7D, .vsadd 0x14 0x1d 0x1e 1 1 1 0xd),
    (0x2777BD7D, .vssub 0x17 0x1e 0x3d 1 1 1 0xd),
    (0x28D10FCD, .vsmul 0xd 4 7 3 1 0xd),
    (0x2B94137D, .vwadd 0x19 0x10 0x13 1 1 1 0xd),
    (0x2C126A7D, .vwmul 1 9 0x2a 1 1 1 0xd),
    (0x2E436E7D, .vwmacc 4 0xd 0x2e 1 1 1 0xd),
    (0x31B491BD, .vnsra 0x1b 0x12 0x11 1 1 1 0xd),
    (0x327398FD, .vnclip 7 0xe 0xc 1 1 1 1 0xd),
    (0x35779DBD, .vshr 0x17 0x1e 0x1d 1 1 1 0xd),
    (0x378472BD, .vcmp 0x18 0x11 0x32 1 3 0xd)] = true := by decide +kernel

theorem test_decode_v3 : readsAs .v [
    (0x39E5D44D, .vmerge 0x1e 0x17 0x14 1 0xd),
    (0x3AE1C90D, .vmlog 0xe 7 4 4 0xd),
    (0x3C1217CD, .vredsum 1 8 0xb 1 1 1 0xd),
    (0x3FB4A2CD, .vredmax 0x1b 0x12 0x11 1 1 0xd),
    (0x4136B2CD, .vredmin 0x13 0x1a 0x19 1 1 0xd),
    (0x431637CD, .vscan 0x11 0x18 0x1b 1 1 1 0xd),
    (0x45C576CD, .vslideup 0x1c 0x15 0x36 1 1 0xd),
    (0x47161BCD, .vslidedn 0x11 0x18 0x1b 1 1 0xd),
    (0x48E1C84D, .vgath 0xe 7 4 1 0xd),
    (0x4A435C0D, .vcompress 4 0xd 0xe 0xd),
    (0x4C90330D, .vld 9 1 9 1 0xd),
    (0x4E82910D, .vlds 8 0x14 8 1 0xd),
    (0x51B251BD, .vldx 0x1b 0x12 0x11 1 3 0xd),
    (0x5396130D, .vldff 0x19 0x30 9 1 0xd)] = true := by decide +kernel

theorem test_decode_v4 : readsAs .v [
    (0x54EB001D, .vst 0xe 0x2c 1 0xd),
    (0x56A5001D, .vsts 0xa 0x14 1 0xd),
    (0x5996F01D, .vstx 0x19 0x1b 0x18 1 0xd),
    (0x5A437CED, .vexp 4 0xd 0x1f3 1 0xd),
    (0x5C12406D, .vrsqrt 1 9 1 1 0xd),
    (0x5E907A2D, .vrecip 9 1 0xe8 1 0xd),
    (0x6177BA4D, .vdiv 0x17 0x1e 0x1d 1 0xd),
    (0x63236E0D, .vmvxs 0x24 0xd 0x2e 0xd),
    (0x6484210D, .vmvsx 8 0x21 2 0xd),
    (0x6767F00D, .vsplat 0x16 0x3f 1 0xd),
    (0x6916003D, .vmov 0x11 0x18 3 0xd)] = true := by decide +kernel

theorem test_decode_x1 : readsAs .x [
    (0x039E100D, .aalloc 0x33 0x61 0xd),
    (0x0536A80D, .afree 0x4d 0x55 0xd),
    (0x07AA190D, .mma 0xd 0x14 0xc 1 0xd),
    (0x082C030D, .mmaz 1 0x18 1 1 0xd),
    (0x0B209D0D, .mmag 9 1 0xe 1 0xd),
    (0x0DFD68CD, .aout 0xf 0x75 0x14 1 1 0xd),
    (0x0EF1324D, .aoutq 7 0x44 0x64 1 0xd),
    (0x1172200D, .azero 0x5c 0x44 0xd),
    (0x1220000D, .tzero 1 0xd),
    (0x14F8000D, .tmov 7 0xc 0xd),
    (0x1600680D, .smset 3 8 0xd),
    (0x1800000D, .smclr 0xd)] = true := by decide +kernel

theorem test_decode_e1 : readsAs .e [
    (0x03A2E80D, .ecfg 3 0x11 0x1d 0xd),
    (0x0500000D, .ego 2 0xd),
    (0x06D0001D, .estat 0x1a 1 0xd),
    (0x0804630D, .qcfgSrc 0x23 3 0xd),
    (0x0800730D, .qcfgSnk 3 3 0xd),
    (0x0A30008D, .qenq 3 8 0xd),
    (0x0D29000D, .qdeq 0x12 9 0xd),
    (0x0DE68C0D, .qdeqTile 0xf 6 6 0xd),
    (0x0E0000AD, .qreset 0xa 0xd),
    (0x10D8002D, .qstat 0x1b 2 0xd)] = true := by decide +kernel

theorem test_decode_e2 : readsAs .e [
    (0x12BEB80D, .scld 0x17 0x35 0xc 0xd),
    (0x15D8000D, .scst 0x3b 0xd),
    (0x16EFF00D, .scset 0x1d 0x3f 4 0xd),
    (0x1803000D, .srseed 0x18 0xd),
    (0x1A01A07D, .evset 0xd 7 0xd),
    (0x1C03401D, .evclr 0x1a 1 0xd),
    (0x1EB2E00D, .gbar 0x16 0x5c 0xd),
    (0x2007448D, .slk 0xe89 0xd),
    (0x2168004D, .slkReg 0x2d 0xd),
    (0x23D8002D, .anstat 0x3b 2 0xd)] = true := by decide +kernel

theorem test_decode_svi1 : readsAs .svi [
    (0x0095000B, .agTpost 9 0xa),
    (0x000B100B, .agTix 0x16),
    (0xC0C3240B, .agAmo 0x18 0xc 6 8),
    (0xC2C3200B, .agAmoF 0x18 0xc 6),
    (0xC4C3200B, .agAmoN 0x18 0xc 6),
    (0x0000300B, .agDrainR ),
    (0x0A00300B, .agDrainScope 5),
    (0x0000C00B, .agSlk 1),
    (0x5E30500B, .agSlki 0x5e3),
    (0x0400700B, .agIcinv 2),
    (0x1F0CE02B, .agCont 0x1f0ce),
    (0x0000002B, .agExit )] = true := by decide +kernel
/-- RISC-V words of R307 and Table 3 of chapter 11: `add x5,x6,x7`, `addi x10,x10,64`, `addiw`, `lui`, `ld x10,8(x2)`, `sd`, `mul`, `beq`, `jal`,
`jalr`, `fence`, `ecall`, `ebreak`, `csrrs`, `vsetvli`, `vadd.vv`, `vle32.v`; the word of zeros is no SVI instruction. -/
theorem test_decode_svi_base : readsAs .svi [
    (0x007302B3, .sviIntegerOp (.opReg .add false 5 6 7)), (0x04050513, .sviIntegerOp (.opImm .add false 10 10 64)),
    (0x0015051B, .sviIntegerOp (.opImm .add true 10 10 1)), (0x123452B7, .sviIntegerOp (.lui 5 0x12345)),
    (0x00813503, .sviLoadStore (.load 3 false 10 2 8)), (0x00A13423, .sviLoadStore (.store 3 2 10 8)),
    (0x027302B3, .sviMOp ⟨.mul, false, 5, 6, 7⟩), (0x00B50463, .sviTransfer (.branch .eq 10 11 4)), (0x008000EF, .sviTransfer (.jal 1 4)),
    (0x00008067, .sviTransfer (.jalr 0 1 0)), (0x0FF0000F, .sviFence ⟨0, 15, 15, 0, 0⟩), (0x00000073, .ecall), (0x00100073, .ebreak),
    (0xC0002573, .sviCsrAccess ⟨.rs, false, 0xC00, 10, 0⟩), (0x0D0572D7, .sviVectorOp (.vsetvli 5 10 0xD0)),
    (0x022180D7, .sviVectorOp (.arith 0 1 2 3 0 1)), (0x02056087, .sviVectorOp (.mem false 0 0 0 1 0 10 6 1)),
    (0x00000000, .sviill 0)] = true := by decide +kernel

/-- R122, R310: words with a reserved bit or an undefined field are no instruction of their slot; SVI text reads every such word as its trap. -/
theorem test_decode_reserved : ([(.c, 0x08000010), (.s, 0x0228C390), (.m, 0xFE000000), (.v, 0xFE000000), (.x, 0xFE000000), (.e, 0xFE000000),
    (.c, 0x00000001)] : List (Cls × Nat)).all (fun e => decide (decodeWord e.1 (BitVec.ofNat 32 e.2) = none)) = true ∧
    decodeWord .svi 0xFFFFFFFF#32 = some (.sviill 0xFFFFFFFF) := by decide +kernel

/-- R120, R309: the bundle of bytes, eight little-endian words in slot order. -/
theorem test_decode_bundle : decode ([0x20, 0, 0, 2] ++ [0x80, 0xC3, 0x28, 2] ++ List.replicate 24 0) =
    some ((0, some (.br 2 0)) :: (1, some (.add 5 6 7 0)) :: (List.range 6).map (fun j => (j + 2, some .nop))) := by decide +kernel

/-! ## Ill-formed terms, one or more for each check of WellFormed -/

/-- R162, R122, R146, R148, R159: slot C, slots S and M. -/
theorem test_ill_formed_scalar : ([.csrr 1 5 0, .csrw 1 0x50 0, .csrsI 1 0xF 0, .csrs 1 0x13 0, .csrc 1 0x24 0, .csrwI 1 0x7FF 0, .csrcI 1 7 0,
    .loop 1 0 0, .loope 0 1 4 0, .loope 2 1 0 0, .icinv 4 0, .cmp 1 2 3 7 0, .cmpi 1 2 3 7 0, .adds 1 2 3 4 0, .subs 1 2 3 4 0, .rld 1 2 5 1 0 0,
    .rld 1 2 3 0 1 0, .rst 1 2 3 0 1 0, .fence 5 0, .bwait 1 2 3 5 0] : List Instr).all (fun i => !wellFormed i) = true := by decide +kernel

/-- R184: an odd operand register, an odd destination of a pair, a quadruple not at a multiple of 4. -/
theorem test_ill_formed_amo : ([.amo 8 7 1 0 0, .amo 9 6 3 0 0, .amo 9 6 19 0 0, .amo 10 6 24 0 0, .amoF 8 7 1 0, .amoN 8 7 1 0, .agAmo 3 6 5 9,
    .agAmo 3 7 6 8, .agAmo 24 6 6 8, .agAmoF 15 7 6, .agAmoN 16 6 7, .agDrainScope 0, .agDrainScope 6, .agCont 0] : List Instr).all
      (fun i => !wellFormed i) = true := by decide +kernel

/-- R214: operand kind 3, and a vector operand of 32 or more; R218, R225, R239, R249, R263, R230: reserved fields of slots V, X and E. -/
theorem test_ill_formed_vector : ([.vadd 1 2 3 3 0 0, .vsub 1 2 32 0 0 0, .vmulh 1 2 3 3 0 0 0, .vmerge 1 2 32 0 0, .vcmp 1 2 1 0 6 0,
    .vcmp 1 2 32 0 5 0, .vsetvli 1 2 0x10 0, .vsetivli 1 2 0x13 0, .vlds 1 3 0 0 0, .vsts 1 3 0 0, .vexp 1 2 1 0 0, .vexp 1 2 0x1E7 0 0,
    .mmag 1 2 3 0 0, .ecfg 0 5 0 0, .ecfg 0 26 0 0, .anstat 1 4 0] : List Instr).all (fun i => !wellFormed i) = true := by decide +kernel

/-- R307, R313: forms that RISC-V does not have. -/
theorem test_ill_formed_svi : ([.sviIntegerOp (.opImm .sub false 1 2 3), .sviIntegerOp (.opImm .sll true 1 2 32), .sviIntegerOp (.opImm .sra false 1 2 64),
    .sviIntegerOp (.opImm .xor true 1 2 3), .sviIntegerOp (.opReg .slt true 1 2 3), .sviMOp ⟨.mulh, true, 1, 2, 3⟩, .sviLoadStore (.load 3 true 1 2 3),
    .sviVectorOp (.arith 1 1 2 3 0 1), .sviVectorOp (.arith 2 1 2 3 3 1), .sviVectorOp (.arith 0x10 1 2 3 0 1), .sviVectorOp (.arith 0x17 1 2 3 0 1),
    .sviVectorOp (.arith 0x12 1 2 8 2 1), .sviVectorOp (.arith 0 1 2 3 1 1), .sviVectorOp (.mem false 0 1 0 1 0 2 0 1),
    .sviVectorOp (.mem false 0 0 0 1 0 2 1 1), .sviVectorOp (.mem false 2 0 0 1 8 2 0 1), .sviVectorOp (.mem true 0 0 0 1 16 2 0 1)] :
      List Instr).all (fun i => !wellFormed i) = true := by decide +kernel

/-! ## Small states -/

/-- What a next state shows. -/
def got {α : Type} (o : Host.Outcome State Fault Refusal) (f : State → α) : Option α :=
  match o with
  | .next s => some (f s)
  | _ => none

/-- Core 0 runs a task whose whole scratchpad half is allotted; the rest as after reset. -/
def unit (f : Core → Core) : State := { State.reset with cores := [(0, f { run := .running, ent := [(6, 0x800#64)] })] }

/-- Such a core with the scalar registers given. -/
def regs (l : List (Nat × Word)) : State := unit (fun c => { c with x := l })

/-- The state once the current core's results are in its registers. -/
def settled (t : State) : State := modCur t (fun c => expire { c with ctime := c.ctime + 1000 })

/-- Each instruction leaves the value in the register once everything has come due. -/
def leaves (s : State) (l : List (Instr × Nat × Word)) : Bool :=
  l.all (fun e => decide (got (exec e.1 s) (fun t => rx (settled t) e.2.1) = some e.2.2))

/-- Registers for the scalar tests. -/
def sregs : State := regs [(5, 7), (6, 0xFFFFFFFFFFFFFFFF), (7, 3), (8, 0x8000000000000000), (11, 0x0804), (12, 0xABCDE)]

/-! ## Scalar instructions (R164 to R170) -/

theorem test_scalar_add : leaves sregs [(.add 10 5 7 0, 10, 10), (.sub 10 7 5 0, 10, 0xFFFFFFFFFFFFFFFC), (.addi 10 5 0x1FB 0, 10, 2), (.and 10 5 7 0, 10, 3),
    (.or 10 5 7 0, 10, 7), (.xor 10 5 7 0, 10, 4), (.andi 10 6 0x1F0 0, 10, 0xFFFFFFFFFFFFFFF0), (.ori 10 9 0x1FF 0, 10, 0xFFFFFFFFFFFFFFFF),
    (.xori 10 5 8 0, 10, 15), (.li 10 0x4000 0, 10, 0xFFFFFFFFFFFFC000), (.lih 5 1 0, 5, 0x38001), (.mov 10 7 0, 10, 3)] = true := by decide +kernel

theorem test_scalar_shift : leaves sregs [(.sll 10 5 7 0, 10, 56), (.sll 10 5 8 0, 10, 7), (.srl 10 6 7 0, 10, 0x1FFFFFFFFFFFFFFF),
    (.sra 10 8 7 0, 10, 0xF000000000000000), (.slli 10 5 63 0, 10, 0x8000000000000000), (.srli 10 8 63 0, 10, 1),
    (.srai 10 8 63 0, 10, 0xFFFFFFFFFFFFFFFF)] = true := by decide +kernel

theorem test_scalar_mul : leaves sregs [(.mul 10 6 6 0, 10, 1), (.mulh 10 6 6 0, 10, 0), (.mulhu 10 6 6 0, 10, 0xFFFFFFFFFFFFFFFE),
    (.mulhsu 10 6 6 0, 10, 0xFFFFFFFFFFFFFFFF), (.div 10 8 6 0, 10, 0x8000000000000000), (.div 10 5 9 0, 10, 0xFFFFFFFFFFFFFFFF),
    (.divu 10 6 7 0, 10, 0x5555555555555555), (.rem 10 8 6 0, 10, 0), (.rem 10 5 9 0, 10, 7), (.remu 10 8 7 0, 10, 2)] = true := by decide +kernel

theorem test_scalar_bits : leaves sregs [(.min 10 8 5 0, 10, 0x8000000000000000), (.max 10 8 5 0, 10, 7), (.minu 10 8 5 0, 10, 7),
    (.maxu 10 8 5 0, 10, 0x8000000000000000), (.clz 10 9 0, 10, 64), (.clz 10 5 0, 10, 61), (.ctz 10 8 0, 10, 63), (.ctz 10 9 0, 10, 64),
    (.popc 10 6 0, 10, 64), (.sext 10 5 2 0, 10, 0xFFFFFFFFFFFFFFFF), (.sext 10 8 63 0, 10, 0x8000000000000000), (.zext 10 6 7 0, 10, 255),
    (.sel 10 5 7 0 0, 10, 7), (.sel 10 5 7 3 0, 10, 3)] = true := by decide +kernel

theorem test_scalar_sat : leaves sregs [(.adds 10 6 8 0 0, 10, 0x8000000000000001), (.subs 10 7 5 3 0, 10, 0xFFFFFFFFFFFFFFFC), (.adds 10 12 12 2 0, 10, 0xFFFFFFFFFFFF8001),
    (.bfxu 10 12 11 0, 10, 0xCD), (.bfx 10 12 11 0, 10, 0xFFFFFFFFFFFFFFCD), (.bfx 10 6 5 0, 10, 0), (.bfi 12 5 11 0, 12, 0xAB07E)] = true := by
  decide +kernel

/-- R123: a write of x0 is discarded; R128: x10 written with bound 3 is undefined before core time 3. -/
theorem test_scalar_zero : got (exec (.addi 0 5 1 0) sregs) (fun t => rx t 0) = some 0 ∧
    got (exec (.mul 10 5 7 0) sregs) (fun t => (pendX (cur t) 10, (cur t).ctime, (cur t).pc)) = some (true, 1, 32) := by decide +kernel

/-- Predicates after each instruction. -/
def preds (s : State) (l : List (Instr × BitVec 8)) : Bool := l.all (fun e => decide (got (exec e.1 s) (fun t => (cur t).p) = some e.2))

theorem test_predicates : preds (unit (fun c => { c with x := [(5, 7), (6, 0xFFFFFFFFFFFFFFFF)], p := 0x5 })) [(.cmp 1 5 5 0 0, 7), (.cmp 1 5 5 1 0, 5),
    (.cmp 1 6 5 2 0, 7), (.cmp 1 6 5 3 0, 5), (.cmp 1 6 5 4 0, 5), (.cmp 1 6 5 5 0, 7), (.cmp 1 5 6 6 0, 7), (.cmpi 1 6 0x1FF 0 0, 7), (.cmpi 0 5 0 1 0, 5),
    (.pand 3 0 2 0, 0xD), (.por 3 1 1 0, 5), (.pxor 3 2 1 0, 0xD), (.pandn 3 2 1 0, 0xD), (.pandn 2 0 2 0, 1), (.movToPall 6 0, 0xFF), (.movToPall 5 0, 7)] = true ∧
    leaves (unit (fun c => { c with p := 0xA5 })) [(.movFromPall 10 0, 10, 0xA5)] = true := by decide +kernel

/-! ## States that meet the hypotheses of the statements, in their order -/

/-- The slots of a core at rest are open. -/
theorem wit_open : ∀ j, j < 8 → Open (unit id) j 0 := by
  unfold Open; decide +kernel

theorem wit_ScalarResults : Open sregs 1 0 ∧ scalarRow sregs (.div 10 5 9 0) = some (0, 10, 18, 0xFFFFFFFFFFFFFFFF) ∧
    scalarRow sregs (.bfx 0 12 11 0) = some (0, 0, 1, 0xFFFFFFFFFFFFFFCD) ∧ scalarRow sregs (.adds 63 6 8 0 0) = some (0, 63, 1, 0x8000000000000001) := by
  unfold Open; decide +kernel

theorem wit_ScalarResultBound : inflight (cur sregs) (0, 63) = none ∧ (∀ p ∈ (scalarPut 3 63 5 (cur sregs)).pend, p.ready ≤ 3) ∧
    pendX (expire { scalarPut 3 63 5 (cur sregs) with ctime := 2 }) 63 = true ∧
    tget 0 (expire { scalarPut 3 63 5 (cur sregs) with ctime := 3 }).x 63 = 5 := by decide +kernel

theorem wit_PredicateResults : predRow sregs (.cmp 7 8 5 2 0) = some (0, 7, true) ∧ predRow sregs (.cmpi 0 5 7 0 0) = some (0, 0, true) ∧
    predRow sregs (.pandn 1 0 3 0) = some (0, 1, true) ∧ Open sregs 1 0 := by unfold Open; decide +kernel

theorem wit_ScalarFrame : ∃ t, exec (.bfi 12 5 11 0) sregs = .next t ∧ NoLoop (cur sregs) ∧ t ≠ sregs := by
  unfold NoLoop; refine ⟨_, rfl, ?_⟩; decide +kernel

theorem wit_MemoryFormKept : Memory.wf (State.reset.withFetchWord 32 0x0228C380).mem = true ∧
    (∃ t, step (State.reset.withFetchWord 32 0x0228C380) = .next t ∧ (cur t).pc = 32) := by
  refine ⟨by decide +kernel, _, rfl, by decide +kernel⟩

theorem wit_DecodeEncode : wellFormed (.loope 7 63 511 15) = true ∧ clsOf (.loope 7 63 511 15) = some .c ∧ encode (.loope 7 63 511 15) = some 0x0E3FFFFF := by
  decide +kernel

theorem wit_DecodeLosesNothing : decodeWord .m 0x0E488220#32 = some (.ldd 9 4 1 2 0) ∧ decodeWord .v 0#32 = some .nop := by decide +kernel

/-- The fetch word's core meets what a turn asks of its core. -/
theorem wit_StepRunsDecoded_turn : let s := State.reset.withFetchWord 32 0x0228C380
    let u := turnCcy { s with agenda := [], cur := 0 }
    let v := setCur u (settleCore u (cur u))
    let c := cur v
    s.agenda = [.core 0] ∧ c.run = .running ∧ c.pre = .none ∧ c.frz ≤ 4194304 ∧ lateNow c = false ∧ c.trap = none ∧ c.wait = .none ∧ c.mwait = .none ∧ c.atStep = false ∧
      c.issueAt ≤ c.ctime ∧ bkHit c = none ∧ sviOf v c = none ∧ c.pc.toNat + 32 ≤ (arena v c).2 ∧
      c.ic.find? (fun e => e.1 = (arena v c).1 + c.pc.toNat) = some ((arena v c).1 + c.pc.toNat, BitVec.ofNat 256 (0x0228C380 * 2 ^ 32)) ∧
      liveWords (BitVec.ofNat 256 (0x0228C380 * 2 ^ 32)) = [(1, some (.add 5 6 7 0))] ∧ firstSlot 1 = true ∧ liveWords 0 = [] := by decide +kernel

/-- The same in an SVI image. -/
theorem wit_StepRunsDecoded_svi : let s := State.reset.withFetchWord 32 0x0600500B
    let u := turnCcy { s with agenda := [], cur := 0 }
    let v := setCur u (settleCore u (cur u))
    sviOf v (cur v) = some { base := 64, size := 4, off := 0 } ∧ decSvi (BitVec.ofNat 32 (rd v (64 + sviPc { base := 64, size := 4, off := 0 } (cur v)) 4)) =
      .agSlki 96 := by decide +kernel

theorem wit_StepRunsDecoded_word : (∀ n, n < 8 → n ≠ 7 → slotWord (BitVec.ofNat 256 (0x3A000000 * 2 ^ 224)) n = 0) ∧
    slotWord (BitVec.ofNat 256 (0x3A000000 * 2 ^ 224)) 7 ≠ 0 ∧ isEvent (.linkTrained) = true ∧
    isEvent (.add 0 0 0 0) = false := by decide +kernel

/-- A core at the start of its arena with nothing in its instruction cache. -/
def cold : State := unit (fun c => { c with trec := { w0 := 0x8000000000#64 }, ent := [(1, 0), (2, 65536), (6, 0x800#64)] })

theorem wit_StepRunsDecoded_fetch : (core cold 0).run = .running ∧ (core cold 0).pc.toNat + 32 ≤ (arena cold (core cold 0)).2 ∧
    (core cold 0).ic.find? (fun e => e.1 = (arena cold (core cold 0)).1 + (core cold 0).pc.toNat) = none ∧ sealedFree cold 0 = false ∧
    sealedFree { cold with ctxs := [(0, { objs := [⟨0, 32, true, true, 0, 0⟩] })] } 0 = true := by decide +kernel

/-- A context's entry: valid, identifier 1, an arena of 64 KiB at 0, all of the scratchpads, the window, the ring share and cluster 0. -/
def entry : Tab Word := [(0, 0x1010001), (2, 65536), (6, 0x800), (7, 0x10000), (8, 0xC000), (9, 1)]

/-- FRAME of the task that the states below run. -/
abbrev fr1 : Word := 0x6000000000000100

/-- Core 0 runs a task of context 1 under launch tag 1, whose record stands in the window of cluster 0 at 0x100. -/
def rig (f : Core → Core) : State :=
  { State.reset with
    cores := [(0, f { run := .running, ctx := 1, ent := entry, ltag := 1, trec := { w0 := 0x100000000000000, w1 := fr1 } })]
    ctxs := [(1, { d := entry })]
    hub := { launches := [{ tag := 1, q := 0, ctx := 1, kind := 1, cmpaddr := 0, cmpval := 0, recs := [(0, fr1)] }] } }

/-- The same with scalar registers. -/
def rigX (l : List (Nat × Word)) : State := rig (fun c => { c with x := l })

theorem wit_IssueCommits : ∃ o, slotOf (soleSlot (.add 10 5 7 0)) (.add 10 5 7 0) = some o ∧ Issues sregs o := by
  refine ⟨_, rfl, ?_⟩; unfold Issues; decide +kernel

/-- A guard that is off: p0 inverted; a `mmaz` nullified by it is still charged. -/
theorem wit_SlotsNullifiedOrOccupied : (∃ o, slotOf (soleSlot (.add 10 5 7 8)) (.add 10 5 7 8) = some o ∧ guardOn (cur sregs) o.guard = false ∧
      Reaches sregs o ∧ o.cost sregs = none) ∧
    (∃ o, slotOf (soleSlot (.mmaz 0 0 0 1 8)) (.mmaz 0 0 0 1 8) = some o ∧ guardOn (cur sregs) o.guard = false ∧ Reaches sregs o ∧
      o.cost sregs ≠ none ∧ (cur sregs).debt < (cur sregs).al) ∧
    ∃ o, slotOf (soleSlot (.add 10 5 7 0)) (.add 10 5 7 0) = some o ∧ (cur (unit (fun c => { c with occ := [(1, 18)] }))).oclk < 18 ∧
      tget 0 (cur (unit (fun c => { c with occ := [(1, 18)] }))).occ o.slot = 18 := by
  refine ⟨⟨_, rfl, ?_⟩, ⟨_, rfl, ?_⟩, ⟨_, rfl, ?_⟩⟩ <;> (try unfold Reaches) <;> decide +kernel

/-- A busy freeze counts its ccy, up to the field's highest value. -/
theorem wit_SlotsNullifiedOrOccupied_busy : let s := fun (v : Word) => unit (fun c => { c with occ := [(1, 18)], frzstat := v })
    got (exec (.add 10 5 7 0) (s 7)) (fun t => (cur t).frzstat) = some 0x200007 ∧
    got (exec (.add 10 5 7 0) (s 0x3FFFFE00007)) (fun t => (cur t).frzstat) = some 0x3FFFFE00007 := by decide +kernel

theorem wit_PreciseFaults : (∃ o, slotOf (soleSlot (.csrr 10 5 0)) (.csrr 10 5 0) = some o ∧ (cur (rig id)).oclk ≥ tget 0 (cur (rig id)).occ o.slot ∧
      o.slot < 8 ∧ masked (cur (rig id)) o.slot = false ∧ o.legal (rig id) = false ∧ (cur (rig id)).emuAct = false ∧
      bit (entD (cur (rig id)) 10) 40 = false ∧ quiet (cur (rig id)) = true) ∧
    ∃ o f, slotOf (soleSlot (.ldd 10 5 0 0 0)) (.ldd 10 5 0 0 0) = some o ∧
      o.check (rigX [(5, 0x1000000000000004)]) (o.issued (rigX [(5, 0x1000000000000004)])) = some f ∧ f.code = .align ∧
      Reaches (rigX [(5, 0x1000000000000004)]) o ∧ o.on (cur (rigX [(5, 0x1000000000000004)])) = true := by
  refine ⟨⟨_, rfl, by decide +kernel⟩, ⟨_, _, rfl, rfl, ?_⟩⟩; unfold Reaches; decide +kernel

/-- The handler stands at 0x400 and its record at 0x1000; a `csrr` of a register that is not there. -/
theorem wit_PreciseFaults_emu : let s := fun (l : List Pend) => rig (fun c => { c with
        pc := 0x40, pend := l, ic := [(0x40, 7)], ent := entry ++ [(10, 0x10000000400), (11, 0x1000)] })
    (∃ o, slotOf (soleSlot (.csrr 10 5 0)) (.csrr 10 5 0) = some o ∧ o.slot = 0 ∧ o.legal (s []) = false ∧ masked (cur (s [])) 0 = false) ∧
    bit (entD (cur (s [])) 10) 40 = true ∧ (arena (s []) (cur (s []))).1 = 0 ∧ quiet (cur (s [])) = true ∧ quiet (cur (s [⟨9, .x 5 1⟩])) = false ∧
    got (exec (.csrr 10 5 0) (s [])) (fun t => ((cur t).emuAct, (cur t).pc, rd t (spLoc 0 0x1000) 8, rd t (spLoc 0 0x1028) 8)) = some (true, 0x400, 7, 1) ∧
    got (exec (.csrr 10 5 0) (s [⟨9, .x 5 1⟩])) (fun t => ((cur t).emuAct, (cur t).wait)) = some (false, .emu 1 7) := by
  refine ⟨⟨_, rfl, ?_⟩, ?_⟩ <;> decide +kernel

/-- A ring with room for one record, and a full one; the record after a misaligned load names the address and stops the task. -/
theorem wit_TrapsTakenAndReturned : ({ base := 0x100000, log2n := 8, tail := 255 } : FRing).room = true ∧
    ({ base := 0x100000, log2n := 8, tail := 256 } : FRing).room = false ∧
    (let s := { rigX [(5, 0x1000000000000004)] with ctxs := [(1, { d := entry, fr := { base := 0x100000, log2n := 8, tail := 255 } })] }
     got (exec (.ldd 10 5 0 0 0) s) (fun t => ((cur t).run, rd t 0x100008 4, (clu t 0).frz, t.hub.launches.map (·.failed))) =
       some (.stopped, 256, [0], [some .align])) := by decide +kernel

/-- R392: resumption at the resume PC thaws the queue. -/
theorem test_resume : let s := { rig (fun c => { c with run := .stopped, resume := 0x40 }) with clus := [(0, { frz := [0, 1] })] }
    (core (resumeTask s 0) 0).pc = 0x40 ∧ (core (resumeTask s 0) 0).run = .running ∧ (clu (resumeTask s 0) 0).frz = [1] := by decide +kernel

theorem wit_SoftwareTraps : Open (rig id) 0 0 ∧ quiet (cur (rig id)) = true ∧
    got (exec (.trap 0x7FFF 0) (rig id)) (fun t => ((cur t).run, (cur t).resume, (cur t).pc)) = some (.stopped, 32, 32) ∧
    got (exec (.bkpt 0 0) (rig id)) (fun t => ((cur t).run, t.hub.launches.map (·.failed))) = some (.stopped, [some .bkpt]) := by
  unfold Open; decide +kernel

/-- The targets at the ends of the range, and the first bits that fault. -/
theorem wit_Transfers : Open (rigX [(5, 0xFFFFFFFFE0), (6, 0x10000000000), (7, 0x10), (63, 0x20)]) 0 0 ∧
    (let s := rigX [(5, 0xFFFFFFFFE0), (6, 0x10000000000), (7, 0x10), (63, 0x20)]
     bitsAt (rx s 63) 0 5 = 0 ∧ bitsAt (rx s 63) 40 24 = 0 ∧ bitsAt (rx6 s 5) 0 5 = 0 ∧ bitsAt (rx6 s 5) 40 24 = 0 ∧ bitsAt (rx6 s 6) 40 24 ≠ 0 ∧
     bitsAt (rx6 s 7) 0 5 ≠ 0 ∧ quiet (cur s) = true ∧ got (exec (.jr 5 0) s) (fun t => ((cur t).pc, (cur t).issueAt)) = some (0xFFFFFFFFE0, 2) ∧
     got (exec (.jr 6 0) s) (fun t => (cur t).run) = some .stopped ∧ got (exec (.ret 0) s) (fun t => (cur t).pc) = some 0x20 ∧
     got (exec (.call 3 0) s) (fun t => ((cur t).pc, rx t 63)) = some (96, 32) ∧ got (exec (.callX 5 0) s) (fun t => rx t 63) = some 32 ∧
     got (exec (.br 2 0) s) (fun t => (cur t).pc) = some 64 ∧ got (exec (.brp 7 0 5 0) s) (fun t => (cur t).pc) = some 32 ∧
     got (exec (.brp 7 1 5 0) s) (fun t => (cur t).pc) = some 160) := by unfold Open; decide +kernel

/-- Loops: R148's setup of the worked example (three iterations, two stages), a count of zero, and level 3. -/
def loops (f : Core → Core) : State := rig (fun c => f { c with x := [(12, 3)], pc := 0x200 })

theorem wit_HardwareLoops_setup : Issues (loops id) (opLoope 2 12 3 0) ∧ Issues (loops id) (opLoop 12 511 0) ∧ (cur (loops id)).pre = .none ∧
    masked (cur (loops id)) 0 = false ∧ (∀ j, j < 3 → lpActive (cur (loops (fun c => { c with
      lpc := [(0, 0x40000000000), (1, 0x40000000000), (2, 0x40000000000)], lps := [(0, 0x60000000200), (1, 0x50000000200), (2, 0x40000000200)] }))) j = true) ∧
    got (exec (.loope 2 12 3 0) (loops id)) (fun t => (lpStart (cur t) 0, lpLen (cur t) 0, fld (tget 0 (cur t).lpc 0) 0 32, (cur t).p)) =
      some (0x220, 3, 2, 3) ∧
    got (exec (.loop 0 3 0) (loops id)) (fun t => ((cur t).pc, lpActive (cur t) 0)) = some (0x280, false) := by
  unfold Issues; decide +kernel

theorem wit_HardwareLoops_end : let s := rig (fun c => { c with pc := 0x40, lpc := [(0, 0x40000000001)], lps := [(0, 0x30000000000)] })
    Open s 0 0 ∧ lpActive (cur s) 0 = true ∧ bit (tget 0 (cur s).lpc 0) 43 = false ∧ (∀ j, j < 4 → 0 < j → lpActive (cur s) j = false) ∧
    (cur s).pc.toNat = lpStart (cur s) 0 + 32 * (lpLen (cur s) 0 - 1) ∧
    got (exec .nop s) (fun t => ((cur t).pc, fld (tget 0 (cur t).lpc 0) 0 32, lpActive (cur t) 0)) = some (0, 0, true) ∧
    got (exec .nop (rig (fun c => { c with pc := 0x40, lpc := [(0, 0x40000000000)], lps := [(0, 0x30000000000)] })))
      (fun t => ((cur t).pc, lpActive (cur t) 0)) = some (0x60, false) := by unfold Open; decide +kernel

theorem wit_CoreSettings : let s := rig (fun c => { c with x := [(5, 5000), (6, 4095), (7, 0xFFFFFFFF)], lpc := [(0, 0x40000000005)], lps := [(0, 0x30000000000)] })
    Open s 0 0 ∧ innermost (cur s) = some 0 ∧ innermost (cur (rig id)) = none ∧
    got (exec (.lpstage 0) s) (fun t => fld (tget 0 (cur t).lpc 0) 0 32) = some 0 ∧
    got (exec (.setltX 15 5 0) s) (fun t => tget 0 (cur t).lt 15) = some 4095 ∧ got (exec (.setlt 3 72 0) s) (fun t => tget 0 (cur t).lt 3) = some 72 ∧
    got (exec (.step 9 0) s) (fun t => (fld (cur t).stepno 0 32, fld (cur t).stepno 32 15)) = some (1, 9) ∧
    got (exec (.evwait 3 7 6 5 0) s) (fun t => (cur t).wait) = some (.ev 3 5 0xFFFFFFFF 4096) := by unfold Open; decide +kernel

theorem wit_BoundedWaitEnds : let s := fun (w : Wait) (e : BitVec 32) => { rig (fun c => { c with wait := w, ctime := 9 }) with clus := [(0, { ev := [(5, e)] })] }
    lateNow (core (s (.ev 3 5 6 9) 6) 0) = false ∧ tget 0 (clu (s (.ev 3 5 6 9) 6) 0).ev 5 &&& 6 = 6#32 ∧
    got (exec (.evwaitEnd 0) (s (.ev 3 5 6 9) 6)) (fun t => ((cur t).wait, (cur t).p)) = some (.none, 9) ∧
    got (exec (.boundedWaitLimit 0) (s (.ev 3 5 6 9) 2)) (fun t => ((cur t).wait, (cur t).p)) = some (.bubble 10, 1) ∧
    (let u := modCur (s (.ev 3 5 6 10) 2) (fun c => { c with mwait := .bw 4 1 0 9 2 none })
     got (exec (.boundedWaitLimit 0) u) (fun t => ((cur t).wait, (cur t).mwait, (cur t).p)) = some (.ev 3 5 6 10, .bubble 10, 1)) := by decide +kernel

/-- The task's record in its slot. -/
def held (f : Core → Core) : State := wr (wr (rig f) (winLoc 0 0 0x100) 8 0x100000000000000) (winLoc 0 0 0x100 + 8) 8 0x6000000000000100

theorem wit_TaskEnds : Issues (held id) (opExit 0) ∧ guardOn (cur (held id)) 0 = true ∧ masked (cur (held id)) 0 = false ∧ quiet (cur (held id)) = true ∧
    (let s := held (fun c => { c with joincnt := 2 })
     Issues s (opCont 4 0) ∧ joinSum s s.cur ≠ 0 ∧
     got (exec (.cont 4 0) s) (fun t => ((rdRec t (winLoc 0 0 0x100)).pc, (rdRec t (winLoc 0 0 0x100)).kind, (rdRec t (winLoc 0 0 0x100)).join)) = some (128, 1, 2)) ∧
    got (exec (.exit 0) (held id)) (fun t => ((rdRec t (winLoc 0 0 0x100)).kind, (cur t).run, t.hub.launches.map (·.recs))) =
      some (4, .idle, [[]]) := by
  repeat' apply And.intro
  all_goals decide +kernel

/-- A continuation to which nothing is owed. -/
theorem wit_TaskEnds_now : Issues (held id) (opCont 4 0) ∧ joinSum (held id) (held id).cur = 0 ∧ swImage (held id) 1 0 = none ∧
    (rdRec (held id) (winLoc 0 0 0x100)).qid % 4 = 0 ∧ (ringOf (clu (held id) 0) 0).cnt = 0 ∧ (rqOf (clu (held id) 0) 0).length < 32 ∧
    got (exec (.cont 4 0) (held id)) (fun t => ((rqOf (clu t 0) 0).map (fun r => (r.pc, r.kind)), (cur t).run)) = some ([(128, 1)], .idle) := by
  unfold Issues
  repeat' apply And.intro
  all_goals decide +kernel

/-- A core that waits for the hub with a request and its arguments. -/
def calling (n : Nat) (l : List Word) : State := rig (fun c => { c with wait := .sysc n l })

theorem wit_SystemCalls : Open (rig id) 0 0 ∧ quiet (core (calling 1 []) 0) = true ∧
    got (exec (.sysc 0 0) (rigX [(10, 5), (17, 9)])) (fun t => (cur t).wait) = some (.sysc 0 [5, 0, 0, 0, 0, 0, 9]) ∧
    got (exec (.sysc 0x7FFF 0) (rig id)) (fun t => (cur t).trec.committed) = some true ∧
    got (exec (.null 0) (calling 0 [5])) (fun t => rx t 10) = some 0 ∧
    got (exec (.ctxinfo 0) (calling 1 [])) (fun t => (rx t 10, rx t 11)) = some (0x10001, 1) ∧
    got (exec (.objfree 0) (calling 2 [64])) (fun t => rx t 10) = some 0xFFFFFFFFFFFFFFFE ∧
    got (exec (.objfree 0) { calling 2 [64] with ctxs := [(1, { d := entry, objs := [⟨64, 32, true, false, 0, 0⟩] })] }) (fun t => (rx t 10, (ctx t 1).objs)) =
      some (0, []) ∧
    got (exec (.svicall 0) (calling 0x7FFF [0, 0, 0, 0, 0, 0, 0x10001])) (fun t => (cur t).wait) = some (.sysc 1 [0, 0, 0, 0, 0, 0, 0x10001]) ∧
    got (exec (.svicall 0) (calling 0x7FFF [0, 0, 0, 0, 0, 0, 0x7FFF])) (fun t => rx t 10) = some 0xFFFFFFFFFFFFFFFF ∧
    got (exec (.syscServed 0) (calling 0xFF [])) (fun t => rx t 10) = some 0xFFFFFFFFFFFFFFFF := by
  repeat' apply And.intro
  all_goals decide +kernel

/-- A core that is about to enter its emulation handler at 0x400, with its record at 0x1000 of the scratchpad. -/
def emu : State := rig (fun c => { c with wait := .emu 2 7, pc := 0x40, ent := entry ++ [(10, 0x10000000400), (11, 0x1000)] })

theorem wit_CodeAndEmulation_emu : (core emu 0).wait = .emu 2 7 ∧ quiet (core emu 0) = true ∧
    got (exec (.emulationEntry 0) emu) (fun t => ((cur t).pc, (cur t).epc, rd t (spLoc 0 0x1020) 8, rd t (spLoc 0 0x1028) 8)) =
      some (0x400, 0x40, 0x40, 2) ∧
    got (exec (.emulationEntry 0) emu) (fun t => rd t (spLoc 0 0x1000) 32) = some 7 ∧
    (let s := rig (fun c => { c with emuAct := true, emuMask := 2, epc := 0x40, pc := 0x400 })
     Open s 0 0 ∧ (cur s).emuAct = true ∧ got (exec (.emret 0) s) (fun t => ((cur t).pc, (cur t).emuAct, (cur t).emuMask)) =
      some (0x40, false, 2)) := by
  repeat' apply And.intro
  all_goals decide +kernel

/-- Two cores of one cluster whose caches hold a line of the arena and one outside it. -/
def lines2 : State :=
  { rig (fun c => { c with wait := .icinv 1, ic := [(0x40, 7), (0x10000, 8)] }) with
    cores := (rig (fun c => { c with wait := .icinv 1, ic := [(0x40, 7), (0x10000, 8)] })).cores ++ [(7, { ic := [(0xFFE0, 9)] }), (8, { ic := [(0, 9)] })] }

theorem wit_CodeAndEmulation_icinv : Open (rig id) 0 0 ∧ got (exec (.icinv 3 0) (rig id)) (fun t => (cur t).wait) = some (.icinv 3) ∧
    inScope 0 1 7 = true ∧ inScope 0 1 8 = false ∧
    got (exec (.icinvFinish 0) lines2) (fun t => ((core t 0).ic, (core t 7).ic, (core t 8).ic)) = some ([(0x10000, 8)], [], [(0, 9)]) := by
  repeat' apply And.intro
  all_goals decide +kernel

/-- `publish` with its reply slot in the frame, and an object that validation refuses: a length of 0 (PUBENC). -/
theorem wit_CodeAndEmulation_publish : Issues (rigX [(5, 0x1000), (6, 32), (7, 0x6000000000000180)]) (opPublish 7 5 6 0) ∧
    got (exec (.publish 7 5 6 0) (rigX [(5, 0x1000), (6, 32), (7, 0x6000000000000180)])) (fun t => (t.comps.map (·.what), t.comps.map (·.loc),
      (cur t).trec.committed, fld (cur t).joincnt 0 16)) = some ([.publish 0 0x1000 32], [winLoc 0 0 0x180], true, 1) ∧
    (let s := { rig id with comps := [{ id := 1, what := .publish 0 0x1000 32, loc := winLoc 0 0 0x180, n := 8, v := 0, frame := fr1, die := 0, ctx := 1 }] }
     performed s [] = true ∧ got (exec (.publishValidation 1) s) (fun t => t.comps.map (fun c => (decide (c.what = .done), bit c.v 63))) = some [(true, true)]) := by
  repeat' apply And.intro
  all_goals decide +kernel

theorem wit_StatusRegisters : Open (rig id) 0 0 ∧ quiet (cur (rig id)) = true ∧ csrUser 0x2F = false ∧ csrUser 4 = true ∧ sysLevel (cur (rig id)) = false ∧
    csrSys 0x800 = true ∧ sysLevel (cur (rig (fun c => { c with trec := { c.trec with w0 := 0x40000000000 } }))) = true ∧
    got (exec (.csrw 5 0x3F 0) (rig (fun c => { c with x := [(5, 0xFFFFFFFFFFFFFFFF)], trec := { c.trec with w0 := 0x40000000000 } }))) (fun t => tget 0 (ctx t 1).rwin 15) =
      some 0xFFFFFFFFFFFF0001 ∧
    got (exec (.csrr 10 0x800 0) (rig id)) (fun t => (cur t).run) = some .stopped ∧ got (exec (.csrw 5 4 0) (rig id)) (fun t => (cur t).run) = some .stopped ∧
    got (exec (.csrwI 3 2 0) (rig id)) (fun t => (cur t).run) = some .stopped ∧
    got (exec (.csrw 5 0 0) (rigX [(5, 0x1FFF)])) (fun t => (cur t).slk) = some 0xFFF ∧
    got (exec (.csrcI 1 2 0) (rig (fun c => { c with mmstat := 77 }))) (fun t => (cur t).mmstat) = some 0 ∧
    got (exec (.csrsI 9 1 0) (rig (fun c => { c with slkstat := 2 }))) (fun t => (cur t).slkstat) = some 11 := by
  repeat' apply And.intro
  all_goals decide +kernel

/-! ## Loads, stores, requests -/

/-- The core's scratchpad holds 0x80 at 0x100; x5 points there, x6 into its cluster's window, x7 to the last byte, x8 beyond the scratchpad. -/
def pad : State := wrB (rigX [(5, 0x1000000000000100), (6, 0x2000000000000200), (7, 0x10000000001FFFFF), (8, 0x1000000000200000), (9, 0xFF80)]) (spLoc 0 0x100) 0x80

theorem wit_ScalarLoads : Open pad 3 0 ∧ RoomFor pad 8 ∧ ownHeld pad = false ∧ chk pad 0x1000000000000100 1 1 false = .ok (.loc (spLoc 0 0x100)) ∧
    GoesOut pad 0x2000000000000200 8 8 false (.loc (winLoc 0 0 0x200)) ∧
    got (exec (.ldb 10 5 0 0 0) pad) (fun t => (cur t).land.map (fun l => (l.at_, l.dst, l.own))) = some [(4, .x 10 1 true, true)] ∧
    got (exec (.ldd 10 6 0 0 0) pad) (fun t => ((cur t).land.map (·.dst), t.reqs.map (·.n), t.reqs.map (·.dst))) =
      some ([.x 10 8 false], [8], [.land 1 0]) ∧
    (let s := { pad with uecc := [spLoc 0 0x100] }
     chk s 0x1000000000000100 1 1 false = .ok (.loc (spLoc 0 0x100)) ∧ errIn s (spLoc 0 0x100) 1 ≠ none ∧ ownHeld s = false ∧
     got (exec (.ldb 10 5 0 0 0) s) (fun t => t.reqs.map (·.loc)) = some [some (spLoc 0 0x100)]) ∧
    loadRow pad (.ldx 10 5 9 7 0) = some (0, 10, 0x100000000007FD00, 8, false, 7) ∧
    loadRow pad (.ldhu 10 5 0 0xF 0) = some (0, 10, 0x100000000000011E, 2, false, 0) := by
  unfold Open RoomFor GoesOut
  repeat' apply And.intro
  all_goals decide +kernel

/-- A landing in x0. -/
theorem wit_ScalarLoads_zero : got (exec (.landingCycle 0) (rig (fun c => { c with
    ctime := 9, land := [{ id := 1, at_ := 9, dst := .x 0 1 true, parts := [⟨2, some 0x180⟩], room := 8 }] }))) (fun t => (rx t 0, (cur t).x, (cur t).land)) = some (0, [], []) := by
  decide +kernel

/-- A load at its landing cycle, with its data and without. -/
def landing (d : Option Line) : State := rig (fun c => { c with ctime := 9, land := [{ id := 1, at_ := 9, dst := .x 10 1 true, parts := [⟨2, d⟩], room := 8 }] })

theorem wit_ScalarLoads_land : pendX (core (landing none) 0) 10 = false ∧
    got (exec (.landingCycle 0) (landing (some 0x180))) (fun t => (rx t 10, (cur t).land)) = some (0xFFFFFFFFFFFFFF80, []) ∧
    got (exec (.landingCycle 0) (landing none)) (fun t => ((cur t).frzstat, (cur t).wtime)) = some (1, 1) := by decide +kernel

theorem wit_ScalarStores : Open pad 3 0 ∧ RoomFor pad 0 ∧ chk pad 0x10000000001FFFFF 1 1 true = .ok (.loc (locOf pad 0x10000000001FFFFF 1 true)) ∧
    GoesOut pad 0x2000000000000200 8 8 true (.loc (winLoc 0 0 0x200)) ∧ storeRow pad (.stb 9 7 0 0) = some (0, 0x80, 0x10000000001FFFFF, 1) ∧
    got (exec (.stb 9 7 0 0) pad) (fun t => (rdB t (spLoc 0 0x1FFFFF), rdB t (spLoc 0 0x100))) = some (0x80, 0x80) ∧
    got (exec (.sth 9 5 1 0) pad) (fun t => rd t (spLoc 0 0x102) 2) = some 0xFF80 ∧
    got (exec (.std 9 6 0 0) pad) (fun t => (t.reqs.map (fun r => (r.wr.length, r.n)), t.reqs.map (·.slack), decide (t.mem = pad.mem))) =
      some ([(8, 8)], [0], true) := by
  unfold Open RoomFor GoesOut
  repeat' apply And.intro
  all_goals decide +kernel

/-- A page table at 0x200000 that maps the first 512 MiB of space 0x0 onto themselves, readable and writable. -/
def paged (s : State) : State := wr (wr s 0x200000 8 0x210001) 0x210000 8 0xF

/-- Context 1 with the page table of `paged`. -/
def mapped : State := paged { rig (fun c => { c with ent := entry ++ [(5, 0x200000)] }) with
  ctxs := [(1, { d := [(0, 0x1010001), (2, 65536), (5, 0x200000), (6, 0x800), (7, 0x10000), (8, 0xC000), (9, 1)] })] }

theorem wit_AddressChecks : chk pad 0x1000000000000101 8 8 false = .error ⟨.align, 0, 0⟩ ∧ chk pad 0x1000000000200000 1 1 false = .error ⟨.addrspace, 0, 0⟩ ∧
    chk pad 0x10000000001FFFFF 2 2 false = .error ⟨.bound, 0, 0⟩ ∧ chk pad 0x10000000001FFFFE 2 2 false = .ok (.loc (spLoc 0 0x1FFFFE)) ∧
    quiet (cur pad) = true ∧ got (exec (.ldw 10 7 0 0 0) pad) (fun t => (cur t).run) = some .stopped ∧
    got (exec (.sth 10 7 0 0) pad) (fun t => (cur t).run) = some .stopped ∧ bitsAt (0x1000000000200000 : Word) 21 39 ≠ 0 := by decide +kernel

/-- The checks where they meet, and the permissions of a 512 MiB leaf and of a 64 KiB leaf. -/
theorem wit_AddressChecks_rows : let bad := fun (c : Code) (r : Except WFail Where) => decide (r = .error ⟨c, 0, 0⟩)
    bad .addrspace (chk pad 0x7000000000000000 1 1 false) = true ∧
    bad .addrspace (chk pad 0x2000000001000000 1 1 false) = true ∧ bad .addrspace (chk pad 0x3000000010000000 1 1 false) = true ∧
    bad .addrspace (chk pad 0x4000000040000000 1 1 false) = true ∧ bad .addrspace (chk pad 0x6000000010000000 1 1 false) = true ∧
    bad .addrspace (chk pad 0x0001000000000000 1 1 false) = true ∧ bad .addrspace (chk pad 0x5100000000000000 1 1 false) = true ∧
    bad .bound (chk pad 0x300000000C000000 1 1 false) = true ∧ bad .bound (chk pad 0x400000000C000001 8 8 false) = true ∧
    bad .bound (chk pad 0x6000000001000000 1 1 false) = true ∧ bad .bound (chk pad 0x2000000000FFFFFF 2 2 true) = true ∧
    bad .align (chk pad 0x2000000000000001 2 2 true) = true ∧ bad .align (chk pad 0x300000000BFFFFF9 4 4 true) = true ∧
    bad .align (chk mapped 0x0000000000000002 4 4 true) = true ∧ bad .align (chk mapped 0x5000000000000002 4 4 true) = true ∧
    chk pad 0x300000000BFFFFFF 1 1 false = .ok (.loc (ringLoc 0 0xBFFFFFF)) ∧ chk pad 0x4000000000000080 8 8 false = .ok (.loc (ringLoc 0 0x80)) ∧
    chk pad 0x6000000000000480 8 8 false = .ok (.loc (winLoc 0 0 0x480)) ∧ chk pad 0x5000000000000008 8 8 false = .ok .far ∧
    (spaceRow pad 0x4000000000000000).isSome = true ∧
    (let leaf := fun (v : Nat) (w : Bool) => chk (wr mapped 0x210000 8 v) 0x0000000000000008 8 8 w
     let at1 := fun (v : Nat) (w : Bool) => chk (wr (wr mapped 0x210000 8 0x220001) 0x220000 8 v) 0x0000000000000008 8 8 w
     leaf 0x3 false = .error ⟨.permr, 2, 0⟩ ∧ leaf 0x17 true = .error ⟨.pgcow, 2, 0⟩ ∧ leaf 0x7 true = .error ⟨.permw, 2, 0⟩ ∧
     leaf 0 false = .error ⟨.pgnp, 2, 0⟩ ∧ at1 0x7 true = .error ⟨.permw, 1, 0⟩ ∧ leaf 0xF true = .ok (.loc 8) ∧ at1 0x7 false = .ok (.loc 8)) := by
  repeat' apply And.intro
  all_goals decide +kernel

/-- A geometry register: 128 lines, stride 128 bytes (R177). -/
def geo : State := rigX [(5, 0x1000000000000000), (6, 0x80), (7, 0x2000000000010000)]

theorem wit_TileLoads : Issues geo (opTld 15 0 5 6 0) ∧ Issues geo (opTldt 0 0 5 6 0) ∧ Issues geo (opBld 0 5 6 0 0) ∧ Issues (modCur geo (fun c => { c with smstat := 0x200000 })) (opBld 0 5 6 1 0) ∧ Issues geo (opTld 1 15 7 6 0) ∧
    (geoLines 0x1000000000000000 0x80 .tld).getD 127 0 = 0x1000000000003F80 ∧
    got (exec (.tld 15 0 5 6 0) geo) (fun t => (cur t).land.map (fun l => (l.at_, l.dst, l.own))) = some [(12, .tile 15 0, true)] ∧
    got (exec (.tld 1 15 7 6 0) geo) (fun t => t.reqs.length) = some 128 ∧
    (let s := { geo with uecc := [spLoc 0 0x80] }
     Issues s (opTld 15 0 5 6 0) ∧ errIn s (locOf s 0x1000000000000080 128 false) 128 ≠ none) := by
  repeat' apply And.intro
  all_goals decide +kernel

theorem wit_TileStores : Issues geo (opTst 0 5 6 0) ∧ (opTst 0 5 6 0).on (cur geo) = true ∧ Issues geo (opTst 0 7 6 0) ∧
    (geoLines 0x1000000000000000 0x80 .tst).getD 1 0 ≠ (geoLines 0x1000000000000000 0x80 .tst).getD 2 0 ∧
    got (exec (.tst 0 7 6 0) geo) (fun t => t.reqs.length) = some 128 := by
  repeat' apply And.intro
  all_goals decide +kernel

/-- x5 points into the window, x6 names a reply slot of the frame, x8 and x9 are an atomic's address and attribute, x12 and x13 with reply slot 16. -/
def far : State := rigX [(5, 0x2000000000000200), (6, 0x6000000000000180), (8, 0x2000000000000200), (9, 3), (13, 0x1000003), (12, 0x2000000000000200)]

theorem wit_RemoteRequests : Issues far (opRld 6 5 0 1 31 0) ∧ GoesOut far 0x2000000000000200 8 8 false (.loc (winLoc 0 0 0x200)) ∧
    (let s := rigX [(5, 0x1000000000000100), (6, 0x6000000000000180)]
     Issues s (opRld 6 5 3 0 0 0) ∧ chk s 0x1000000000000100 64 64 false = .ok (.loc (spLoc 0 0x100)) ∧ errIn s (spLoc 0 0x100) 64 = none ∧
     got (exec (.rld 6 5 3 0 0 0) s) (fun t => t.comps.map (fun c => (c.n, c.loc))) = some [(64, winLoc 0 0 0x180)]) ∧
    Issues far (opRst 6 5 3 0 0 0) ∧ GoesOut far 0x2000000000000200 8 8 true (.loc (winLoc 0 0 0x200)) ∧
    got (exec (.rld 6 5 0 1 31 0) far) (fun t => (t.reqs.map (·.slack), t.reqs.map (·.dst), fld (cur t).joincnt 0 16)) =
      some ([3968], [.slot (winLoc 0 0 0x180) 8 fr1], 1) ∧
    got (exec (.rst 6 5 3 0 0 0) far) (fun t => (t.reqs.map (·.posted), (cur t).trec.committed, fld (cur t).joincnt 0 16)) = some ([true], true, 0) := by
  unfold GoesOut
  repeat' apply And.intro
  all_goals decide +kernel

theorem wit_AtomicsIssue : Issues far (opAtomic true (amoIn 10 8 4) (.land 2) 0) ∧ amoAddr far (amoIn 10 8 4 far) = .ok (.loc (winLoc 0 0 0x200)) ∧
    Issues far (opAtomic true (amoIn 10 12 4) .slot 0) ∧ Issues far (opAtomic true (amoIn 10 8 23) .posted 0) ∧
    got (exec (.amo 10 8 4 2 0) far) (fun t => (t.reqs.map (·.h), t.reqs.map (·.dst), (cur t).land.map (·.dst))) =
      some ([4], [.land 1 0], [.x 10 8 false]) ∧
    got (exec (.amoF 10 12 4 0) far) (fun t => (t.reqs.map (·.dst), fld (cur t).joincnt 0 16)) = some ([.slot (winLoc 0 0 0x180) 8 fr1], 1) ∧
    got (exec (.amoN 10 8 4 0) far) (fun t => t.reqs.map (·.posted)) = some [true] := by
  repeat' apply And.intro
  all_goals decide +kernel

/-- x8 points at the own scratchpad, where a word stands; x13 adds a reply slot. -/
def nearby : State := wr (rigX [(8, 0x1000000000000200), (9, 3), (10, 5), (12, 0x1000000000000200), (13, 0x1000003)]) (spLoc 0 0x200) 8 0x100

theorem wit_AtomicsIssue_own : Issues nearby (opAtomic true (amoIn 10 8 4) (.land 2) 0) ∧ Issues nearby (opAtomic true (amoIn 10 12 4) .slot 0) ∧
    amoAddr nearby (amoIn 10 8 4 nearby) = .ok (.loc (spLoc 0 0x200)) ∧ amoN 4 3 = 8 ∧ errIn nearby (spLoc 0 0x200) 8 = none ∧ frameHits nearby (spLoc 0 0x200) 8 = [] ∧
    got (exec (.amo 10 8 4 2 0) nearby) (fun t => (rd t (spLoc 0 0x200) 8, (cur t).land.map (fun l => (l.at_, l.parts)))) = some (0x105, [(4, [⟨0, some 0x100⟩])]) ∧
    got (exec (.amoF 10 12 4 0) nearby) (fun t => (rd t (spLoc 0 0x200) 8, t.comps.map (fun c => (c.loc, c.v)))) = some (0x105, [(winLoc 0 0 0x180, 0x100)]) ∧
    got (exec (.amoN 10 8 0 0) nearby) (fun t => (t.comps.length, t.reqs.length)) = some (0, 0) := by
  unfold Issues
  repeat' apply And.intro
  all_goals decide +kernel

/-- A poll that has read phase 2, beside the wait for phase 1. -/
def polled : State :=
  { rig (fun c => { c with ctime := 9, mwait := .bw 3 1 0x2000000000000200 9 4 (some 1) }) with
    reqs := [{ id := 1, core := 0, kind := .load, addr := 0x2000000000000200, loc := some (winLoc 0 0 0x200), n := 8, dst := .poll, stage := .done, res := 0x200000000 }] }

/-- Channel 1 of core 0 has a program with identifier 4, by which a wait goes on as long as it is at work. -/
def copying4 (w : Wait) : State := rig (fun c => { c with mwait := w, ch := [(1, { live := some { id := 4, chan := 1, f := [(8, 1), (11, 1), (14, 1), (17, 1), (20, 1), (23, 1)], slack := 0, ctx := 1 } })] })

theorem wit_FencesDrainsWaits : Open far 3 0 ∧ RoomFor far 0 ∧ chk far 0x2000000000000200 8 16 false = .ok (.loc (winLoc 0 0 0x200)) ∧
    (findReq polled 1).isSome = true ∧ polled.reqs.all (fun r => decide (reqScope r ≤ 4)) = true ∧
    got (exec (.fence 4 0) far) (fun t => (cur t).mwait) = some (.reqs []) ∧ got (exec (.drainR 0) far) (fun t => (cur t).mwait) = some (.acks []) ∧
    got (exec (.drain 1 0) (copying4 .none)) (fun t => (cur t).mwait) = some (.drain [4]) ∧ got (exec (.drain 3 0) (copying4 .none)) (fun t => (cur t).mwait) = some (.drain []) ∧
    got (exec (.bwait 3 5 7 4 0) far) (fun t => ((cur t).mwait, t.reqs.map (·.dst))) = some (.bw 3 0 0x2000000000000200 1 4 (some 1), [.poll]) ∧
    got (exec (.bwaitPollReply 1) polled) (fun t => ((cur t).mwait, (cur t).p, t.reqs.length)) = some (.none, 9, 0) ∧
    got (exec (.fenceComplete 0) (rig (fun c => { c with mwait := .reqs [4] }))) (fun t => (cur t).mwait) = some .none ∧
    got (exec (.fenceComplete 0) (copying4 (.reqs [4]))) (fun t => (cur t).mwait) = some (.reqs [4]) ∧
    got (exec (.drainComplete 0) (rig (fun c => { c with mwait := .drain [4] }))) (fun t => (cur t).mwait) = some .none ∧
    got (exec (.drainComplete 0) (rig (fun c => { c with mwait := .acks [4] }))) (fun t => (cur t).mwait) = some .none := by
  unfold Open RoomFor
  repeat' apply And.intro
  all_goals decide +kernel

/-! ## At the homes (R187 to R195) -/

/-- An atomic with handler h on n bytes has reached its home, whose 128 bytes hold v. -/
def atHome (h n : Nat) (op op2 : Word) (v : Nat) : State :=
  wr { rig id with reqs := [{ id := 1, core := 0, kind := .amo, addr := 0x2000000000000200, loc := some (winLoc 0 0 0x200), n := n, h := h, op := op
                              op2 := op2, ctx := 1, go := true }], nextId := 2 } (winLoc 0 0 0x200) 128 v

/-- Each handler, run on an old value and two operands, leaves the new value and answers the result. -/
def handles (l : List (Instr × (Nat × Nat) × (Nat × Word × Word) × (Nat × Nat))) : Bool :=
  l.all (fun e => decide (got (exec e.1 (atHome e.2.1.1 e.2.1.2 e.2.2.1.2.1 e.2.2.1.2.2 e.2.2.1.1))
    (fun t => (rd t (winLoc 0 0 0x200) e.2.1.2, (t.reqs.map (fun r => (r.stage, r.res.toNat))))) = some (e.2.2.2.1, [(.done, e.2.2.2.2)])))

theorem test_handlers_word : handles [(.amoLoad 1 1, (0, 8), (0x1234, 7, 0), (0x1234, 0x1234)), (.amoStore 1 1, (1, 2), (0x1234, 7, 0), (7, 0)),
    (.amoSwap 1 1, (2, 8), (0x1234, 7, 0), (7, 0x1234)), (.amoCas 1 1, (3, 4), (9, 7, 9), (7, 9)), (.amoCas 1 1, (3, 4), (9, 7, 8), (9, 9)),
    (.amoAdd 1 1, (4, 4), (0xFFFFFFFF, 2, 0), (1, 0xFFFFFFFF)), (.amoSaturatingAdd 1 1, (5, 4), (0x7FFFFFFF, 1, 0), (0x7FFFFFFF, 0x7FFFFFFF)),
    (.amoSaturatingAdd 1 1, (5, 4), (0x80000000, 1, 0), (0x80000000, 0x80000000)), (.amoAnd 1 1, (6, 1), (0xF0, 0x3C, 0), (0x30, 0xF0)),
    (.amoOr 1 1, (7, 1), (0xF0, 0x3C, 0), (0xFC, 0xF0)), (.amoXor 1 1, (8, 1), (0xF0, 0x3C, 0), (0xCC, 0xF0)),
    (.amoSignedMin 1 1, (9, 4), (0x80000001, 5, 0), (0x80000001, 0x80000001)), (.amoSignedMax 1 1, (10, 4), (0x80000001, 5, 0), (5, 0x80000001))] = true := by
  decide +kernel

theorem test_handlers_more : handles [(.amoUnsignedMin 1 1, (11, 4), (0x80000001, 5, 0), (5, 0x80000001)),
    (.amoUnsignedMax 1 1, (12, 4), (0x80000001, 5, 0), (0x80000001, 0x80000001)), (.fetchIncrementWithBound 1 1, (13, 4), (3, 3, 0), (3, 3)),
    (.fetchIncrementWithBound 1 1, (13, 4), (2, 3, 0), (3, 2)), (.fetchDecrementWithFloor 1 1, (14, 8), (3, 3, 0), (3, 3)),
    (.fetchDecrementWithFloor 1 1, (14, 8), (4, 3, 0), (3, 4)),
    (.packedSatAddInt16 1 1, (20, 8), (0x7FFF000180000000, 0x000100010001FFFF, 0), (0x7FFF00028000FFFF, 0x7FFF000180000000)),
    (.packedSatAddInt8 1 1, (21, 8), (0x7F, 1, 0), (0x7F, 0x7F)), (.maxWithIndex 1 1, (22, 8), (0x500000007, 0x300000007, 0), (0x300000007, 0x500000007)),
    (.bitTestAndSet 1 1, (25, 8), (1, 65, 0), (3, 1))] = true := by decide +kernel

theorem wit_AtomicHandlers : let s := atHome 5 4 1 0 0x7FFFFFFF
    amoRow (.amoSaturatingAdd 1 0) = some (5, 1, 0) ∧ (findReq s 1).map (canPerform s) = some true ∧
      (findReq s 1).map (fun r => reqLoc s r) = some (.ok (winLoc 0 0 0x200)) ∧ (findReq s 1).map (fun r => (r.dst, r.kind)) = some (.none, .amo) ∧ errIn s (winLoc 0 0 0x200) 128 = none ∧
      frameHits s (winLoc 0 0 0x200) 128 = [] ∧ frameHits s (winLoc 0 0 0x17F) 1 = [(1, 0, fr1)] := by decide +kernel

/-- R188, R190, R193, R194, R111: the barrier's last arrival, one with overflow, an arrival of 0; the queue object; the wide add; the 128-bit
compare and swap; the census merge. -/
theorem wit_ObjectHandlers : handles [(.barrierArrive 1 1, (15, 16), (0xF00010002, 1, 0), (2, 0xF00010002 + 2 ^ 38)),
    (.barrierArrive 1 1, (15, 16), (0x00010002, 3, 0), (0x0000021100000002, 0x00010002 + 3 * 2 ^ 37)), (.barrierArrive 1 1, (15, 16), (0x00010002, 0, 0), (0x00010002, 0x00010002)),
    (.barrierArrive 1 1, (15, 16), (0x00010003, 1, 0), (0x00020003, 0x00010003)),
    (.queuePush 1 1, (18, 128), (0x900000002, 77, 0), (0xA00000002 + 77 * 2 ^ (512 + 64), 0x900000002)), (.queuePush 1 1, (18, 128), (0x900000001, 77, 0), (0x900000001, 0x900000001)),
    (.queuePop 1 1, (19, 128), (0x700000007, 0, 0), (0x700000007, 0x700000007 * 2 ^ 64)),
    (.queuePop 1 1, (19, 128), (0x800000007 + 9 * 2 ^ (512 + 448), 0, 0), (0x800000008 + 9 * 2 ^ (512 + 448), 9 + 0x800000007 * 2 ^ 64)),
    (.wideAdd 1 1, (23, 8), (0x7FFFFFFFFFFFFFFF, 5, 0), (0x7FFFFFFFFFFFFFFF, 0x7FFFFFFFFFFFFFFF)), (.wideAdd 1 1, (23, 8), (3, 0x80000000, 0), (0x8000000000000000, 3)),
    (.cas128 1 1, (24, 16), (0, 5, 6), (6 * 2 ^ 64 + 5, 0)), (.cas128 1 1, (24, 16), (1, 5, 6), (1, 1)),
    (.censusMinMerge 1 1, (26, 16), (0x4705, 0x4306, 0), (0x4306, 0x4705))] = true := by decide +kernel

/-- A barrier that expects two, of which one has arrived, with WAKE and reserved bits; an arrival of another package. -/
theorem wit_ObjectHandlers_wake : let o : Nat := 0xAB000000 * 2 ^ 32 + 0xE0 * 2 ^ 32 + 0x10002 + 0x6000000000000200 * 2 ^ 64
    let s := atHome 15 16 1 0 o
    let far := { s with reqs := s.reqs.map (fun r => { r with dst := .remote 0 }) }
    frameOk (ctxD s 1) 0 (frameCanon 0 0x6000000000000200) = true ∧
    got (exec (.barrierArrive 1 1) s) (fun t => (rd t (winLoc 0 0 0x200) 8, t.comps.map (fun c => (c.n, c.frame)))) =
      some (0xAB0000E100000002, [(0, 0x6000000000000200)]) ∧
    got (exec (.barrierArrive 1 1) far) (fun t => (t.comps.length, t.reqs.map (fun r => (r.h, r.addr)))) = some (0, [(15, 0x2000000000000200), (17, 0x6000000000000200)]) := by
  repeat' apply And.intro
  all_goals decide +kernel

/-- A record that waits for two joins at the frame of a join decrement, and a completion that owes the last one. -/
def joining (j : Nat) : State :=
  wr (wr (wr { rig id with
    reqs := [{ id := 1, core := 0, kind := .amo, addr := fr1, loc := some (winLoc 0 0 0x100), n := 64, h := 17, ctx := 1, go := true }]
    comps := [{ id := 2, what := .done, loc := winLoc 0 0 0x180, n := 8, v := 0x55, frame := fr1, die := 0, ctx := 1 }] }
    (winLoc 0 0 0x100) 8 0x104000000000020) (winLoc 0 0 0x108) 8 0x6000000000000100) (winLoc 0 0 0x110) 8 j

theorem wit_JoinAndEventPosts_dec : let s := joining 2
    (findReq s 1).map (canPerform s) = some true ∧ (findReq s 1).map (fun r => reqLoc s r) = some (.ok (winLoc 0 0 0x100)) ∧
    (∀ c ∈ s.comps, c.id ≠ 1) ∧ 1 < (rdRec s (frameHome s 1 (dieOf 0) (frameCanon 0 fr1))).join ∧
    got (exec (.joinDec 1 1) s) (fun t => ((rdRec t (winLoc 0 0 0x100)).join, t.reqs.map (·.res))) = some (1, [2]) := by
  repeat' apply And.intro
  all_goals decide +kernel

theorem wit_JoinAndEventPosts_last : let s := joining 1
    (s.comps.find? (fun x => x.id = 2)).isSome = true ∧ performed s [] = true ∧ (rdRec s (winLoc 0 0 0x100)).kind ≠ 3 ∧ (rdRec s (winLoc 0 0 0x100)).join = 1 ∧
    swImage s 1 0 = none ∧ (rqOf (clu s 0) 1).length < 32 ∧ (ringOf (clu s 0) 1).cnt = 0 ∧
    got (exec (.joinDec 2 1) s) (fun t => ((rqOf (clu t 0) 1).map (·.pc), rd t (winLoc 0 0 0x180) 8, t.comps.length)) = some ([0x20], 0x55, 0) := by
  repeat' apply And.intro
  all_goals decide +kernel

/-- R191: an event post to word 7 of its own cluster. -/
theorem wit_JoinAndEventPosts_event : let s := { rig id with reqs := [{ id := 1, core := 0, kind := .amo, addr := 0x2000000000000000, loc := some (evLoc 0), n := 8, h := 27
                                                                        op := 0x7000000F0, ctx := 1, go := true }], clus := [(0, { ev := [(7, 1)] })] }
    (findReq s 1).map (canPerform s) = some true ∧ postClu 0 0x2000000000000000 = 0 ∧ clusterOwned s 1 0 = true ∧
    got (exec (.eventPost 1 1) s) (fun t => (evWord t 0 7, evWord (newCcy t) 0 7)) = some (1, 0xF1) := by
  repeat' apply And.intro
  all_goals decide +kernel

/-- A load, a store, a load to a reply slot, an acknowledged store with an exhausted slack, a reply, a held release, an acquire. -/
def traffic (f : Req → Req) (c : Core → Core) : State :=
  wr { rig c with reqs := [f { id := 1, core := 0, kind := .load, addr := 0x2000000000000200, loc := some (winLoc 0 0 0x200), n := 8, ctx := 1, go := true }], nextId := 2 }
    (winLoc 0 0 0x200) 8 0x77

theorem wit_MemoryPerforms : (let s := traffic id id; (findReq s 1).map (canPerform s) = some true) ∧
    got (exec (.memoryLoadPerform 1 1) (traffic id id)) (fun t => t.reqs.map (fun r => (r.stage, r.res))) = some [(.done, 0x77)] ∧
    got (exec (.memoryStorePerform 1 1) (traffic (fun r => { r with kind := .store, wr := bytesOf 0 8 0x1122334455667788 }) id))
      (fun t => (rd t (winLoc 0 0 0x200) 8, t.reqs.map (fun r => r.stage))) = some (0x1122334455667788, [.done]) ∧
    got (exec (.memoryLoadPerform 1 1) (traffic (fun r => { r with dst := .slot (winLoc 0 0 0x180) 8 fr1 }) id))
      (fun t => (t.reqs.length, t.comps.map (fun c => (c.loc, c.v)))) = some (0, [(winLoc 0 0 0x180, 0x77)]) ∧
    got (exec (.acknowledgementArrival 1) (traffic (fun r => { r with stage := .done, exh := true }) (fun c => { c with slkstat := 0xFFFFFFFF })))
      (fun t => (t.reqs.length, (cur t).slkstat)) = some (0, 0xFFFFFFFF) ∧
    got (exec (.replyArrival 1) (traffic (fun r => { r with stage := .done, dst := .land 5 0, res := 9 }) (fun c => { c with land := [{ id := 5, at_ := 90, dst := .x 10 8 false, parts := [⟨1, none⟩], room := 8 }] })))
      (fun t => (cur t).land.map (·.parts)) = some [[⟨1, some 9⟩]] ∧
    got (exec (.releaseIssue 1) (traffic (fun r => { r with rel := true, deps := [7] }) id)) (fun t => t.reqs.map (·.deps)) = some [[]] ∧
    got (exec (.acquirePerformed 1) (traffic (fun r => { r with acq := true, stage := .done }) id)) (fun t => t.reqs.map (·.acq)) = some [false] := by
  repeat' apply And.intro
  all_goals decide +kernel

/-! ## Vectors (R204 to R231) -/

/-- Four 32-bit elements. -/
def quad (a b c d : Nat) : VReg := BitVec.ofNat 4096 (a + b * 2 ^ 32 + c * 2 ^ 64 + d * 2 ^ 96)

/-- SEW 32, LMUL 1, VL 4; v1 and v2 hold numbers, v1 a NaI in element 2, and v0 masks element 2. -/
def vecs : State := rig (fun c => { c with
  vtype := 2, vl := 4, v := [(0, 11), (1, quad 5 0xFFFFFFFF 0x80000000 7), (2, quad 3 2 1 0x7FFFFFFF)], x := [(5, 9), (6, 1)] })

/-- The first four elements of width w at register d, after each instruction. -/
def elems (s : State) (w d : Nat) (l : List (Instr × List Nat)) : Bool :=
  l.all (fun e => decide (got (exec e.1 s) (fun t => (List.range 4).map (elemLater (cur t) d w)) = some e.2))

theorem test_vector_arith : elems vecs 32 4 [(.vadd 4 1 2 0 0 0, [8, 1, 0x80000001, 0x80000006]), (.vsub 4 1 2 0 0 0, [2, 0xFFFFFFFD, 0x7FFFFFFF, 0x80000008]),
    (.vand 4 1 2 0 0 0, [1, 2, 0, 7]), (.vor 4 1 2 0 0 0, [7, 0xFFFFFFFF, 0x80000001, 0x7FFFFFFF]), (.vxor 4 1 2 0 0 0, [6, 0xFFFFFFFD, 0x80000001, 0x7FFFFFF8]),
    (.vsll 4 1 2 0 0 0, [40, 0xFFFFFFFC, 0, 0x80000000]), (.vsrl 4 1 2 0 0 0, [0, 0x3FFFFFFF, 0x40000000, 0]), (.vsra 4 1 2 0 0 0, [0, 0xFFFFFFFF, 0xC0000000, 0]),
    (.vadd 4 1 5 1 0 0, [14, 8, 0x80000009, 16]), (.vadd 4 1 63 2 1 0, [4, 0xFFFFFFFE, 0, 6])] = true := by decide +kernel

theorem test_vector_mul : elems vecs 32 4 [(.vmul 4 1 2 0 0 0, [15, 0xFFFFFFFE, 0x80000000, 0x7FFFFFF9]), (.vmulh 4 1 2 0 0 0 0, [0, 0xFFFFFFFF, 0xFFFFFFFF, 3]),
    (.vmulh 4 1 2 0 0 1 0, [0, 1, 0, 3]), (.vmin 4 1 2 0 0 0, [3, 0xFFFFFFFF, 0x80000000, 7]), (.vmax 4 1 2 0 0 0, [5, 2, 1, 0x7FFFFFFF]),
    (.vminu 4 1 2 0 0 0, [3, 2, 1, 7]), (.vmaxu 4 1 2 0 0 0, [5, 0xFFFFFFFF, 0x80000000, 0x7FFFFFFF]), (.vdiv 4 1 2 0 0, [1, 0, 0x80000000, 0])] = true := by
  decide +kernel

theorem test_vector_tensor : elems vecs 32 4 [(.vsadd 4 1 2 0 0 0 0, [8, 1, 0x80000000, 0x7FFFFFFF]), (.vssub 4 1 2 0 0 0 0, [2, 0xFFFFFFFD, 0x80000000, 0x80000008]),
    (.vsmul 4 1 2 0 0 0, [0, 0, 0x80000000, 7]), (.vshr 4 1 1 1 0 0 0, [2, 0, 0x80000000, 4]), (.vmerge 4 1 2 0 0, [3, 2, 0x80000000, 0x7FFFFFFF])] = true ∧
    elems vecs 64 4 [(.vwadd 4 1 2 0 0 0 0, [8, 1, 0x8000000000000000, 0x80000006]), (.vwmul 4 1 2 0 0 0 0, [15, 0xFFFFFFFFFFFFFFFE, 0x8000000000000000, 0x37FFFFFF9]),
      (.vwmacc 4 1 2 0 0 0 0, [15, 0xFFFFFFFFFFFFFFFE, 0x8000000000000000, 0x37FFFFFF9])] = true := by decide +kernel

theorem test_vector_mask : elems vecs 1 4 [(.vcmp 4 1 2 0 2 0, [0, 1, 1, 1]), (.vcmp 4 1 0 0 6 0, [0, 0, 1, 0]), (.vmlog 4 0 1 0 0, [1, 0, 0, 0]), (.vmlog 4 0 1 6 0, [1, 0, 0, 0])] = true ∧
    elems vecs 32 4 [(.vredsum 4 1 2 0 0 1 0, [14, 0, 0, 0]), (.vredsum 4 1 2 0 0 0 0, [0x80000000, 0, 0, 0]), (.vredmax 4 1 2 0 1 0, [7, 0, 0, 0]),
      (.vredmin 4 1 2 0 1 0, [0xFFFFFFFF, 0, 0, 0]), (.vscan 4 1 2 0 0 1 0, [8, 7, 0, 14])] = true := by decide +kernel

theorem test_vector_permute : elems vecs 32 4 [(.vslideup 4 1 6 0 0 0, [0, 5, 0xFFFFFFFF, 0x80000000]), (.vslidedn 4 1 1 1 0 0, [0xFFFFFFFF, 0x80000000, 7, 0]),
    (.vgath 4 1 2 0 0, [7, 0x80000000, 0xFFFFFFFF, 0]), (.vcompress 4 1 0 0, [5, 0xFFFFFFFF, 7, 0]), (.vsplat 4 5 1 0, [9, 9, 0, 9]),
    (.vmov 4 1 0 0, [5, 0xFFFFFFFF, 0x80000000, 7]), (.vmvsx 4 5 6 0, [0, 9, 0, 0])] = true ∧
    leaves vecs [(.vmvxs 10 1 6 0, 10, 0xFFFFFFFFFFFFFFFF), (.vsetvlRead 10 0, 10, 0x200000004), (.vsetvl 10 5 6 0, 10, 9)] = true := by decide +kernel

/-- The worked values of chapter 08 for the routines. -/
theorem test_vector_routines : let s := rig (fun c => { c with vtype := 2, vl := 4, v := [(1, quad 0xFFFFFFF0 4 3 0xFFFFFFF8)] })
    got (exec (.vexp 4 2 0xFC 0 0) (rig (fun c => { c with vtype := 1, vl := 4, v := [(2, quad 0xFFFFFFF0 4 3 0xFFFFFFF8)] }))) (fun t => (elemLater (cur t) 4 16 0, elemLater (cur t) 4 16 3)) = some (12055, 19876) ∧
    got (exec (.vrsqrt 4 1 0 0 0) s) (fun t => (elemLater (cur t) 4 32 1, elemLater (cur t) 5 32 1)) = some (0x3FFFFF2A, 0xFFFFFFFF) ∧
    got (exec (.vrecip 4 1 0 0 0) s) (fun t => elemLater (cur t) 4 32 2) = some 0x2AAAAAA4 := by decide +kernel

theorem wit_VectorResults : (∃ o, slotOf 4 (.vsadd 4 1 2 0 1 0 0) = some o ∧ (vecRow vecs (.vsadd 4 1 2 0 1 0 0)).isSome = true ∧ Issues vecs o ∧ o.on (cur vecs) = true ∧
      (vcfg (cur vecs)).vl ≠ 0) ∧
    (∃ o, slotOf 4 (.vrsqrt 6 1 0 0 0) = some o ∧ Issues vecs o) ∧ (∃ o, slotOf 4 (.vcompress 4 1 0 0) = some o ∧ Issues vecs o) ∧
    (∃ o, slotOf 4 (.vadd 4 1 2 0 0 0) = some o ∧ Issues (rig id) o ∧ (vcfg (cur (rig id))).vl = 0) ∧
    (let s := modCur vecs (fun c => { c with vtype := 0x3F82 })
     (vcfg (cur s)).sce = true ∧ (vcfg (cur s)).sci = 63 ∧ (∀ l ∈ (cur s).land, l.id < s.nextId) ∧ (∃ o, slotOf 4 (.vsadd 4 1 2 0 0 0 0) = some o ∧ Issues s o) ∧
     got (exec (.vsadd 4 1 2 0 0 0 0) s) (fun t => scaleLater (cur t) 63) = some (2 ^ 32 + 2 ^ 48)) := by
  refine ⟨⟨_, rfl, ?_⟩, ⟨_, rfl, ?_⟩, ⟨_, rfl, ?_⟩, ⟨_, rfl, ?_⟩, ?_, ?_, ?_, ⟨_, rfl, ?_⟩, ?_⟩
  all_goals repeat' apply And.intro
  all_goals decide +kernel

/-- R205, R212: a reserved bit and LMUL code 4 are illegal; VL is cut at VLMAX. -/
theorem wit_VectorMoves : Open vecs 4 0 ∧ (vcfg (cur vecs)).vill = false ∧ (vcfg (cur vecs)).em8 (vcfg (cur vecs)).sew ≤ 64 ∧ (2 : BitVec 5).toNat % (vcfg (cur vecs)).regs 32 = 0 ∧
    bitsAt (0x4000 : Word) 14 50 ≠ 0 ∧ bitsAt (0x10 : Word) 2 3 = 4 ∧
    (let s := rigX [(5, 5000), (6, 0xE), (7, 0x4000), (8, 127), (9, 128)]
     got (exec (.vsetvl 10 5 6 0) s) (fun t => ((cur t).vl, (cur t).vtype)) = some (1024, 0xE) ∧
     got (exec (.vsetvl 10 5 7 0) s) (fun t => ((cur t).vl, (cur t).vtype)) = some (0, 0x80000000) ∧
     got (exec (.vsetvli 10 5 0x42 0) s) (fun t => ((cur t).vl, (cur t).vtype)) = some (128, 0x42) ∧
     got (exec (.vsetivli 10 255 3 0) s) (fun t => ((cur t).vl, (cur t).vtype)) = some (64, 3)) ∧
    got (exec (.vmvxs 10 1 9 0) (modCur vecs (fun c => { c with x := [(9, 128)] }))) (fun t => rx (settled t) 10) = some 0 := by
  unfold Open
  repeat' apply And.intro
  all_goals decide +kernel

/-- Elements 0, 1 and 3 are active; x7 points at the scratchpad, x8 is a stride, x9 the last word of it, x11 into the window. -/
def vmem : State := wr (modCur vecs (fun c => { c with x := [(7, 0x1000000000000100), (9, 0x10000000001FFFFC), (11, 0x2000000000000200), (12, 0x1000000000000100), (13, 8)] }))
  (spLoc 0 0x100) 16 0x44444444333333332222222211111111

theorem wit_VectorMemory : (∃ o, slotOf 4 (.vld 4 7 0 1 0) = some o ∧ Issues vmem o ∧ (vmemRow vmem (.vld 4 7 0 1 0)).isSome = true) ∧
    (∃ o, slotOf 4 (.vlds 4 12 0 0 0) = some o ∧ Issues vmem o) ∧ (∃ o, slotOf 4 (.vldx 4 11 3 0 0 0) = some o ∧ Issues vmem o) ∧
    (∃ o, slotOf 4 (.vldff 4 9 0 0 0) = some o ∧ Issues vmem o) ∧ (∃ o, slotOf 4 (.vst 1 7 1 0) = some o ∧ Issues vmem o) ∧
    (∃ o, slotOf 4 (.vsts 1 12 0 0) = some o ∧ Issues vmem o) ∧ (∃ o, slotOf 4 (.vstx 1 11 3 0 0) = some o ∧ Issues vmem o) ∧
    got (exec (.vldff 4 9 0 0 0) vmem) (fun t => (cur t).vl) = some 1 ∧
    got (exec (.vld 4 7 0 1 0) vmem) (fun t => (cur t).land.map (fun l => (l.at_, l.dst))) = some [(4, .vec 4 32 [] [(0, 0, 0), (1, 0, 4), (3, 0, 12)])] ∧
    got (exec (.vst 1 7 1 0) vmem) (fun t => rd t (spLoc 0 0x100) 16) = some 0x0000000733333333FFFFFFFF00000005 ∧
    got (exec (.vsts 1 12 0 0) vmem) (fun t => rd t (spLoc 0 0x118) 4) = some 7 ∧
    got (exec (.vstx 1 11 3 0 0) vmem) (fun t => (t.reqs.map (fun r => (r.addr, r.wr.length)))) ≠ none := by
  refine ⟨⟨_, rfl, ?_⟩, ⟨_, rfl, ?_⟩, ⟨_, rfl, ?_⟩, ⟨_, rfl, ?_⟩, ⟨_, rfl, ?_⟩, ⟨_, rfl, ?_⟩, ⟨_, rfl, ?_⟩, ?_, ?_, ?_, ?_, ?_⟩
  all_goals repeat' apply And.intro
  all_goals decide +kernel

/-- R76, R216: 8-bit elements from 16-bit values 1000, -2, 3 and NaI: 1000 needs 11 bits, so the census is 21 and the
shift 3, which the exponent takes. -/
def clip : State := rig (fun c => { c with vtype := 0, vl := 4, v := [(2, BitVec.ofNat 4096 (1000 + 0xFFFE * 2 ^ 16 + 3 * 2 ^ 32 + 0x8000 * 2 ^ 48))] })

theorem wit_NarrowingThroughScale : Issues clip (opVnclip 4 4 2 1 0 0 0 0 0) ∧ (opVnclip 4 4 2 1 0 0 0 0 0).on (cur clip) = true ∧ (vcfg (cur clip)).vl ≠ 0 ∧
    (∀ l ∈ (cur clip).land, l.id < clip.nextId) ∧ ([0, 1, 2, 3].map (fun e => tval 16 false (elN (vgrp clip (vcfg (cur clip)) 2 16) 16 e))) = [some 1000, some (-2), some 3, none] ∧
    got (exec (.vnclip 4 2 1 0 0 0 0 0) clip) (fun t => ([0, 1, 2, 3].map (elemLater (cur t) 4 8))) = some [125, 0, 0, 128] ∧
    got (exec (.vnclip 4 2 1 0 0 0 0 0) clip) (fun t => (scExp (scaleLater (cur t) 2), scCen (scaleLater (cur t) 2), scPois (scaleLater (cur t) 2))) = some (3, 21, 1) := by
  repeat' apply And.intro
  all_goals decide +kernel

/-- Banks 0 to 31 are allotted. -/
def banks : State := rig (fun c => { c with accAl := 0xFFFFFFFF, acc := [(2, 5)], t := [(1, 7)], x := [(6, 5 * 128 + 5 * 4096), (7, 0x80)] })

theorem wit_AccumulatorBanks : Issues banks (opAalloc 10 31 0) ∧ (opAalloc 10 31 0).on (cur banks) = true ∧ Issues banks (opAfree 0 31 0) ∧ Issues banks (opAzero 2 0 0) ∧
    Open banks 6 0 ∧ got (exec (.aalloc 10 31 0) banks) (fun t => (scalarLater (cur t) 10, (cur t).accAl)) = some (32, 0xFFFFFFFFFFFFFFFF) ∧
    got (exec (.afree 0 31 0) banks) (fun t => (cur t).accAl) = some 0 ∧ got (exec (.azero 2 0 0) banks) (fun t => tget 0 (cur t).acc 2) = some 0 ∧
    got (exec (.tmov 3 1 0) banks) (fun t => tget 0 (cur t).t 3) = some 7 ∧ got (exec (.tzero 1 0) banks) (fun t => tget 0 (cur t).t 1) = some 0 ∧
    got (exec (.aalloc 10 127 0) banks) (fun t => (cur t).run) = some .stopped := by
  unfold Open
  repeat' apply And.intro
  all_goals decide +kernel

theorem wit_MatrixProducts : Issues banks (opMma 1 0 6 0 0) ∧ Issues banks (opMmaz 1 63 6 0 0) ∧ Issues banks (opMmag 1 0 6 0 0) ∧ (opMmag 1 0 6 0 0).on (cur banks) = true ∧
    bitsAt (rx6 banks 7) 0 8 = 128 := by
  repeat' apply And.intro
  all_goals decide +kernel

/-- Scale register 2 asks for INT8. -/
def banks8 : State := modCur banks (fun c => { c with sc := [(2, 5 * 2 ^ 17)] })

theorem wit_TileReadout : Issues banks8 (opAout 0 0 1 0 1 0) ∧ (opAout 0 0 1 0 1 0).on (cur banks8) = true ∧ (∀ l ∈ (cur banks8).land, l.id < banks8.nextId) ∧
    fmtW (fld (rsc banks8 2) 17 5) = 8 := by
  repeat' apply And.intro
  all_goals decide +kernel

/-- Scale register 2 asks for INT16: two tile registers are written. -/
theorem wit_TileReadout_wide : let s := modCur banks (fun c => { c with sc := [(2, 7 * 2 ^ 17)] })
    fmtW (fld (rsc s 2) 17 5) = 16 ∧ Issues s (opAout 0 0 1 0 1 0) ∧ (opAout 0 0 1 0 1 0).on (cur s) = true ∧
    got (exec (.aout 0 0 1 0 1 0) s) (fun t => fld (tget 0 (cur t).t 1) 0 16) ≠ none := by
  unfold Issues
  repeat' apply And.intro
  all_goals decide +kernel

/-- Queue 3 takes INT8 entries of vector registers and gives INT16 entries, shifted right by 1, to vector registers; it holds four entries. -/
def queued (n : Nat) (src snk : Word) : State := rig (fun c => { c with
  q := [(3, { src := src, snk := snk, ents := List.replicate n (BitVec.ofNat 1024 0x80FD03) })], x := [(5, 127)], v := [(1, 9)] })

theorem wit_QueueInstructions : (let s := queued 4 5 (7 + 2 ^ 11 + 2 ^ 17 + 6 * 2 ^ 18)
     Issues s (opQdeq 2 3 0) ∧ (opQdeq 2 3 0).on (cur s) = true ∧ Issues s (opQdeqTile 1 3 5 0) ∧ (∀ l ∈ (cur s).land, l.id < s.nextId) ∧
     (queueOf (cur s) 3).rnd ≠ 3 ∧ (queueOf (cur s) 3).pos < (queueOf (cur s) 3).inPer ∧ (queueOf (cur s) 3).cnt = true ∧
     got (exec (.qdeq 2 3 0) s) (fun t => ((List.range 4).map (fun j => fld (vecLater (cur t) 2) (16 * j) 16), (queueOf (cur t) 3).ents.length,
       scPois (scaleLater (cur t) 6))) = some ([2, 0xFFFE, 0x8000, 0], 2, 2) ∧
     got (exec (.qdeqTile 1 3 5 0) s) (fun t => (fld (tget 0 (cur t).t 1) (1024 * 127) 16, (queueOf (cur t) 3).pos)) = some (2, 64) ∧
     got (exec (.qreset 3 0) s) (fun t => (queueOf (cur t) 3).ents) = some [] ∧
     leaves s [(.qstat 10 3 0, 10, 4 + 512 * 256)] = true) ∧
    Issues (queued 12 5 7) (opQenq 1 3 0) ∧ Issues (queued 4 5 7) (opQcfgSrc 5 3 0) = False := by
  repeat' apply And.intro
  all_goals first | decide +kernel | skip
  simp only [Issues, eq_iff_iff, iff_false]; decide +kernel

theorem wit_QueueInstructions_cfg : (let s := modCur (queued 0 0 0) (fun c => { c with x := [(5, 33), (6, 0x15)] })
     Issues s (opQcfgSrc 5 3 0) ∧ Issues s (opQcfgSnk 5 3 0) ∧ got (exec (.qcfgSnk 5 3 0) s) (fun t => (queueOf (cur t) 3).snk) = some 33 ∧
     got (exec (.qcfgSrc 6 3 0) s) (fun t => (cur t).run) = some .stopped ∧ got (exec (.qenq 1 15 0) s) (fun t => (queueOf (cur t) 15).ents.length) = some 4) ∧
    (let s := rig (fun c => { c with accAl := 0xFFFFFFFF, acc := [(31, 9 * 2 ^ 12288)], q := [(0, { src := 32 + 64 })] })
     Issues s (opAoutq 0 0 127 1 0) ∧ (opAoutq 0 0 127 1 0).on (cur s) = true ∧
     got (exec (.aoutq 0 0 127 1 0) s) (fun t => ((queueOf (cur t) 0).ents.map (fun e => fld e 0 32), tget 0 (cur t).acc 31)) = some ([9, 0, 0, 0], 0)) := by
  repeat' apply And.intro
  all_goals decide +kernel

/-- The scale table stands at 0x1000 of the scratchpad; entry 4,095 is -1, and x5 names it. -/
def scaled : State := wr (rig (fun c => { c with
  ent := entry ++ [(4, 0x1000000000001000)], x := [(5, 4095), (6, 0xFFFFFFFF), (7, 0x1F), (8, 0x1000000000000040), (9, 5000)], sc := [(3, 4095 * 2 ^ 64 + 77)]
  ch := [(2, { done := 6 })] })) (spLoc 0 0x10FF0) 8 0xFF

theorem wit_ScaleAndEngineSettings : Open scaled 7 0 ∧ Open scaled 6 0 ∧ RoomFor scaled 16 ∧ ownHeld scaled = false ∧ bitsAt (rx6 scaled 5) 12 52 = 0 ∧
    spc (entD (cur scaled) 4 + 16 * 4095) = 1 ∧ chk scaled (entD (cur scaled) 4 + 16 * 4095) 16 16 false = .ok (.loc (spLoc 0 0x10FF0)) ∧
    chk scaled (entD (cur scaled) 4 + 16 * 4095) 16 16 true = .ok (.loc (spLoc 0 0x10FF0)) ∧ fld (rsc scaled 3) 64 12 = 4095 ∧ spc (rx6 scaled 8) = 1 ∧
    chk scaled (rx6 scaled 8) 64 64 false = .ok (.loc (spLoc 0 0x40)) ∧ bitsAt (rx6 scaled 7) 0 6 = 31 ∧ bitsAt (rx6 scaled 6) 22 10 ≠ 0 := by
  unfold Open RoomFor
  repeat' apply And.intro
  all_goals decide +kernel

/-- The scale table stands in the window of the cluster. -/
theorem wit_ScaleAndEngineSettings_far : let s := modCur scaled (fun c => { c with ent := entry ++ [(4, 0x2000000000010000)] })
    chk s 0x200000000001FFF0 16 16 false = .ok (.loc (winLoc 0 0 0x1FFF0)) ∧ GoesOut s 0x200000000001FFF0 16 16 true (.loc (winLoc 0 0 0x1FFF0)) ∧
    got (exec (.scld 9 5 0 0) s) (fun t => ((cur t).land.map (·.dst), t.reqs.map (fun r => (r.addr, r.n)))) = some ([.scale 9 4095], [(0x200000000001FFF0, 16)]) ∧
    got (exec (.scst 3 0) s) (fun t => t.reqs.map (fun r => (r.loc, r.wr.length))) = some [(some (winLoc 0 0 0x1FFF0), 16)] := by
  unfold GoesOut
  repeat' apply And.intro
  all_goals decide +kernel

theorem test_scale : got (exec (.scld 9 5 0 0) scaled) (fun t => (cur t).land.map (fun l => (l.at_, l.dst))) = some [(4, .scale 9 4095)] ∧
    got (exec (.scst 3 0) scaled) (fun t => rd t (spLoc 0 0x10FF0) 8) = some 77 ∧
    got (exec (.scset 3 7 1 0) scaled) (fun t => (scCen (scaleLater (cur t) 3), scCenv (scaleLater (cur t) 3))) = some (31, false) ∧
    got (exec (.scset 3 6 6 0) scaled) (fun t => fld (scaleLater (cur t) 3) 64 12) = some 4095 ∧
    got (exec (.scset 3 6 7 0) scaled) (fun t => (cur t).run) = some .stopped ∧
    got (exec (.srseed 6 0) scaled) (fun t => ((cur t).srseed, (cur (settled t)).srseed, (cur t).lseed)) = some (0, 0xFFFFFFFF, 0xFFFFFFFF) := by decide +kernel

theorem test_engine : got (exec (.smset 8 13 0) scaled) (fun t => ((cur t).smaddr, (cur t).smstat)) = some (0x1000000000000040, 0x2D0000) ∧
    got (exec (.smclr 0) (modCur scaled (fun c => { c with smstat := 0x2D0000 }))) (fun t => (cur t).smstat) = some 0xD0000 ∧
    got (exec (.ecfg 2 25 5 0) scaled) (fun t => tget 0 (chanOf (cur t) 2).shadow 25) = some 4095 ∧
    leaves scaled [(.estat 10 2 0, 10, 0x600000000), (.anstat 10 0 0, 10, 128 * 2 ^ 24), (.anstat 10 1 0, 10, 0x00800240)] = true ∧
    got (exec (.slk 400 0) scaled) (fun t => fld (cur (settled t)).slk 0 12) = some 400 ∧
    got (exec (.slkReg 9 0) scaled) (fun t => fld (cur (settled t)).slk 0 12) = some 4095 ∧
    got (exec (.evset 7 5 0) { scaled with clus := [(0, { ev := [(5, 0x100)] })] }) (fun t => (evWord t 0 5, evWord (newCcy t) 0 5, (cur t).trec.committed)) = some (0x100, 0x11F, true) ∧
    got (exec (.evclr 7 5 0) { scaled with clus := [(0, { ev := [(5, 0x101)] })] }) (fun t => evWord (newCcy t) 0 5) = some 0x100 := by decide +kernel

/-- Channel 1 is to copy twice 8 bytes within the scratchpad, from 0x100 and 0x108 to 0x200 and 0x210. -/
def prog : Tab Word := [(0, 0x1000000000000100), (1, 0x1000000000000200), (2, 8), (3, 0x1000 + 5), (8, 2), (9, 8), (10, 16), (11, 1), (14, 1), (17, 1), (20, 1), (23, 1)]
def copier (live : Option CopyProg) (done : Nat) : State :=
  wr (rig (fun c => { c with ch := [(1, { shadow := prog, live := live, done := done })] })) (spLoc 0 0x108) 8 0x77

theorem wit_Copies : Issues (copier none 0) (opEgo 1 0) ∧ (opEgo 1 0).on (cur (copier none 0)) = true ∧
    (chanOf (core (copier (some { f := prog, slack := 5, ctx := 1 }) 0) 0) 1).live = some { f := prog, slack := 5, ctx := 1 } ∧
    copyReady (copier (some { f := prog, slack := 5, ctx := 1 }) 0) 0 { f := prog, slack := 5, ctx := 1 } 1 = true ∧ pSqe prog = false ∧ pDqe prog = false ∧
    (∀ j, j < 8 → copyLoc (copier (some { f := prog, slack := 5, ctx := 1 }) 0) 0 { f := prog, slack := 5, ctx := 1 } (pSrc prog 1 + BitVec.ofNat 64 j) false = .ok (some (spLoc 0 (0x108 + j)))) ∧
    (∀ j, j < 8 → copyLoc (copier (some { f := prog, slack := 5, ctx := 1 }) 0) 0 { f := prog, slack := 5, ctx := 1 } (pDst prog 1 + BitVec.ofNat 64 j) true = .ok (some (spLoc 0 (0x210 + j)))) ∧
    pTotal prog = 2 ∧ pf prog 4 = 0 ∧ offPackage (copier none 0) 1 (pSrc prog 1) = false ∧ offPackage (copier none 0) 1 (pDst prog 1) = false ∧
    (∀ j, j < 8 → errIn (copier none 0) (spLoc 0 (0x108 + j)) 1 = none ∧ frameHits (copier none 0) (spLoc 0 (0x210 + j)) 1 = []) ∧
    got (exec (.ego 1 0) (copier none 0)) (fun t => (chanOf (cur t) 1).live.map (·.slack)) = some (some 5) ∧
    got (exec (.copyPerform 0 1 1) (copier (some { f := prog, slack := 5, ctx := 1 }) 0)) (fun t => (rd t (spLoc 0 0x210) 8, (chanOf (cur t) 1).done)) = some (0x77, 1) ∧
    got (exec (.copyProgramComplete 0 1) (copier (some { f := prog, slack := 5, ctx := 1 }) 2)) (fun t => ((chanOf (cur t) 1).live, (chanOf (cur t) 1).done)) = some (none, 2) := by
  repeat' apply And.intro
  all_goals decide +kernel

def farCopier (f : Tab Word) : State := copier (some { f := f, slack := 5, ctx := 1 }) 0
/-- Every request of the state has its reply. -/
def answered (t : State) (res : Line) : State := { t with reqs := t.reqs.map (fun r => { r with stage := .done, res := res }) }

/-- A copy to another package sends its bytes line by line and has performed once both requests are acknowledged (R106, R396, R399). -/
theorem test_copy_far :
    got (exec (.copyPerform 0 1 1) (farCopier (tset 0 prog 1 0x510000000000026C)))
      (fun t => (t.reqs.map (fun r => (r.addr, r.n, decide (r.wr = bytesOf 0 4 0x77))), (chanOf (cur t) 1).done)) =
      some ([(0x510000000000027C, 4, true), (0x5100000000000280, 4, false)], 0) ∧
    got (exec (.copyPerform 0 1 1) (farCopier (tset 0 prog 1 0x510000000000026C)))
      (fun t => got (exec (.copyPerform 0 1 1) (answered t 0)) (fun u => (u.reqs.length, (chanOf (cur u) 1).done))) = some (some (0, 1)) := by
  refine ⟨?_, ?_⟩ <;> decide +kernel

/-- A copy from another package asks for its bytes and writes what the reply holds. -/
theorem test_copy_far_read :
    got (exec (.copyPerform 0 1 1) (farCopier (tset 0 prog 0 0x5100000000000100)))
      (fun t => got (exec (.copyPerform 0 1 1) (answered t 0x1122334455667788)) (fun u => (rd u (spLoc 0 0x210) 8, (chanOf (cur u) 1).done))) =
      some (some (0x1122334455667788, 1)) := by
  decide +kernel

/-- Group 7 has cores 0 and 9; core 9 has arrived in epoch 4, and core 0's arrival is on its way. -/
def barrier (l : List (Nat × Nat)) : State :=
  { rigX [(7, 0x6000000000000180)] with
    ctxs := [(1, { d := entry, groups := [(7, { members := 0x201, count := 2, order := [0, 9] })], epochs := [(7, { n := 4, arr := l })] })]
    comps := [{ id := 1, what := .gbar 0 1 7, loc := winLoc 0 0 0x180, n := 8, v := 0, frame := fr1, die := 0, ctx := 1 },
      { id := 2, what := .gbar 9 1 7, loc := winLoc 0 1 0x180, n := 8, v := 0, frame := 0x6000000001000100, die := 0, ctx := 1 }] }

theorem wit_GroupBarriers : Issues (barrier []) (opGbar 7 7 0) ∧ (opGbar 7 7 0).on (cur (barrier [])) = true ∧ (findComp (barrier []) 1).isSome = true ∧
    performed (barrier []) [] = true ∧ (ctx (barrier []) 1).grpBroken = false ∧ (∀ a ∈ (tget {} (ctx (barrier [(9, 2)]) 1).epochs 7).arr, a.2 ≠ 1) ∧ (groupOf (barrier []) 1 7).members.getLsbD 9 = true ∧
    (∀ j, j < 512 → (groupOf (barrier []) 1 7).members.getLsbD j = true → j = 0 ∨ j = 9) ∧
    got (exec (.gbar 7 7 0) (barrier [])) (fun t => (t.comps.map (·.loc), fld (cur t).joincnt 0 16)) = some ([winLoc 0 0 0x180, winLoc 0 1 0x180, winLoc 0 0 0x180], 1) ∧
    got (exec (.groupBarrierArrival 1) (barrier [])) (fun t => (tget {} (ctx t 1).epochs 7).arr) = some [(0, 1)] ∧
    got (exec (.groupBarrierArrival 1) (barrier [(9, 2)])) (fun t => ((tget {} (ctx t 1).epochs 7).n, t.comps.map (·.v))) = some (5, [4, 4]) := by
  repeat' apply And.intro
  all_goals decide +kernel

/-- A record for queue 2 of the own cluster and the words of a tile word, in the scratchpad. -/
def posting : State := wr (wr (wr (rigX [(5, 0x1000000000000040), (6, 0x1000000000000080), (7, 0x6000000000000180), (8, 0x10000000000000C0)]) (spLoc 0 0x40) 64
  (0x1080000000000E0 + 0x6000000000000200 * 2 ^ 64)) (spLoc 0 0x80) 32 0x20010) (spLoc 0 0xC0) 32 0x10

theorem wit_TaskPosts : chk posting 0x1000000000000040 64 64 false = .ok (.loc (spLoc 0 0x40)) ∧ Issues posting (opQpush 5 0) ∧ (opQpush 5 0).on (cur posting) = true ∧
    chk posting 0x1000000000000080 32 32 false = .ok (.loc (spLoc 0 0x80)) ∧ Issues posting (opTpost 7 6 0) ∧ Issues posting (opTix 8 0) ∧
    frameHome posting 1 0 fr1 + 8 ≤ frameHome posting 1 0 0x6000000000000200 ∧ swImage posting 1 0 = none ∧ (ringOf (clu posting 0) 2).cnt = 0 ∧
    got (exec (.qpush 5 0) posting) (fun t => ((rqOf (clu t 0) 2).map (·.pc), rd t (winLoc 0 0 0x240) 2, t.hub.launches.map (·.recs))) =
      some ([0xE0], 1, [[(0, fr1), (0, 0x6000000000000200)]]) ∧
    got (exec (.tpost 7 6 0) posting) (fun t => (t.tiles.map (·.word), t.tiles.map (·.src), fld (cur t).joincnt 0 16)) = some ([0x20010], [.tpost (winLoc 0 0 0x180) fr1], 1) ∧
    ((1 : Nat), (0 : Nat), (0x6000000000000200 : Word)) ∉ liveAll posting ∧
    got (exec (.tix 8 0) posting) (fun t => ((cur t).mwait, t.tiles.map (·.src))) = some (.tix 1, [.tix]) := by
  repeat' apply And.intro
  all_goals decide +kernel

/-- The same posts from the window: the request first, then its data. -/
theorem wit_TaskPosts_sent : let s := fun (p : Option (Nat × Option PRead)) => modCur posting (fun c => { c with prd := p, x := [(5, 0x2000000000000200), (7, 0x6000000000000180)] })
    let d : Line := 0x1080000000000E0 + 0x6000000000000200 * 2 ^ 64
    Open (s none) 3 0 ∧ RoomFor (s none) 0 ∧ chk (s none) 0x2000000000000200 64 64 false = .ok (.loc (winLoc 0 0 0x200)) ∧
    got (exec (.qpush 5 0) (s none)) (fun t => (t.reqs.map (fun r => (r.id, r.n)), (cur t).prd, (cur t).pc)) = some ([(1, 64)], some (1, none), 0) ∧
    Issues (s (some (1, some (.data d)))) (opQpush 5 0) ∧ Issues (s (some (1, some (.data 0x20010)))) (opTpost 7 5 0) ∧
    got (exec (.qpush 5 0) (s (some (1, some (.data d))))) (fun t => ((rqOf (clu t 0) 2).map (·.pc), (cur t).prd)) = some ([0xE0], none) ∧
    got (exec (.tpost 7 5 0) (s (some (1, some (.data 0x20010))))) (fun t => t.tiles.map (·.word)) = some [0x20010] := by
  unfold Open RoomFor Issues
  repeat' apply And.intro
  all_goals decide +kernel

/-! ## Tasks that start and are saved, and what comes due -/

/-- Cluster 0 belongs to context 1; its queue 2 holds a ready record, its queue 3 one that waits for an event. -/
def ready : State :=
  { rig (fun c => { c with run := .idle }) with
    clus := [(0, { rq := [(2, [{ w0 := 0x10800000000000E0, w1 := 0x6000000000000200, w5 := 5, w6 := 6, w7 := 7, w2 := 0x500000000 }]),
      (3, [{ w0 := 0x10C0000000000E0, w1 := 0x6000000000000300, w3 := 1 }])] })] }

theorem wit_TaskStartsAndSaves_dispatch : ownerOf ready 0 = some 1 ∧ idleCore ready 0 = some 0 ∧ (clu (dispatchCcy ready 0) 0).noDisp = false ∧ (clu (dispatchCcy ready 0) 0).aged = [] ∧
    (clu (dispatchCcy ready 0) 0).ring = [] ∧ popOk (clu (dispatchCcy ready 0) 0) 2 = true ∧ popOk (clu (dispatchCcy ready 0) 0) 3 = false ∧
    got (exec (.dispatch 0) ready) (fun t => ((cur t).pc, (cur t).x, (cur t).run, (rqOf (clu t 0) 2).length)) =
      some (0xE0, [(1, 0x6000000000000200), (2, 5), (3, 6), (4, 7)], .running, 0) ∧
    got (exec (.dispatch 0) ready) (fun t => ((cur t).slk, (rdRec t (winLoc 0 0 0x200)).kind)) = some (5, 3) := by
  repeat' apply And.intro
  all_goals decide +kernel

/-- A core that is being saved into block 1 of its context; block 0 is in use. -/
def saving : State :=
  paged { rig (fun c => { c with pre := .saving, resume := 0x60, ent := entry ++ [(5, 0x200000)] }) with
    ctxs := [(1, { d := [(0, 0x1010001), (2, 65536), (5, 0x200000), (6, 0x800), (7, 0x10000), (8, 0xC000), (9, 1)], saveBase := 0x400000, saveCnt := 2, saveUsed := [0] })] }

theorem wit_TaskStartsAndSaves_save : isSaving (core saving 0) = true ∧ freeBlock (ctx saving 1) = some 1 ∧ blkFail saving 1 1 true (savePages (core saving 0).accAl) = none := by
  repeat' apply And.intro
  all_goals decide +kernel

/-- Two results in flight, one of them due; a stale occupancy and busy mark; a window boundary. -/
def due : State := rig (fun c => { c with
  ctime := 9, oclk := 9, wtime := 64, pend := [⟨9, .x 10 5⟩, ⟨10, .x 11 6⟩, ⟨9, .v 3 7⟩, ⟨9, .sc 2 8⟩, ⟨9, .slk 9⟩, ⟨9, .sm 1⟩], occ := [(0, 9), (1, 10)]
  busy := [{ res := .tile 1, wall := 64 }, { res := .tile 2, wall := 65 }], debt := 200, al := 128 })

theorem wit_CoreEvents : (∀ q ∈ (core due 0).pend, q.dst.name = (0, 10) → q = ⟨9, .x 10 5⟩) ∧ tsorted (core due 0).occ = true ∧
    got (exec (.latencyBoundExpiry 0) due) (fun t => (rx t 10, (cur t).pend, tget 0 (cur t).v 3, (cur t).slk)) = some (5, [⟨10, .x 11 6⟩], 7, 9) ∧
    got (exec (.occupancyEnd 0) due) (fun t => (cur t).occ) = some [(1, 10)] ∧ got (exec (.busyClear 0) due) (fun t => (cur t).busy.map (·.res)) = some [.tile 2] ∧
    got (exec (.annealerWindow 0) due) (fun t => ((cur t).debt, (cur t).used, (cur t).al, (cur t).window)) = some (72, 128, 256, 1) ∧
    got (exec (.frzto 0) (rig (fun c => { c with frz := 4194305 }))) (fun t => (cur t).trap.map (·.info.code)) = some (some .frzto) ∧
    got (exec (.frzto 0) (rig (fun c => { c with run := .ending, frz := 4194305 }))) (fun t => (cur t).trap.map (·.info.code)) = some (some .frzto) ∧
    got (exec (.trapTaken 0) (rig (fun c => { c with trap := some { info := { code := .frzto } } }))) (fun t => (cur t).run) = some .stopped ∧
    (let s := rig (fun c => { c with pre := .taking, pc := 0x40 })
     quiet (core s 0) = true ∧ waitedOut s (core s 0) = none ∧ joinSum s 0 = 0 ∧ chansIdle (core s 0) = true ∧
     got (exec (.interruptTaken 0) s) (fun t => ((cur t).pre, (cur t).resume)) = some (.saving, 0x40)) := by
  repeat' apply And.intro
  all_goals decide +kernel

/-! ## Tile words -/

/-- A rank-1 INT32 descriptor of n elements at `a`. -/
def dsc (a n : Nat) : BitVec 512 := BitVec.ofNat 512 (a + 2 ^ 88 + n * 2 ^ 128 + 2 ^ 160 + 2 ^ 192 + 2 ^ 224)

/-- `tfill` of three elements with 0x55, 0x56 and 0x57 at 0x100 of core 0, at level 1. -/
def fillW (st : TStage) : TileW :=
  { id := 5, word := BitVec.ofNat 256 (13 + 256 + 65536 + 0x55 * 2 ^ 192), src := .tix, core := 0, ctx := 1, ltag := 0, seed := 0, stage := st
    desc := [dsc 0x1000000000000100 3, 0, 0, 0], ents := [0, 0, 0, 0] }
/-- The word alone at work, in a context whose tables of descriptors and scales stand in the scratchpad of core 0. -/
def tiled (w : TileW) : State := { rig (fun c => { c with mwait := .tix 5 }) with
  tiles := [w], ctxs := [(1, { d := [(0, 0x1010001), (2, 65536), (3, 0x1000000000001000), (4, 0x1000000000002000), (6, 0x800), (7, 0x10000), (8, 0xC000), (9, 1)] })] }

theorem wit_TileWordSteps_run : let s := tiled (fillW .accepted)
    (findTile s 5).isSome = true ∧ tileOpRow (.tfill 5) = some (13, 5) ∧ twOp (fillW .accepted).word = 13 ∧ tileReady s (fillW .accepted) = true ∧
    twProbe (fillW .accepted).word = false ∧ ([1, 2, 3].findSome? (fun j => (readSrc s (fillW .accepted) j).2)) = none ∧ overlapped s (fillW .accepted) = [] ∧ farSrc s (fillW .accepted) = [] ∧ launchOf s 0 = none ∧
    (let o := tileOut (fillW .accepted) ⟨dsc 0x1000000000000100 3, 0, #[], #[]⟩ ⟨0, 0, #[], #[]⟩ ⟨0, 0, #[], #[]⟩ ⟨0, 0, #[], #[]⟩
     o.rows.map (fun r => (r.2.1, r.2.2.1)) = [(dsc 0x1000000000000100 3, [(0, [0x55, 0x56, 0x57])])] ∧ (putOut 1 o.rows s).2 = none ∧ farOut s (fillW .accepted) o.rows = [] ∧ o.send = []) ∧
    (∀ j, j < 12 → frameHits s (spLoc 0 (0x100 + j)) 1 = []) ∧ dscBlk (dsc 0x1000000000000100 3) = false ∧ dscRowB (dsc 0x1000000000000100 3) = 12 ∧
    got (exec (.tfill 5) s) (fun t => (rd t (spLoc 0 0x100) 12, t.tiles.map (·.stage))) = some (0x55 + 0x56 * 2 ^ 32 + 0x57 * 2 ^ 64, [.done]) ∧
    got (exec (.tfill 5) (tiled { fillW .accepted with desc := [dsc 0x10000000001FFFF8 3, 0, 0, 0] })) (fun t => t.tiles.map (fun w => match w.stage with | .child i _ => i.prec | _ => 9)) =
      some [1] := by
  repeat' apply And.intro
  all_goals decide +kernel

/-- A posted word whose descriptor breaks a rule; a child's fault; completions for a reply slot, a `tix` and a launch. -/
theorem wit_TileWordSteps_ends : (let s := tiled { fillW .posted with src := .tix, desc := [], ents := [] }
      (got (exec (.tileWordAccept 5) s) (fun t => t.tiles.map (fun w => decide (w.stage = .posted)))) = some [false]) ∧
    got (exec (.childFault 5) (tiled (fillW (.child { code := .bound } [])))) (fun t => t.tiles.map (fun w => match w.stage with | .failed i _ => decide (i.code = .bound) | _ => false)) =
      some [true] ∧
    got (exec (.tileWordCompletion 5) (tiled (fillW .done))) (fun t => (t.tiles.length, (cur t).mwait)) = some (0, .none) ∧
    got (exec (.tileWordCompletion 5) (tiled (fillW (.failed { code := .bound } [])))) (fun t => (cur t).trap.map (·.info.code)) = some (some .bound) ∧
    got (exec (.tileWordCompletion 5) (tiled { fillW .done with src := .tpost (winLoc 0 0 0x180) fr1 })) (fun t => t.comps.map (fun c => (c.loc, c.v))) =
      some [(winLoc 0 0 0x180, 0)] ∧
    got (exec (.tileWordCompletion 5) (tiled { fillW (.failed { code := .bound } []) with src := .tpost (winLoc 0 0 0x180) fr1 })) (fun t => t.comps.map (·.v)) = some [1] ∧
    got (exec (.tileWordCompletion 5) (tiled { fillW .done with src := .launch })) (fun t => t.tiles.length) = some 0 := by
  repeat' apply And.intro
  all_goals decide +kernel

/-- The same posted, with its descriptor and the scale table in the scratchpad: it is accepted. -/
theorem wit_TileWordSteps_accept : got (exec (.tileWordAccept 5) (wr (tiled { fillW .posted with desc := [], ents := [] })
      (spLoc 0 0x1000) 64 (dsc 0x1000000000000100 3).toNat)) (fun t => t.tiles.map (fun w => (decide (w.stage = .accepted), w.desc))) =
    some [(true, [dsc 0x1000000000000100 3, 0, 0, 0])] := by decide +kernel

/-- R285: A sum of two operands. -/
theorem wit_TileElements : let d := dsc 0x1000000000000100 3
    let a : Ten := ⟨d, 0, #[5, 2 ^ 32 - 2, 7], #[]⟩
    let w := { fillW .accepted with word := 7 + 65536, desc := [d, d, d, 0] }
    dscI32 d = true ∧ w.ents.getD 0 0 = 0 ∧ (∀ i, i < 3 → a.at_ i = some ([5, -2, 7].getD i 0)) ∧ dscBlk a.d = false ∧
    (∀ i, i < 3 → tileVal w (dscDims d) (dscDims d) (fun i => [5, -2, 7].getD i 0) (fun i => [5, -2, 7].getD i 0) (fun _ => 0) 0 0 i = some ([10, -4, 14].getD i 0)) ∧
    (tileOut w a a a a).rows.map (·.2.2.1) = [[(0, [10, 2 ^ 32 - 4, 14])]] := by
  repeat' apply And.intro
  all_goals decide +kernel

/-- The rows of an operation on one operand [5, -2, 7], into n elements. -/
def tileRows (op md n : Nat) : List (List (Nat × List Nat)) :=
  let a : Ten := ⟨dsc 0x1000000000000200 3, 0, #[5, 2 ^ 32 - 2, 7], #[]⟩
  (tileOut { fillW .accepted with word := BitVec.ofNat 256 (op + 256 * md + 65536), desc := [dsc 0x1000000000000100 n, a.d, 0, 0] } a a a a).rows.map (·.2.2.1)

/-- R266: the worked first doubleword of a `tmma` word, and reductions and scans of three elements (R284, R286). -/
theorem test_tile_words : twOp 0x0000004000020101 = 1 ∧ twMod 0x0000004000020101 = 1 ∧ twLevel 0x0000004000020101 = 2 ∧ twSlack 0x0000004000020101 = 0x40 ∧
    tileRows 5 0 1 = [[(0, [10])]] ∧ tileRows 5 4 1 = [[(0, [7])]] ∧ tileRows 5 8 1 = [[(0, [2 ^ 32 - 2])]] ∧ tileRows 6 1 3 = [[(0, [5, 3, 10])]] := by
  repeat' apply And.intro
  all_goals decide +kernel

/-! ## SVI -/

/-- Core 0 is at SVI address 8 of an image of 64 bytes that is translated at 0x400 of the arena. -/
def svis (l : List (Nat × Word)) (f : Core → Core) : State :=
  { rig (fun c => f { c with pc := 0x440, x := l }) with svi := [(1, [{ base := 0x1000, size := 64, off := 0x400 }])] }

theorem test_svi_int : leaves (svis [(5, 7), (6, 0xFFFFFFFFFFFFFFFF), (7, 0x8000000000000000)] id) [(.sviIntegerOp (.opReg .add false 10 5 6), 10, 6),
    (.sviIntegerOp (.lui 10 0x80000), 10, 0xFFFFFFFF80000000), (.sviIntegerOp (.auipc 10 1), 10, 0x1008), (.sviIntegerOp (.opImm .sltu false 10 5 0xFFF), 10, 1),
    (.sviIntegerOp (.opImm .sra false 10 7 63), 10, 0xFFFFFFFFFFFFFFFF), (.sviIntegerOp (.opReg .srl true 10 6 5), 10, 0x1FFFFFF), (.sviIntegerOp (.opReg .sub true 10 0 5), 10, 0xFFFFFFFFFFFFFFF9),
    (.sviMOp ⟨.mulhu, false, 10, 6, 6⟩, 10, 0xFFFFFFFFFFFFFFFE), (.sviMOp ⟨.div, false, 10, 7, 6⟩, 10, 0x8000000000000000), (.sviMOp ⟨.divu, true, 10, 6, 0⟩, 10, 0xFFFFFFFFFFFFFFFF),
    (.sviMOp ⟨.remu, true, 10, 6, 5⟩, 10, 3)] = true := by decide +kernel

/-- R307, R313: VL is the least of the request and VLMAX; a 32-bit add over three elements; VL in its register. -/
theorem test_svi_vec : leaves (svis [(10, 200)] id) [(.sviVectorOp (.vsetvli 5 10 0xD0), 5, 128)] = true ∧
    got (exec (.sviVectorOp (.arith 0 1 2 3 0 1)) (svis [] (fun c => { c with vl := 3, vtype := 2, v := [(2, quad 5 0xFFFFFFFF 7 9), (3, quad 1 2 3 4)] })))
      (fun t => (List.range 3).map (elemLater (cur t) 1 32)) = some [6, 1, 10] := by decide +kernel

theorem wit_SviInstructions : (let s := svis [(5, 7), (6, 0x1000000000000100), (7, 0x31)] id
     sviAt s = 8 ∧ (cur s).land = [] ∧ (cur s).pend = [] ∧ Open s 0 0 ∧ Open s 1 0 ∧ Open s 3 0 ∧ RoomFor s 0 ∧ quiet (cur s) = true ∧
     (∃ o, sviOp (.sviMOp ⟨.mul, false, 10, 5, 5⟩) = some o ∧ Issues s { o with guard := 0 }) ∧ (∃ o, sviOp .agExit = some o ∧ Issues s { o with guard := 0 }) ∧
     chk s 0x1000000000000100 8 8 true = .ok (.loc (locOf s 0x1000000000000100 8 true)) ∧
     sviTo s 8 (.branch .ltu 5 6 28) = (some 64, 0) ∧ sviTo s 8 (.jal 1 26) = (some 60, 1) ∧ sviTo s 8 (.jalr 1 7 0) = (some 48, 1) ∧ sviTo s 8 (.branch .eq 5 6 28) = (none, 0) ∧
     got (exec (.sviTransfer (.jal 1 26)) s) (fun t => ((cur t).pc, rx t 1)) = some (0x400 + 480, 12) ∧
     got (exec (.sviTransfer (.branch .ltu 5 6 28)) s) (fun t => (cur t).run) = some .stopped ∧
     got (exec (.sviLoadStore (.store 1 6 5 0)) s) (fun t => rd t (spLoc 0 0x100) 2) = some 7 ∧
     got (exec (.sviill 0xFFFFFFFF) s) (fun t => ((cur t).run, t.hub.launches.map (·.failed))) = some (.stopped, [some .sviill])) ∧
    got (exec (.sviMOp ⟨.mul, false, 10, 5, 5⟩) (svis [] (fun c => { c with pend := [⟨9, .x 5 1⟩] }))) (fun t => ((cur t).pc, (cur t).ctime)) = some (0x440, 1) := by
  unfold Open RoomFor
  repeat' apply And.intro
  all_goals first | decide +kernel | exact ⟨_, rfl, by unfold Issues; decide +kernel⟩

/-! ## Fabric, translation, boot and the host -/

/-- A mesh of four packages along x, of which this is the first; ports 0 and 1 of die 0 are trained. A request with slack 0 waits at its home in
the HBM of die 0. -/
def fab (l : List Pkt) : State := { rig id with
  ctxs := [(1, { d := entry, plan := some { dx := 4 } })]
  reqs := [{ id := 1, core := 0, kind := .load, addr := 0, loc := some 0, n := 8, ctx := 1, arr := some 0 }], pkts := l, hub := { fport := [(0, 1), (1, 1)] } }

/-- A packet at an input of die 0. -/
def pkt (id inp : Nat) (h : BitVec 128) : Pkt := { id := id, die := 0, inp := inp, hdr := h, addr := 0, data := 0 }

/-- A tick; a packet that comes over a trained port, and one over a port of a dimension of size 1; a request that comes to its home. -/
theorem wit_FabricPackets_tick : tsorted (fab []).hub.used = true ∧
    got (exec .slackTick (fab [pkt 2 1 0x100050, pkt 3 1 0x100000, pkt 4 1 0x100052])) (fun t =>
      (t.reqs.map (fun r => (r.slack, r.exh)), t.pkts.map (fun p => (fld p.hdr 4 12, bit p.hdr 3)), t.hub.ticks)) =
      some ([(0, true)], [(4, false), (0, true), (5, false)], 1) ∧
    (let p := pkt 1 1 0x100000
     bit (fport (fab []) 1) 0 = true ∧ fld p.hdr 18 2 = 0 ∧ 1 < (anyPlan (fab [])).size 0 ∧ ¬ 1 < (anyPlan (fab [])).size 1 ∧ hasRoom (fab []) p = true) ∧
    got (exec (.packetArrival (1 + 32 * 8) 0x100000 8 9) (fab [])) (fun t => t.pkts.map (fun p => (p.die, p.inp, p.n))) = some [(0, 1, 8)] ∧
    got (exec (.packetArrival (3 + 32 * 8) 0x100000 8 9) (fab [])) (fun t => t.pkts.length) = some 0 ∧
    (let s := { fab [] with reqs := (fab []).reqs.map (fun r => { r with arr := none }) }
     (findReq s 1).map (fun r => (canGo s r, r.home s)) = some (true, some 516) ∧ (homeQueue s 516).length < 64 ∧
     got (exec (.packetArrival 28 (BitVec.ofNat 128 (2 ^ 96)) 0 0) s) (fun t => (homeQueue t 516).map (·.id)) = some [1]) := by
  repeat' apply And.intro
  all_goals decide +kernel

/-- At port 0 one packet with slack and one that is exhausted: the latter leaves, but for the former's sixteenth time. -/
theorem wit_FabricPackets_grant : let a := { pkt 2 1 0x100050 with seen := 15 }
    let b := pkt 3 6 0x100008
    (∀ r ∈ (fab [a, b]).reqs, ownPkt (fab [a, b]) 0 r = none) ∧ contendersAt (fab [a, b]) 0 = [a, b] ∧ ¬ roomTo (fab [a, b]) a 0 < a.flits ∧
    (∀ p ∈ [a, b], bit p.hdr 44 = false ∧ fld p.hdr 0 2 ≠ 2) ∧
    got (exec (.arbiterGrant 0) (fab [a, b])) (fun t => (t.pkts.map (fun p => (p.id, p.seen)), tget 0 t.hub.slotAt 0)) = some ([(3, 1)], 1) ∧
    got (exec (.arbiterGrant 0) (fab [{ a with seen := 14 }, b])) (fun t => (t.pkts.map (fun p => (p.id, p.seen)), t.wire.map (fun e => (e.1, e.2.id)))) =
      some ([(2, 15)], [(0, 3)]) ∧
    (let s := { fab [a] with hub := { fport := [(0, 1)], used := [(0, 24)] } }
     roomTo s a 0 < a.flits ∧ got (exec (.arbiterGrant 0) s) (fun t => t.pkts.length) = some 1) := by
  intro a b
  repeat' apply And.intro
  all_goals decide +kernel

/-- The home's arbiter, and the ejection of a read and of a reply at die 0. -/
theorem wit_FabricPackets_eject : (homeQueue (fab []) 516).map (·.id) = [1] ∧ homeQueue (fab []) 515 = [] ∧
    got (exec (.arbiterGrant (28 + 516)) (fab [])) (fun t => t.reqs.map (·.go)) = some [true] ∧
    (let p := pkt 2 1 (BitVec.ofNat 128 (0x50 + 32 * 2 ^ 64))
     contendersAt (fab [p]) 24 = [p] ∧ got (exec (.arbiterGrant 24) (fab [p])) (fun t => (t.pkts.length, t.reqs.map (fun r => (r.kind, r.slack)))) =
       some (0, [(.load, 0), (.load, 5)])) ∧
    (let p := { pkt 2 1 (BitVec.ofNat 128 (0x51 + 36 * 2 ^ 64 + 2 ^ 96)) with data := 77 }
     let s := { fab [p] with reqs := [{ id := 1, core := 0, kind := .load, addr := 0x5100000000000000, loc := none, n := 8, ctx := 1, sent := true, dst := .land 5 0 }] }
     contendersAt s 24 = [p] ∧ s.merges = [] ∧
     (s.reqs.find? (fun r => r.sent && decide (r.stage = .out) && decide (r.id % 2 ^ 32 = fld p.hdr 96 32))).map (·.id) = some 1 ∧
     got (exec (.arbiterGrant 24) s) (fun t => t.reqs.map (fun r => (r.stage, r.res, r.slack))) = some [(.done, 77, 5)]) := by
  repeat' apply And.intro
  all_goals decide +kernel

/-- A circuit flit of circuit 9 from input 1, for port 0: the next slot names it; a later one does; none does. -/
theorem wit_FabricPackets_circuit : let p := pkt 2 1 (BitVec.ofNat 128 (0x100002 + 9 * 2 ^ 72))
    let s := fun (l : Tab (BitVec 16)) => { fab [p] with hub := { fport := [(0, 1)], slots := l } }
    let e : BitVec 16 := tget 0 (s [(255, 0x93)]).hub.slots 255
    bit e 0 = true ∧ fld e 1 3 = p.inp ∧ fld e 4 8 = fld p.hdr 72 8 ∧ routeOf (s []) p = some 0 ∧ slotNo (s []) 0 = 0 ∧
    (∀ r ∈ (s []).reqs, ownPkt (s []) 0 r = none) ∧
    got (exec (.circuitSlot 0 0) (s [(0, 0x93)])) (fun t => (t.pkts.length, slotNo t 0)) = some (0, 1) ∧
    got (exec (.circuitSlot 0 0) (s [(255, 0x93)])) (fun t => (t.pkts.map (·.hdr), slotNo t 0)) = some ([p.hdr], 1) ∧
    got (exec (.circuitSlot 0 0) (s [])) (fun t => (t.pkts.map (fun q => (fld q.hdr 0 2, fld q.hdr 4 12, bit q.hdr 3, fld q.hdr 72 8)), fport t 0)) =
      some ([(0, 0, true, 0)], 0x1000001) := by
  intro p s e
  repeat' apply And.intro
  all_goals decide +kernel

theorem ok_of {ε α : Type} {e : Except ε α} {p : α → Bool} (h : (match e with | .ok x => p x | .error _ => false) = true) :
    ∃ x, e = .ok x ∧ p x = true := by
  cases e with
  | ok x => exact ⟨x, rfl, h⟩
  | error _ => simp at h

theorem error_of {ε α : Type} {e : Except ε α} {p : ε → Bool} (h : (match e with | .error x => p x | .ok _ => false) = true) :
    ∃ x, e = .error x ∧ p x = true := by
  cases e with
  | error x => exact ⟨x, rfl, h⟩
  | ok _ => simp at h

theorem wit_TranslationAndLinks : ctxValid mapped 1 = true ∧ tlbFind mapped 0 1 (8191 * 65536) = none ∧ tlbIn mapped 1024 1 (8191 * 65536) = none ∧
    (∃ x, walk mapped (ctxD mapped 1 5) (8191 * 65536) = .ok x ∧ (!contHolds mapped (ctxD mapped 1 5) (8191 * 65536) x && x.size == 2 ^ 29) = true) ∧
    (∃ e, walk mapped (ctxD mapped 1 5) (8192 * 65536) = .error e ∧ decide (e.code = .pgnp) = true) ∧
    got (exec (.pageWalkComplete 1 (1024 * 2 ^ 32 + 8191)) mapped) (fun t => t.tlb.map (fun e => (e.place, e.va, e.size, e.r, e.w))) = some [(1024, 0, 2 ^ 29, true, true)] ∧
    got (exec (.pageWalkComplete 1 (7 * 2 ^ 32 + 8191)) mapped) (fun t => t.tlb.map (·.place)) = some [1024, 7] ∧
    got (exec (.pageWalkComplete 1 8192) mapped) (fun t => t.tlb.length) = some 0 ∧
    got (exec (.tlbDrop 1 8191) { mapped with tlb := [⟨0, 1, 0, 1, 0, 2 ^ 29, 0, true, true, false⟩, ⟨0, 2, 0, 1, 0, 2 ^ 29, 0, true, true, false⟩, ⟨1, 1, 0, 1, 0, 2 ^ 29, 0, true, true, false⟩] }) (fun t => t.tlb.map (fun e => (e.place, e.ctx))) = some [(0, 2), (1, 1)] ∧
    got (exec (.flitRetry 23) mapped) (fun t => fport t 23) = some 256 ∧ got (exec (.flitRetry 31) mapped) (fun t => t.hub.linkstat) = some 256 ∧
    got (exec (.linkStateChange true 3 2) mapped) (fun t => (t.hub.linkstat, t.hub.journal.map (·.arg))) = some (0x17, [63]) ∧
    got (exec (.portStateChange 23 true 7) mapped) (fun t => (fport t 23, t.hub.journal.map (·.arg))) = some (0x700000000000001, [55]) := by
  refine ⟨?_, ?_, ?_, ok_of ?_, error_of ?_, ?_⟩
  all_goals repeat' apply And.intro
  all_goals decide +kernel

/-- The hub in a boot state. -/
def booting (n : Nat) (f : Hub → Hub) : State := { State.reset with hub := f { bootState := n, bootaddr := 0x1000, sq0log := 4, sq0base := 0x8000000000000 } }

theorem wit_BootAndHost : paOk 0 = true ∧ paOk (2 ^ 51 + 127) = true ∧ got (exec .packageReset (wr (rig id) (2 ^ 52 - 1) 2 0x201)) (fun t => (t.cores, rdB t (2 ^ 52 - 1), rdB t (2 ^ 52))) = some ([], 1, 0) ∧
    got (exec .linkTrained State.reset) (fun t => t.hub.bootState) = some 1 ∧ got (exec .bootctlGo (booting 1 id)) (fun t => t.hub.bootState) = some 2 ∧
    got (exec (.imageLoaded false) (booting 2 id)) (fun t => (t.hub.bootState, t.hub.bootErr)) = some (7, 6) ∧
    got (exec (.imageLoaded true) (booting 2 id)) (fun t => (t.hub.bootState, t.hub.image.length)) = some (3, 1152) ∧
    got (exec .imageVerified (booting 3 id)) (fun t => (t.hub.bootState, t.hub.bootErr)) = some (7, 1) ∧
    got (exec (.hostMemoryWrite (2 ^ 51) 128 5) State.reset) (fun t => rd t (2 ^ 51) 128) = some 5 ∧
    got (exec (.hostMemoryRead (2 ^ 51) 128) State.reset) (fun t => t.mem) = some [] ∧
    errIn { State.reset with uecc := [2 ^ 51 + 120] } (2 ^ 51) 128 ≠ none ∧
    got (exec (.hostMemoryRead (2 ^ 51) 128) { State.reset with uecc := [2 ^ 51 + 120] }) (fun t => t.hub.errstat) = some 0x100000000 ∧
    got (exec (.hostMemoryRead (2 ^ 52 + 0x18) 8) State.reset) (fun t => t.hub.hostData) = some 0x100 ∧
    got (exec (.hostMemoryRead (2 ^ 52 + 0x20) 8) (booting 4 id)) (fun t => fld t.hub.hostData 0 4) = some 8 ∧
    got (exec (.scrub (2 ^ 60 + 9) true) (booting 4 id)) (fun t => (t.uecc, t.hub.errstat)) = some ([8], 0) ∧
    got (exec (.registerWrite 0x28 0xFFFFFFFFFFFFFFFF) (booting 1 id)) (fun t => t.hub.bootaddr) = some 0xFFFFFFFFFFFFF ∧
    got (exec (.registerWrite 0x28 0) (booting 2 id)) (fun t => t.hub.bootaddr) = some 0x1000 ∧
    got (exec (.registerWrite 0x50 1) (booting 4 (fun h => { h with errstat := 3 }))) (fun t => t.hub.errstat) = some 2 ∧
    got (exec .journalMirrorWrite (booting 4 (fun h => { h with jmbase := 0x1000, jseq := 70001, mirrored := 70000, journal := [⟨70001, 1, 2, 3⟩] })))
      (fun t => (rd t (2 ^ 51 + 0x1000 + 32 * 369) 8, rd t (2 ^ 51 + 0x1018 + 32 * 369) 8, t.hub.mirrored)) = some (70001, 3, 70001) ∧
    got (exec (.scrub (2 ^ 57 + 8192 * 3) true) (rig id)) (fun t => ((cur t).trap.map (fun p => (p.info.code, p.info.engine)), t.hub.errstat)) = some (some (.uecc, 4), 0x100000000) ∧
    got (exec (.scrub (2 ^ 57 + 8192 * 3) true) (rig (fun c => { c with run := .idle }))) (fun t => (cur t).trap.isSome) = some false ∧
    got (exec (.scrub 9 false) (booting 4 id)) (fun t => t.hub.errstat) = some 1 ∧ got (exec (.scrub 9 true) (booting 4 id)) (fun t => t.hub.errstat) = some 0x100000000 := by
  repeat' apply And.intro
  all_goals decide +kernel

/-! ## Launches and commands -/

/-- System queue 0 with HEAD 0 and TAIL 1 over a ring at 0x300000, and the record with the doublewords given. -/
def hubbed (l : List Word) : State :=
  { wrWords (wr mapped 0x301000 4 1) 0x300000 l with
    hub := { bootState := 4, lq := [(0, { base := 0x300000, ctl := 0x301000, cfg := 0x182002, tail := 1 })] } }

theorem wit_Launches_tail : (lqOf (hubbed []) 0).en = true ∧ hubLoc (hubbed []) true 1 0x301000 false = .ok 0x301000 ∧
    got (exec (.launchQueueTailWrite 0) (wr (hubbed []) 0x301000 4 4)) (fun t => ((lqOf t 0).tail, (lqOf t 0).en)) = some (4, true) ∧
    got (exec (.launchQueueTailWrite 0) (wr (hubbed []) 0x301000 4 5)) (fun t => ((lqOf t 0).en, t.hub.jseq)) = some (false, 1) := by
  repeat' apply And.intro
  all_goals decide +kernel

/-- A task list of one record at 0x302000 that waits for one join. -/
def listed : State := wrWords (hubbed [0x10001, 0, 0x303000, 77, 0, 0, 0, 0, 0x302000, 1]) 0x302000 [0x1000000000000E0, 0x6000000000000200, 1]

theorem wit_Launches_list : (served? listed 0 (fun r => decide (lKind r = 1))).isSome = true ∧
    (served? listed 0 (fun r => decide (lKind r = 1) || decide (3 ≤ lKind r) || (decide (lKind r = 2) && !cmdListed (lCmd r)))).map (fun x =>
      (lrecFail listed 0 x.1, (lqOf x.2 0).head)) = some (none, 1) ∧
    (headRec listed 0).map (fun r => decide (lKind r = 1)) = some true ∧ liveAll listed = [] ∧ listed.hub.launches = [] ∧
    (match headRec listed 0 with
      | some r => (match launchChecks listed 1 r with
          | .ok gs => decide (gs = [])
          | .error _ => false) && (match listRecs listed 1 (lDie r) false (lw r 8) (lCount r) with
          | .ok rs => decide (rs.map (·.join) = [1])
          | .error _ => false)
      | none => false) = true ∧
    got (exec (.taskListLaunch 0) (hubbed [3, 0, 0x303000, 77])) (fun t => (rd t 0x303000 8, rd t 0x303008 8 % 256, (lqOf t 0).head)) = some (77, 2, 1) := by
  repeat' apply And.intro
  all_goals decide +kernel

theorem wit_Launches_word : (served? (hubbed [0x10000, 0, 0x303000, 77, 0, 0, 0, 0, 0x48010]) 0 (fun r => decide (lKind r = 0))).map (fun x => lrecFail (hubbed []) 0 x.1) = some none ∧
    (match headRec (hubbed [0x10000, 0, 0x303000, 77, 0, 0, 0, 0, 0x40310]) 0 with
      | some r => (tileDecode (hubbed []) (launchWord (hubbed []) 0 r 5)).toBool
      | none => false) = true ∧
    got (exec (.tileWordLaunch 0) (hubbed [0x10000, 0, 0x303000, 77, 0, 0, 0, 0, 0x10310])) (fun t => (rd t 0x303000 8, rd t 0x303008 8 % 256, t.hub.launches.length)) =
      some (77, 2, 0) ∧
    got (exec (.tileWordLaunch 0) (hubbed [0, 0, 0x303000, 77])) (fun t => (rd t 0x303000 8, rd t 0x303008 8 % 256)) = some (77, 2) := by
  repeat' apply And.intro
  all_goals decide +kernel

theorem wit_Launches_retire : let l : Launch := { tag := 9, q := 0, sysq := true, ctx := 1, kind := 1, cmpaddr := 0x303000, cmpval := 77, degr := true }
    let s := { hubbed [] with hub := { launches := [l] } }
    retired s l = true ∧ hubLoc s true 1 0x303000 true = .ok 0x303000 ∧ fld l.cmpaddr 0 4 = 0 ∧
    got (exec (.launchRetire 9) s) (fun t => (t.hub.launches.length, rd t 0x303000 8, rd t 0x303008 8)) = some (0, 77, 0x901000000) := by
  intro l s
  repeat' apply And.intro
  all_goals decide +kernel

/-- A command record with completion at 0x303000. -/
def cmdAt (c : Nat) (a b d : Word) : State := hubbed [2, 0, 0x303000, 77, 0, 0, 0, 0, BitVec.ofNat 64 c, a, b, d]

theorem wit_CommandForms_once : cmdRow (.savecfg 0) = some (0, 6, anyRec, Sys2Proof.Machine.savecfg) ∧
    (cmdHead (cmdAt 6 1 0x400000 2) 0 6 anyRec).map (fun x => lrecFail (cmdAt 6 1 0x400000 2) 0 x.1) = some none ∧
    got (exec (.savecfg 0) (cmdAt 6 1 0x400000 2)) (fun t => ((ctx t 1).saveBase, (ctx t 1).saveCnt, rd t 0x303008 8)) = some (0x400000, 2, 0) ∧
    got (exec (.savecfg 0) (cmdAt 6 1 0x400001 2)) (fun t => ((ctx t 1).saveBase, rd t 0x303000 8, rd t 0x303008 8 % 256)) = some (0, 77, 2) := by
  refine ⟨rfl, ?_⟩
  repeat' apply And.intro
  all_goals decide +kernel

theorem wit_CommandForms_begin : cmdRun (cmdAt 16 3 0 0) 0 16 = none ∧ (cmdHead (cmdAt 16 3 0 0) 0 16 anyRec).isSome = true ∧
    got (exec (.opset 0) (cmdAt 16 3 0 0)) (fun t => (t.hub.cmds.map (·.cmd), t.hub.opNext)) = some ([16], [{ op := 3 }]) ∧
    got (exec (.opset 0) (cmdAt 16 8 0 0)) (fun t => (t.hub.cmds.length, rd t 0x303008 8 % 256)) = some (0, 2) ∧
    got (exec (.tlbinvAll 0) { cmdAt 13 257 0 0 with tlb := [⟨0, 1, 0, 1, 0, 2 ^ 29, 0, true, true, false⟩] }) (fun t => (t.tlb.length, (ctx t 1).gen, t.hub.cmds.map (fun m => (m.cmd, m.phase)))) = some (0, 1, [(13, 1)]) := by
  repeat' apply And.intro
  all_goals decide +kernel

/-- A state with one command in progress. -/
def running (m : Cmd) (f : Core → Core) : State := { mapped with cores := (rig f).cores, hub := { cmds := [m], opNext := [{ op := 3 }] } }

/-- A command in progress, of queue 0. -/
def cmdOf (c : Nat) (a b d : Word) : Cmd := { q := 0, cmd := c, op0 := a, op1 := b, op2 := d }

theorem wit_CommandForms_end : coresOf (preemptClus (cmdOf 7 1 0 0)) = [] ∧ got (exec (.preempt 0) (running (cmdOf 7 1 0 0) id)) (fun t => t.hub.cmds.length) = some 0 ∧
    got (exec (.commandLimitExpiry 0) (running (cmdOf 7 1 1 0) id)) (fun t => (t.hub.cmds.length, t.hub.jseq)) = some (0, 1) ∧
    stillOn (running (cmdOf 10 2 0 0) id) 2 = [] ∧ wordRuns (running (cmdOf 10 2 0 0) id) 2 = false ∧
    got (exec (.stop 0) (running (cmdOf 10 2 0 0) id)) (fun t => t.hub.cmds.length) = some 0 ∧ stepCores (running (cmdOf 10 1 0 0) id) 1 = [0] ∧
    got (exec (.stopFallback 0) (running (cmdOf 10 1 0 0) id)) (fun t => ((cur t).stepStop, t.hub.cmds.map (·.phase))) = some (true, [1]) ∧
    oldCopies (running (cmdOf 13 1 0 0) id) 1 0 = false ∧ performed (running (cmdOf 13 1 0 0) id) [] = true ∧
    got (exec (.tlbinvEnd 0) (running (cmdOf 13 1 0 0) id)) (fun t => t.hub.cmds.length) = some 0 ∧
    stoppedCore (running (cmdOf 14 0x201 fr1 0x40) (fun c => { c with run := .stopped })) 1 fr1 = some 0 ∧
    joinSum (running (cmdOf 14 0x201 fr1 0x40) (fun c => { c with run := .stopped })) 0 = 0 ∧
    got (exec (.faultReplay 0) (running (cmdOf 14 0x201 fr1 0x40) (fun c => { c with run := .stopped }))) (fun t => t.hub.cmds.length) = some 0 ∧
    got (exec .operatingPointChange (running (cmdOf 16 3 0 0) id)) (fun t => (t.hub.op, t.hub.cmds.length)) = some (3, 0) := by
  repeat' apply And.intro
  all_goals decide +kernel

theorem wit_CommandEffects : physBad 0x300000 1 = false ∧ flying mapped 2 = false ∧ assignFail mapped 1 [(15, 0x300000)] = none ∧ bit (ctxD mapped 1 9) 15 = false ∧
    bit (ctxD mapped 1 9) 0 = true ∧ cluBusy { mapped with cores := [], hub := {} } 1 0 = false ∧ (ctx mapped 1).saveUsed = [] ∧ physBad 0x300000 128 = false ∧ (ctx mapped 1).fr.wait = [] ∧
    (∀ n, n < 64 → ctxValid State.reset n = false) ∧ State.reset.hub.trip.toNat ≤ 105 ∧ ¬ State.reset.hub.trip.toNat ≤ 104 ∧
    (let s := wrWords mapped 0x400000 [0x1000002, 0x10000, 0x10000]
     entBad s 2 (fun j => if j < 3 then BitVec.ofNat 64 (rd s (0x400000 + 8 * j) 8) else 0) = false ∧ ctxValid s 2 = false ∧
     (match ctxset (modCur s (fun c => { c with ic := [(0x1FFE0, 7), (0x20000, 8)] })) 2 0x400000 0x7 with
       | .ok t => decide ((cur t).ic = [(0x20000, 8)] ∧ ctxValid t 2 = true)
       | .error _ => false) = true) ∧
    regionOut mapped 1 0x400000 2 = false ∧ resumeCores mapped 1 ≠ [] ∧
    (match resume { modCur mapped (fun c => { c with stepStop := true }) with ctxs := mapped.ctxs.map (fun e => (e.1, { e.2 with stopped := true })) } 1 0 0 with
      | .ok t => decide ((cur t).stepStop = false ∧ (ctx t 1).stopped = false)
      | .error _ => false) = true ∧
    (match ctxset mapped 2 0x300000 0x1 with | .ok t => decide ((ctx t 2).d = []) | .error _ => false) = true ∧
    (match classign mapped 1 0x300000 0x8000 with | .ok t => decide (ctxD t 1 9 = 0x8001) | .error _ => false) = true ∧
    (match clrelease { mapped with cores := [], hub := {} } 1 0 1 with | .ok t => decide (ctxD t 1 9 = 0) | .error _ => false) = true ∧
    (match anset mapped 7 0x400 0x100 with | .ok t => decide (budgetOf t 7 = 0x1000400) | .error _ => false) = true ∧
    (match partset State.reset 0x3D 0 0 with | .ok t => decide (t.hub.partcfg = 0x3D) | .error _ => false) = true ∧
    (match ringConfig (wr mapped 0x300000 4 9) 1 0x300000 16 with | .ok t => decide ((ctx t 1).fr.head = 9 ∧ rd t 0x300008 4 = 9) | .error _ => false) = true ∧
    got (exec (.thermalTrip 1 105) State.reset) (fun t => t.hub.opNext) = some [{ op := 0, trip := true, arg := 0x6901 }] ∧
    got (exec .operatingPointChange { State.reset with hub := { opNext := [{ op := 0, trip := true, arg := 0x6901 }] } }) (fun t => (t.hub.op, t.hub.journal.map (·.arg))) = some (0, [0x6901]) ∧
    got (exec .operatingPointChange { State.reset with hub := { opNext := [{ op := 2, trip := true }, { op := 5, trip := true }, { op := 7 }] } }) (fun t =>
      (t.hub.op, t.hub.opNext.map (·.op), t.hub.tripAt)) = some (2, [5, 2], some (0, 2)) ∧
    got (exec .operatingPointChange { State.reset with hub := { opNext := [{ op := 7 }], tripAt := some (0, 2) } }) (fun t => t.hub.op) = some 2 ∧
    got (exec (.faultRingHeadWrite 1) { wr mapped 0x300000 4 7 with ctxs := [(1, { fr := { base := 0x300000, log2n := 4, tail := 9 } })] }) (fun t => (ctx t 1).fr.head) = some 7 := by
  repeat' apply And.intro
  all_goals decide +kernel

/-! ## Rules in full -/

theorem wit_WindowBytes : chk (rig id) 0x2000000000FFFFFF 1 1 true = .ok (.loc (spLoc 7 0x3FFFFF)) ∧ chk (rig id) 0x6000000000000480 8 8 false = .ok (.loc (spLoc 1 0x200080)) ∧
    chk (rig id) 0x10000000001FFFFF 1 1 true = .ok (.loc (spLoc 0 0x1FFFFF)) := by decide +kernel

theorem wit_BarrierReset : handles [(.barrierReset 1 1, (16, 16), (0x0055001300020003 + 9 * 2 ^ 64, 7, 8), (0x0000000300000007 + 8 * 2 ^ 64, 0x0055001300020003 + 9 * 2 ^ 64))] = true := by
  decide +kernel

theorem wit_SaturatingAndBitFields : Open sregs 1 0 ∧ quiet (cur sregs) = true ∧ occupied (cur sregs) 1 = false ∧ masked (cur sregs) 1 = false ∧ bit (entD (cur sregs) 10) 40 = false ∧
    got (exec (.adds 10 5 7 4 0) sregs) (fun t => (cur t).run) = some .stopped ∧ leaves sregs [(.adds 10 6 8 3 0, 10, 0xFFFFFFFFFFFFFFFF), (.subs 10 8 5 0 0, 10, 0x8000000000000001)] = true := by
  unfold Open
  repeat' apply And.intro
  all_goals decide +kernel

/-! ## Code objects -/

/-- A file with one image: its text and its entry vector (R319, R320). -/
def jcoFile (rev svi cmask res : Nat) : List Byte :=
  numBytes 64 (0x314F434A + 1 * 2 ^ 32 + 2 * 2 ^ 48 + 64 * 2 ^ 64 + 1 * 2 ^ 96 + 128 * 2 ^ 128 + res * 2 ^ 160) ++
    numBytes 32 (1 + svi + 144 * 2 ^ 64 + 32 * 2 ^ 128 + 2 ^ 192) ++ numBytes 32 (9 + 176 * 2 ^ 64 + 8 * 2 ^ 128 + 2 ^ 192) ++
    numBytes 16 (rev + svi * 2 ^ 16 + cmask * 2 ^ 64) ++ numBytes 40 0

def picks (r : Except JcoFail Nat) : Nat :=
  match r with
  | .ok n => n
  | .error .noimage => 100
  | .error .jcobad => 101
  | .error .cmdbad => 102

theorem test_code_objects : picks (jcoSelect (jcoFile 0x100 0 0 0) 0x100) = 0 ∧ picks (jcoSelect (jcoFile 0xFE 0 2 0) 0x100) = 0 ∧
    picks (jcoSelect (jcoFile 0xFE 0 1 0) 0x100) = 100 ∧ picks (jcoSelect (jcoFile 0 1 0 0) 0x100) = 0 ∧ picks (jcoSelect (jcoFile 0x100 0 0 1) 0x100) = 101 ∧
    jcoPatch (numBytes 10 0xFFFFFFFFFFFFFFFF02) 1 5 = numBytes 10 0x402 := by decide +kernel

end Sys2Proof.Machine
end

/-! PROOFS. The statements of spec/00_scope.md: the machine right after package reset, and what a host store into the frame of a live
record comes to. -/
section

namespace Sys2Proof.Machine

/-! ## Bit fields -/

/-- A bit outside a field that is written. -/
theorem getLsbD_setFld_out {n : Nat} (x : BitVec n) {lo len i : Nat} (v : Nat) (h : i < lo ∨ lo + len ≤ i) :
    (setFld x lo len v).getLsbD i = x.getLsbD i := by
  by_cases hn : i < n
  · rcases h with h | h
    · simp [setFld, hn, h]
    · have hlen : ¬ i - lo < len := by omega
      have hv : (BitVec.ofNat len v).getLsbD (i - lo) = false := BitVec.getLsbD_of_ge _ _ (by omega)
      simp [setFld, hn, hlen, hv]
  · rw [BitVec.getLsbD_of_ge _ _ (by omega), BitVec.getLsbD_of_ge _ _ (by omega)]

/-- A field apart from the one that is written. -/
theorem fld_setFld_apart {n : Nat} (x : BitVec n) {lo len lo' len' : Nat} (v : Nat) (h : lo' + len' ≤ lo ∨ lo + len ≤ lo') :
    fld (setFld x lo len v) lo' len' = fld x lo' len' := by
  refine congrArg BitVec.toNat (BitVec.eq_of_getLsbD_eq fun i hi => ?_)
  simp only [BitVec.getLsbD_extractLsb', hi, getLsbD_setFld_out x v (show lo' + i < lo ∨ lo + len ≤ lo' + i by omega)]

/-! ## Package reset (R11, R16, R417) -/

@[simp] theorem core_reset (k : Nat) : core State.reset k = {} := rfl
@[simp] theorem rdB_reset (a : Nat) : rdB State.reset a = 0 := rfl

/-- After reset the entry of a context holds its number alone (R340). -/
theorem ctxD_reset (n j : Nat) : ctxD State.reset n j = if j = 0 then setFld 0 16 6 n else 0 := rfl

/-- In doubleword 0 this bit is VALID (R340). -/
theorem ctxD_reset_bit24 (n j : Nat) : fld (ctxD State.reset n j) 24 1 = 0 := by
  rw [ctxD_reset]
  split
  · rw [fld_setFld_apart _ _ (by omega)]
    rfl
  · rfl

/-! ## A host store into the frame of a live record (R30, R371, R410) -/

theorem exec_hostMemoryWrite (pa n : Nat) (v : Line) (s : State) : exec (.hostMemoryWrite pa n v) s = .next (hostWrite s pa n v) := rfl

theorem foldl_setCtx_mem (f : State → Nat → Ctx) (l : List Nat) : ∀ s : State, (l.foldl (fun s c => setCtx s c (f s c)) s).mem = s.mem := by
  induction l with
  | nil => intro s; rfl
  | cons c t ih => intro s; exact ih (setCtx s c (f s c))

/-- Of all that follows a write, only the frames of live records change memory. -/
theorem madeDone_mem (s : State) (l n : Nat) : (madeDone s l n).mem = ((frameHits s l n).foldl breakFrame s).mem := by
  unfold madeDone
  dsimp only
  split <;> simp only [foldl_setCtx_mem]

theorem breakFrame_mem {s : State} {e : Nat × Nat × Word} {a : Nat} (ha : frameHome s e.1 (e.2.1 / 16) e.2.2 = a) :
    (breakFrame s e).mem = wrMem s.mem a 128 (freeN s (2 ^ 77 + 2 * a)) := by
  subst ha
  unfold breakFrame
  dsimp only
  split <;> rfl

/-- Where a host store meets the frame of one live record, that record's frame is free afterwards, whatever was stored. -/
theorem hostWrite_frame_mem {s : State} {pa n a : Nat} {e : Nat × Nat × Word} (v : Line) (hok : hostOk pa n = true) (hu : s.uecc = [])
    (hits : frameHits s pa n = [e]) (ha : frameHome s e.1 (e.2.1 / 16) e.2.2 = a) :
    (hostWrite s pa n v).mem = wrMem (wr s pa n v.toNat).mem a 128 (freeN s (2 ^ 77 + 2 * a)) := by
  have hc : errClear (wr s pa n v.toNat) pa n = wr s pa n v.toNat := by simp [errClear, hu]
  have hits' : frameHits (wr s pa n v.toNat) pa n = [e] := hits
  rw [hostWrite, if_pos hok, hc, madeDone_mem, hits']
  exact breakFrame_mem ha

/-- Two host stores into the frame of one live record leave the same bytes there. -/
theorem rd_hostWrite_frame {s : State} {pa n a m : Nat} {e : Nat × Nat × Word} (v w : Line) (hok : hostOk pa n = true) (hu : s.uecc = [])
    (hits : frameHits s pa n = [e]) (ha : frameHome s e.1 (e.2.1 / 16) e.2.2 = a) (hm : m ≤ 128) :
    rd (hostWrite s pa n v) a m = rd (hostWrite s pa n w) a m := by
  unfold rd
  rw [hostWrite_frame_mem v hok hu hits ha, hostWrite_frame_mem w hok hu hits ha]
  exact rdMem_congr m _ _ a fun i hi => by rw [tget_wrMem_in _ _ _ _ _ (by omega), tget_wrMem_in _ _ _ _ _ (by omega)]

/-- Context 1 is valid, has 64 KiB of cluster window, and its cluster 0 is switched out to an image at 2^20; a live record has the frame at
offset 0 of that window, which stands in the image behind its header of 256 bytes (R371). -/
def switchedOut : State :=
  { State.reset with
    ctxs := [(1, { d := [(0, 0x1000000#64), (7, 0x100#64), (28, 1#64)], sw := [(0, 2 ^ 20 + 1)] })]
    hub := { bootState := 4, orphans := [(1, 0, 0x6000000000000000#64)] } }

theorem frameHome_switchedOut : frameHome switchedOut 1 0 0x6000000000000000#64 = 2 ^ 20 + 256 := by decide +kernel

theorem frameHits_switchedOut : frameHits switchedOut (2 ^ 20 + 256) 1 = [(1, 0, 0x6000000000000000#64)] := by decide +kernel

/-- What stands at the first byte of the frame does not depend on what the host has stored there. -/
theorem rd_hostWrite_switchedOut (v w : Line) :
    rd (hostWrite switchedOut (2 ^ 20 + 256) 1 v) (2 ^ 20 + 256) 1 = rd (hostWrite switchedOut (2 ^ 20 + 256) 1 w) (2 ^ 20 + 256) 1 :=
  rd_hostWrite_frame v w (by decide) rfl frameHits_switchedOut frameHome_switchedOut (by omega)

end Sys2Proof.Machine

open Sys2Proof hiding core
open Sys2Proof.Machine

/-- Settles O5: the tables of the reset state are empty, so that each unit reads as its default. -/
theorem resetState : Obligations.ResetState := by
  refine ⟨rfl, rfl, rfl, rfl, rfl, rfl, rfl, rfl, rfl, rfl, rfl, rfl, rfl, rdB_reset, wf_reset, ctxD_reset_bit24, fun k => ?_⟩
  rw [core_reset]
  exact ⟨rfl, rfl, rfl, rfl, rfl, rfl, rfl, rfl, rfl, rfl, rfl, rfl⟩

/-- Refutes O54: the clause on host stores has no premise that keeps them off the frames of live records, whose bytes 0 to 127 such a store
leaves undefined (R30, log entry 51). The frame of a switched-out cluster stands in device memory, where the host's accesses reach: in
`switchedOut` the stores of 0 and of 1 read alike. -/
theorem not_bootAndHost : ¬ Obligations.BootAndHost := by
  intro h
  obtain ⟨-, -, -, -, -, hostAccess, -⟩ := h switchedOut
  obtain ⟨store, -⟩ := hostAccess (2 ^ 20 + 256) 1 (by omega) (by omega) (by decide) (by decide) (by omega)
  have stored (v : Line) : rd (hostWrite switchedOut (2 ^ 20 + 256) 1 v) (2 ^ 20 + 256) 1 = v.toNat % 2 ^ (8 * 1) := by
    obtain ⟨t, ht, -, hrd, -⟩ := store v
    rw [exec_hostMemoryWrite, Host.Outcome.next.injEq] at ht
    rwa [ht]
  have clash : (0 : Line).toNat % 2 ^ (8 * 1) = (1 : Line).toNat % 2 ^ (8 * 1) :=
    (stored 0).symm.trans ((rd_hostWrite_switchedOut 0 1).trans (stored 1))
  exact absurd clash (by decide +kernel)

end

/-! PROOFS. The statement of spec/01_overview.md on memory: every step keeps the canonical form. One lemma stands for each function of the
model that makes a state: `f_mem` where `f` leaves memory alone, `wf_f` where it keeps the form. They follow the calls, from the functions
that write a location up to `step`. -/
section

namespace Sys2Proof.Machine

/-! ## What leaves memory alone -/

/-- A loop of updates that leave memory alone leaves it alone. -/
theorem foldl_mem {β : Type} {f : State → β → State} (hf : ∀ s e, (f s e).mem = s.mem) (l : List β) (s : State) :
    (l.foldl f s).mem = s.mem := by
  induction l generalizing s with
  | nil => rfl
  | cons e l ih => exact (ih _).trans (hf s e)

/-! ### Registers, memory, requests -/

@[simp] theorem newId_mem (s : State) : (newId s).2.mem = s.mem := rfl

@[simp] theorem wx_mem (s b d v) : (wx s b d v).mem = s.mem := by
  unfold wx
  split <;> rfl

@[simp] theorem wv_mem (s b d r) : (wv s b d r).mem = s.mem := rfl

@[simp] theorem wp_mem (s d b) : (wp s d b).mem = s.mem := by
  unfold wp
  split <;> rfl

@[simp] theorem countErr_mem (s c) : (countErr s c).mem = s.mem := by
  unfold countErr
  split <;> rfl

@[simp] theorem errClear_mem (s l n) : (errClear s l n).mem = s.mem := by
  unfold errClear
  split <;> rfl

@[simp] theorem journal_mem (s kind code q cx tag arg) : (journal s kind code q cx tag arg).mem = s.mem := rfl
@[simp] theorem failLaunch_mem (s tag c) : (failLaunch s tag c).mem = s.mem := rfl
@[simp] theorem freezeQ_mem (s n q) : (freezeQ s n q).mem = s.mem := rfl
@[simp] theorem thawQ_mem (s n q) : (thawQ s n q).mem = s.mem := rfl
@[simp] theorem resumeTask_mem (s k) : (resumeTask s k).mem = s.mem := rfl
@[simp] theorem newCcy_mem (s) : (newCcy s).mem = s.mem := rfl

@[simp] theorem pushOrder_mem (s n key) : (pushOrder s n key).mem = s.mem := by
  unfold pushOrder
  dsimp only
  split_ifs <;> rfl

@[simp] theorem freezeOf_mem (s cx n q) : (freezeOf s cx n q).mem = s.mem := by
  unfold freezeOf
  split <;> rfl

@[simp] theorem onRecs_mem (s tag cx f) : (onRecs s tag cx f).mem = s.mem := by
  unfold onRecs
  split <;> rfl

@[simp] theorem liveAdd_mem (s tag cx n f) : (liveAdd s tag cx n f).mem = s.mem := by
  simp [liveAdd]

@[simp] theorem liveDel_mem (s tag cx n f) : (liveDel s tag cx n f).mem = s.mem := by
  simp [liveDel]

@[simp] theorem setLq_mem (s q x) : (setLq s q x).mem = s.mem := rfl

@[simp] theorem softTouch_mem (s l n) : (softTouch s l n).mem = s.mem := by
  unfold softTouch
  split <;> rfl

@[simp] theorem evSet_mem (s n w m) : (evSet s n w m).mem = s.mem := rfl
@[simp] theorem addReq_mem (s r) : (addReq s r).mem = s.mem := rfl
@[simp] theorem setReq_mem (s id f) : (setReq s id f).mem = s.mem := rfl
@[simp] theorem delReq_mem (s id) : (delReq s id).mem = s.mem := rfl
@[simp] theorem addLand_mem (s l) : (addLand s l).mem = s.mem := rfl

/-! ### From fetch to commit -/

@[simp] theorem taskEnd_mem (s k) : (taskEnd s k).mem = s.mem := by
  unfold taskEnd
  split <;> rfl

@[simp] theorem putScale_mem (pre us n s) : (putScale pre us n s).mem = s.mem := by
  unfold putScale
  split <;> rfl

@[simp] theorem putScales_mem (pre s us) : (putScales pre s us).mem = s.mem := foldl_mem (by simp) _ _

@[simp] theorem bundleOrder_mem (pre ops s) : (bundleOrder pre ops s).mem = s.mem := by
  unfold bundleOrder
  split <;> rfl

@[simp] theorem settle_mem (pre ops ctl s) : (settle pre ops ctl s).mem = s.mem := rfl

@[simp] theorem sendPread_mem (s a n) : (sendPread s a n).mem = s.mem := by
  unfold sendPread
  split <;> rfl

/-! ### The homes -/

@[simp] theorem setFport_mem (s p v) : (setFport s p v).mem = s.mem := rfl
@[simp] theorem takeIn_mem (s p) : (takeIn s p).mem = s.mem := rfl
@[simp] theorem outReq_mem (s r) : (outReq s r).mem = s.mem := rfl
@[simp] theorem addComp_mem (s loc n v frame die owner cx tag slack exh) : (addComp s loc n v frame die owner cx tag slack exh).mem = s.mem := rfl

@[simp] theorem exhReply_mem (s k exh) : (exhReply s k exh).mem = s.mem := by
  unfold exhReply
  dsimp only
  split_ifs <;> rfl

@[simp] theorem homeArrive_mem (s id) : (homeArrive s id).mem = s.mem := by
  unfold homeArrive
  split
  · split
    · rfl
    · split
      · rfl
      · split <;> rfl
  · rfl

@[simp] theorem homeGrant_mem (s h) : (homeGrant s h).mem = s.mem := by
  unfold homeGrant
  dsimp only
  split <;> rfl

@[simp] theorem served_mem (s r l t res) : (served s r l t res).mem = s.mem := by
  unfold served
  split <;> rfl

@[simp] theorem farReqs_mem (b l) : ∀ s, (farReqs b l s).1.mem = s.mem := by
  induction l with
  | nil => intro s; rfl
  | cons e l ih => intro s; exact ih _

@[simp] theorem dropReqs_mem (s ids) : (dropReqs s ids).mem = s.mem := rfl
@[simp] theorem fillPart_mem (s k l i d) : (fillPart s k l i d).mem = s.mem := rfl

@[simp] theorem replyStep_mem (s id) : (replyStep s id).mem = s.mem := by
  unfold replyStep
  dsimp only
  repeat' split
  all_goals simp

@[simp] theorem ackStep_mem (s id) : (ackStep s id).mem = s.mem := by
  unfold ackStep
  split
  · split
    · simp
    · rfl
  · rfl

@[simp] theorem releaseStep_mem (s id) : (releaseStep s id).mem = s.mem := by
  unfold releaseStep
  split
  · split <;> rfl
  · rfl

@[simp] theorem acquireStep_mem (s id) : (acquireStep s id).mem = s.mem := by
  unfold acquireStep
  split
  · split <;> rfl
  · rfl

/-! ### The C slot -/

@[simp] theorem csrPut_mem (s n v) : (csrPut s n v).mem = s.mem := by
  unfold csrPut
  dsimp only
  split_ifs <;> rfl

@[simp] theorem csrClear_mem (pre s n v) : (csrClear pre s n v).mem = s.mem := by
  unfold csrClear
  split <;> simp

/-! ### The M slot -/

@[simp] theorem putReq_mem (s r) : (putReq s r).mem = s.mem := rfl

@[simp] theorem startLoad_mem (pre s a w n floor room dst t slot) : (startLoad pre s a w n floor room dst t slot).mem = s.mem := by
  unfold startLoad
  dsimp only
  split
  · split <;> simp
  · simp

@[simp] theorem landBusy_mem (s res id own) : (landBusy s res id own).mem = s.mem := rfl

@[simp] theorem lineReqs_mem (pre lt e l) : ∀ s i, (lineReqs pre lt e s i l).1.mem = s.mem := by
  induction l with
  | nil => intro s i; rfl
  | cons a l ih =>
    intro s i
    unfold lineReqs
    split
    · rfl
    · exact ih _ _

@[simp] theorem startTile_mem (pre s xa x f dst res t) : (startTile pre s xa x f dst res t).mem = s.mem := by
  unfold startTile
  dsimp only
  split
  · rw [landBusy_mem, addLand_mem, foldl_mem (by simp), newId_mem]
  · simp

@[simp] theorem replyNow_mem (pre s loc n v slack) : (replyNow pre s loc n v slack).mem = s.mem := rfl
@[simp] theorem scopeMiss_mem (s sc) : (scopeMiss s sc).mem = s.mem := rfl

@[simp] theorem sendPoll_mem (pre s a) : (sendPoll pre s a).mem = s.mem := by
  unfold sendPoll
  split <;> rfl

/-! ### Vector operands -/

@[simp] theorem vput_mem (s b d n x) : (vput s b d n x).mem = s.mem := foldl_mem (by simp) _ _

@[simp] theorem vwrite_mem (pre s v b d eew r) : (vwrite pre s v b d eew r).mem = s.mem := by
  simp [vwrite]

@[simp] theorem vwriteMask_mem (pre s v b d r) : (vwriteMask pre s v b d r).mem = s.mem := rfl

@[simp] theorem putLanes_mem (s o) : (putLanes s o).mem = s.mem := by
  unfold putLanes
  split <;> rfl

/-! ### The X slot -/

@[simp] theorem busyFor_mem (s rs n mm) : (busyFor s rs n mm).mem = s.mem := rfl

/-! ### The E slot -/

@[simp] theorem copyAck_mem (s k p l acc) : (copyAck s k p l acc).mem = s.mem := rfl

@[simp] theorem copySeen_mem (s k p a n) : (copySeen s k p a n).mem = s.mem := by
  have line (t : State) (e : Word × Nat) : (match copyLoc t k p e.1 false with
      | .ok (some l) => copyAck (softTouch t l e.2) k p l 0
      | _ => t).mem = t.mem := by split <;> simp
  exact foldl_mem line _ s

@[simp] theorem setLive_mem (s k c f) : (setLive s k c f).mem = s.mem := rfl
@[simp] theorem copyDone_mem (s k c i) : (copyDone s k c i).mem = s.mem := rfl

@[simp] theorem copyFar_mem (s k c p i writing a v) : (copyFar s k c p i writing a v).mem = s.mem := by
  simp [copyFar]

/-! ### Tile words -/

@[simp] theorem barEpoch_mem (s t) : (barEpoch s t).mem = s.mem := by
  unfold barEpoch
  dsimp only
  split <;> rfl

@[simp] theorem setTile_mem (s id f) : (setTile s id f).mem = s.mem := rfl
@[simp] theorem wordTouch_mem (s id ls) : (wordTouch s id ls).mem = s.mem := rfl

@[simp] theorem tileAccept_mem (s id) : (tileAccept s id).mem = s.mem := by
  unfold tileAccept
  dsimp only
  repeat' split
  all_goals simp

@[simp] theorem podSend_mem (t ps s) : (podSend t ps s).mem = s.mem := foldl_mem (by simp) _ _

@[simp] theorem tileFetch_mem (s t) : (tileFetch s t).mem = s.mem := by
  simp [tileFetch]

@[simp] theorem tixFiles_mem (s t) : (tixFiles s t).mem = s.mem := by
  unfold tixFiles
  split <;> rfl

@[simp] theorem markDegr_mem (s t) : (markDegr s t).mem = s.mem := by
  unfold markDegr
  split <;> rfl

@[simp] theorem postTouch_mem (pre a n s) : (postTouch pre a n s).mem = s.mem := by
  unfold postTouch
  split <;> simp

/-! ### Translated code -/

@[simp] theorem wvx_mem (s v) : (wvx s v).mem = s.mem := rfl

@[simp] theorem sviCsrPut_mem (pre s o v) : (sviCsrPut pre s o v).mem = s.mem := by
  unfold sviCsrPut
  dsimp only
  split_ifs <;> simp

/-! ### The vector slots -/

@[simp] theorem setCfg_mem (s d vt vl) : (setCfg s d vt vl).mem = s.mem := by
  simp [setCfg]

@[simp] theorem vLoadReqs_mem (pre slot lt e n es ls) : ∀ s j, (vLoadReqs pre slot lt e n es s j ls).1.mem = s.mem := by
  induction ls with
  | nil => intro s j; rfl
  | cons l ls ih =>
    intro s j
    unfold vLoadReqs
    dsimp only
    split
    · exact (ih _ _).trans (foldl_mem (by simp) _ _)
    · exact ih _ _

@[simp] theorem vLoad_mem (pre s slot v d xa t es vl m) : (vLoad pre s slot v d xa t es vl m).mem = s.mem := by
  simp [vLoad]

/-! ### Translated vector code -/

@[simp] theorem rvSet_mem (pre s rd vt avl) : (rvSet pre s rd vt avl).mem = s.mem := by
  unfold rvSet
  split
  · simp
  · split
    · simp
    · split <;> simp

@[simp] theorem rvSat_mem (s b) : (rvSat s b).mem = s.mem := by
  unfold rvSat
  split <;> rfl

@[simp] theorem rvPut_mem (pre s v d eew vl els) : (rvPut pre s v d eew vl els).mem = s.mem := by
  simp [rvPut]

@[simp] theorem rvPutMask_mem (pre s v d els) : (rvPutMask pre s v d els).mem = s.mem := rfl
@[simp] theorem rvPut0_mem (pre s v d eew x) : (rvPut0 pre s v d eew x).mem = s.mem := rfl

@[simp] theorem rvArith_mem (pre s f6 vm vs2 vs1 f3 vd) : (rvArith pre s f6 vm vs2 vs1 f3 vd).mem = s.mem := by
  unfold rvArith
  dsimp only
  repeat' split
  all_goals simp

@[simp] theorem rvLoad_mem (pre s v vd xa x tailAll) : (rvLoad pre s v vd xa x tailAll).mem = s.mem := by
  simp [rvLoad]

@[simp] theorem paceReqs_mem (pre s) : (paceReqs pre s).mem = s.mem := by
  unfold paceReqs
  split <;> rfl

/-! ### A turn of a core -/

@[simp] theorem evwaitEnd_mem (s k) : (evwaitEnd s k).mem = s.mem := by
  unfold evwaitEnd
  split
  · split <;> rfl
  · rfl

@[simp] theorem evLimit_mem (s k) : (evLimit s k).mem = s.mem := by
  unfold evLimit
  dsimp only
  repeat' split
  all_goals rfl

@[simp] theorem bwLimit_mem (s k) : (bwLimit s k).mem = s.mem := by
  unfold bwLimit
  dsimp only
  repeat' split
  all_goals rfl

@[simp] theorem boundedLimit_mem (s k) : (boundedLimit s k).mem = s.mem := by
  simp [boundedLimit]

@[simp] theorem fenceComplete_mem (s k) : (fenceComplete s k).mem = s.mem := by
  unfold fenceComplete
  split
  · split <;> rfl
  · rfl

@[simp] theorem drainComplete_mem (s k) : (drainComplete s k).mem = s.mem := by
  unfold drainComplete
  dsimp only
  repeat' split
  all_goals rfl

@[simp] theorem pollReply_mem (s id) : (pollReply s id).mem = s.mem := by
  unfold pollReply
  dsimp only
  repeat' split
  all_goals simp

@[simp] theorem icinvFinish_mem (s k) : (icinvFinish s k).mem = s.mem := by
  unfold icinvFinish
  split <;> rfl

@[simp] theorem fetchArrival_mem (s k) : (fetchArrival s k).mem = s.mem := by
  unfold fetchArrival
  dsimp only
  split_ifs <;> rfl

@[simp] theorem turnCcy_mem (s) : (turnCcy s).mem = s.mem := by
  unfold turnCcy
  split <;> rfl

/-! ### The hub's answers to a core -/

@[simp] theorem syscEnd_mem (s k v) : (syscEnd s k v).mem = s.mem := rfl

@[simp] theorem syscNull_mem (s k) : (syscNull s k).mem = s.mem := by
  unfold syscNull
  split <;> rfl

@[simp] theorem syscInfo_mem (s k) : (syscInfo s k).mem = s.mem := by
  unfold syscInfo
  split
  · exact (modCore_mem ..).trans (syscEnd_mem ..)
  · rfl

@[simp] theorem syscFree_mem (s k) : (syscFree s k).mem = s.mem := by
  unfold syscFree
  split
  · dsimp only
    split
    · exact (syscEnd_mem ..).trans (setCtx_mem ..)
    · exact syscEnd_mem ..
  · rfl

@[simp] theorem syscSvi_mem (s k) : (syscSvi s k).mem = s.mem := by
  unfold syscSvi
  split
  · dsimp only
    split
    · exact syscEnd_mem ..
    · exact modCore_mem ..
  · rfl

@[simp] theorem syscOther_mem (s k) : (syscOther s k).mem = s.mem := by
  unfold syscOther
  split
  · split_ifs
    · rfl
    · exact (bump_mem _).trans (syscEnd_mem ..)
    · exact syscEnd_mem ..
  · rfl

@[simp] theorem compDone_mem (s id v) : (compDone s id v).mem = s.mem := rfl

@[simp] theorem gbarStep_mem (s id) : (gbarStep s id).mem = s.mem := by
  unfold gbarStep
  split
  · rfl
  · split
    · dsimp only
      split_ifs
      · rfl
      · rw [bump_mem, foldl_mem (by simp), setCtx_mem]
      · rw [foldl_mem (by simp), setCtx_mem]
      · rfl
    · rfl

/-! ### Tasks -/

@[simp] theorem saveFull_mem (s k) : (saveFull s k).mem = s.mem := rfl
@[simp] theorem writeBack_mem (e s) : (writeBack e s).mem = s.mem := rfl

@[simp] theorem dispatchCcy_mem (s n) : (dispatchCcy s n).mem = s.mem := by
  unfold dispatchCcy
  split <;> rfl

/-! ### Launches -/

@[simp] theorem cleanLine_mem (s i) : (cleanLine s i).mem = s.mem := rfl

@[simp] theorem tailWrite_mem (s q) : (tailWrite s q).mem = s.mem := by
  unfold tailWrite
  dsimp only
  repeat' split
  all_goals rfl

@[simp] theorem launchIn_mem (s l gs) : (launchIn s l gs).mem = s.mem := rfl

/-! ### Boot and host -/

@[simp] theorem linkJournal_mem (s port up) : (linkJournal s port up).mem = s.mem := rfl

@[simp] theorem bootGo_mem (s) : (bootGo s).mem = s.mem := by
  unfold bootGo
  split <;> rfl

@[simp] theorem imageLoaded_mem (s ok) : (imageLoaded s ok).mem = s.mem := by
  unfold imageLoaded
  dsimp only
  split_ifs <;> rfl

@[simp] theorem imageVerified_mem (s) : (imageVerified s).mem = s.mem := by
  unfold imageVerified
  dsimp only
  repeat' split
  all_goals rfl

@[simp] theorem registerWrite_mem (s off v) : (registerWrite s off v).mem = s.mem := by
  unfold registerWrite
  dsimp only
  split_ifs <;> simp

@[simp] theorem hostRead_mem (s pa n) : (hostRead s pa n).mem = s.mem := by
  unfold hostRead
  dsimp only
  repeat' split
  all_goals rfl

@[simp] theorem alignSlots_mem (s port up) : (alignSlots s port up).mem = s.mem := by
  unfold alignSlots
  dsimp only
  split_ifs <;> rfl

/-! ### State commands -/

@[simp] theorem setCmd_mem (s m f) : (setCmd s m f).mem = s.mem := rfl
@[simp] theorem setOwn_mem (s n j c v) : (setOwn s n j c v).mem = s.mem := rfl
@[simp] theorem assignOne_mem (n s e) : (assignOne n s e).mem = s.mem := rfl
@[simp] theorem releaseOne_mem (n s c) : (releaseOne n s c).mem = s.mem := foldl_mem (by simp) _ _
@[simp] theorem addSvi_mem (s cx i) : (addSvi s cx i).mem = s.mem := rfl

@[simp] theorem unwb_mem (s n c f) : (unwb s n c f).mem = s.mem := by
  unfold unwb
  dsimp only
  split <;> rfl

@[simp] theorem thermal_mem (s die temp) : (thermal s die temp).mem = s.mem := by
  unfold thermal
  split <;> rfl

/-! ### The fabric -/

theorem injectOne_mem {s t d} (e : injectOne s d = some t) : t.mem = s.mem := by
  unfold injectOne at e
  dsimp only at e
  split at e
  · cases e
  · obtain ⟨p, -, rfl⟩ := Option.map_eq_some_iff.mp e
    rfl

@[simp] theorem injectN_mem (n d) : ∀ s, (injectN n d s).mem = s.mem := by
  induction n with
  | zero => intro s; rfl
  | succ n ih =>
    intro s
    unfold injectN
    split
    · rfl
    next e => exact (ih _).trans (injectOne_mem e)

@[simp] theorem inject_mem (s d) : (inject s d).mem = s.mem := by
  simp [inject]

@[simp] theorem mergeAt_mem (s port) : (mergeAt s port).mem = s.mem := by
  unfold mergeAt
  dsimp only
  repeat' split
  all_goals rfl

@[simp] theorem slotDone_mem (s port) : (slotDone s port).mem = s.mem := rfl
@[simp] theorem sendOut_mem (s port g) : (sendOut s port g).mem = s.mem := rfl

@[simp] theorem demote_mem (s port) : (demote s port).mem = s.mem := by
  have one (t : State) (p : Pkt) : (if hasRoom t p.exhausted then
      setFport { t with pkts := t.pkts.map (fun x => if x.id = p.id then x.exhausted else x) } port (satAdd (fport t port) 24 16)
    else t).mem = t.mem := by split <;> rfl
  exact foldl_mem one _ s

@[simp] theorem passSlots_mem (n port) : ∀ s, (passSlots n port s).mem = s.mem := by
  induction n with
  | zero => intro s; rfl
  | succ n ih =>
    intro s
    unfold passSlots
    refine (ih _).trans ?_
    split <;> simp

@[simp] theorem slotBegin_mem (s port) : (slotBegin s port).mem = s.mem := by
  unfold slotBegin
  split <;> simp

@[simp] theorem toFree_mem (n port) : ∀ s, (toFree n port s).mem = s.mem := by
  induction n with
  | zero => intro s; rfl
  | succ n ih =>
    intro s
    unfold toFree
    split
    · rfl
    · exact ih _

@[simp] theorem toSlot_mem (n port k) : ∀ s, (toSlot n port k s).mem = s.mem := by
  induction n with
  | zero => intro s; rfl
  | succ n ih =>
    intro s
    have sent : (match slotFlit s port with | none => s | some p => sendOut s port p).mem = s.mem := by split <;> rfl
    unfold toSlot
    dsimp only
    split
    · exact sent
    · exact (ih _).trans sent

@[simp] theorem freeSlots_mem (n port) : ∀ s, (freeSlots n port s).mem = s.mem := by
  induction n with
  | zero => intro s; rfl
  | succ n ih => intro s; exact (ih _).trans (toFree_mem 257 port s)

@[simp] theorem seeGrant_mem (s place g) : (seeGrant s place g).mem = s.mem := rfl

@[simp] theorem portGrant_mem (s port) : (portGrant s port).mem = s.mem := by
  unfold portGrant
  split
  · rfl
  · split
    · rfl
    · simp

@[simp] theorem ejectReq_mem (s d g) : (ejectReq s d g).mem = s.mem := rfl
@[simp] theorem ejectPart_mem (s g) : (ejectPart s g).mem = s.mem := rfl

@[simp] theorem genExh_mem (s r exh) : (genExh s r exh).mem = s.mem := by
  unfold genExh
  split <;> simp

@[simp] theorem packetArrival_mem (s place hdr addr data) : (packetArrival s place hdr addr data).mem = s.mem := by
  unfold packetArrival
  dsimp only
  split_ifs <;> simp

@[simp] theorem circuitSlot_mem (s port k) : (circuitSlot s port k).mem = s.mem := by
  unfold circuitSlot
  split <;> simp

@[simp] theorem tlbFill_mem (s place cx va) : (tlbFill s place cx va).mem = s.mem := by
  unfold tlbFill
  split
  · rfl
  · split
    · rfl
    · split <;> rfl

@[simp] theorem walkComplete_mem (s cx page) : (walkComplete s cx page).mem = s.mem := by
  unfold walkComplete
  dsimp only
  split_ifs <;> simp

@[simp] theorem tlbDrop_mem (s cx page) : (tlbDrop s cx page).mem = s.mem := rfl

/-! ### Commands that take cores -/

@[simp] theorem askAll_mem (s n back ks) : (askAll s n back ks).mem = s.mem := foldl_mem (by simp) _ _

@[simp] theorem stepRound_mem (s n) : (stepRound s n).mem = s.mem := by
  unfold stepRound
  dsimp only
  split <;> exact foldl_mem (by simp) _ _

@[simp] theorem releaseAll_mem (s n) : (releaseAll s n).mem = s.mem := (foldl_mem (by simp) _ _).trans (foldl_mem (by simp) _ _)

/-! ## State commands that leave memory alone -/

theorem ctxset_mem {s t : State} {a b c : Word} (e : ctxset s a b c = .ok t) : t.mem = s.mem := by
  unfold ctxset at e
  dsimp only at e
  split_ifs at e <;> cases e <;> rfl

theorem classign_mem {s t : State} {a b c : Word} (e : classign s a b c = .ok t) : t.mem = s.mem := by
  unfold classign at e
  dsimp only at e
  repeat' split at e
  all_goals cases e
  exact foldl_mem (by simp) _ _

theorem clrelease_mem {s t : State} {a b c : Word} (e : clrelease s a b c = .ok t) : t.mem = s.mem := by
  unfold clrelease at e
  dsimp only at e
  split_ifs at e
  cases e
  exact foldl_mem (by simp) _ _

theorem qconf_mem {s t : State} {a b c : Word} (e : qconf s a b c = .ok t) : t.mem = s.mem := by
  unfold qconf at e
  dsimp only at e
  split_ifs at e
  cases e
  simp

theorem savecfg_mem {s t : State} {a b c : Word} (e : savecfg s a b c = .ok t) : t.mem = s.mem := by
  unfold savecfg at e
  dsimp only at e
  split_ifs at e
  cases e
  rfl

theorem tlbinvRange_mem {s : State} {a b c : Word} {r} (e : tlbinvRange s a b c = .ok r) : r.1.mem = s.mem := by
  unfold tlbinvRange at e
  split_ifs at e
  cases e
  rfl

theorem tlbinvAll_mem {s : State} {a b c : Word} {r} (e : tlbinvAll s a b c = .ok r) : r.1.mem = s.mem := by
  unfold tlbinvAll at e
  split_ifs at e
  cases e
  rfl

theorem faultResume_mem {s t : State} {a b c : Word} (e : faultResume s a b c = .ok t) : t.mem = s.mem := by
  unfold faultResume at e
  dsimp only at e
  repeat' split at e
  all_goals cases e
  all_goals simp

theorem fplan_mem {s t : State} {a b c : Word} (e : fplan s a b c = .ok t) : t.mem = s.mem := by
  unfold fplan at e
  dsimp only at e
  split_ifs at e
  cases e
  rfl

theorem fplanDegr_mem {s t : State} {a b c : Word} (e : fplanDegr s a b c = .ok t) : t.mem = s.mem := by
  unfold fplanDegr at e
  dsimp only at e
  split_ifs at e
  cases e
  rfl

theorem opset_mem {s : State} {a b c : Word} {r} (e : opset s a b c = .ok r) : r.1.mem = s.mem := by
  unfold opset at e
  split_ifs at e
  cases e
  rfl

theorem anset_mem {s t : State} {a b c : Word} (e : anset s a b c = .ok t) : t.mem = s.mem := by
  unfold anset at e
  split_ifs at e
  cases e
  rfl

theorem tripset_mem {s t : State} {a b c : Word} (e : tripset s a b c = .ok t) : t.mem = s.mem := by
  unfold tripset at e
  split_ifs at e
  cases e
  rfl

theorem preemptBegin_mem {s : State} {a b c : Word} {r} (e : preemptBegin s a b c = .ok r) : r.1.mem = s.mem := by
  unfold preemptBegin at e
  split_ifs at e
  cases e
  simp

theorem swoutBegin_mem {s : State} {a b c : Word} {r} (e : swoutBegin s a b c = .ok r) : r.1.mem = s.mem := by
  unfold swoutBegin at e
  dsimp only at e
  split_ifs at e
  cases e
  exact (askAll_mem ..).trans (foldl_mem (by simp) _ _)

theorem stopBegin_mem {s : State} {a b c : Word} {r} (e : stopBegin s a b c = .ok r) : r.1.mem = s.mem := by
  unfold stopBegin at e
  dsimp only at e
  split_ifs at e
  cases e
  simp

theorem resume_mem {s t : State} {a b c : Word} (e : resume s a b c = .ok t) : t.mem = s.mem := by
  unfold resume at e
  split_ifs at e
  cases e
  simp

theorem serve_mem {s : State} {r} (e : serve s = some r) : r.2.mem = s.mem := by
  unfold serve at e
  dsimp only at e
  repeat' split at e
  all_goals cases e
  all_goals rfl

/-! ## Reports, traps, pushes and records -/

/-- Where memory stands, so does its form. -/
theorem wf_of_mem {s t : State} (e : t.mem = s.mem) (h : Memory.wf s.mem = true) : Memory.wf t.mem = true := e ▸ h

/-- A loop of updates that keep the form keeps it. -/
theorem wf_states {β : Type} {f : State → β → State} (hf : ∀ t e, Memory.wf t.mem = true → Memory.wf (f t e).mem = true) (l : List β)
    {s : State} (h : Memory.wf s.mem = true) : Memory.wf (l.foldl f s).mem = true := by
  induction l generalizing s with
  | nil => exact h
  | cons e l ih => exact ih (hf s e h)

section
variable {s : State} (h : Memory.wf s.mem = true)
include h

theorem wf_ringPut {base log2n tail r} : Memory.wf (ringPut s base log2n tail r).mem = true :=
  wf_wr (wf_states (fun _ _ ht => wf_wr ht _ _ _) _ (wf_wrWords _ h _)) _ _ _

theorem wf_putFault {cx r} : Memory.wf (putFault s cx r).mem = true := by
  unfold putFault
  dsimp only
  split_ifs <;> simp [wf_ringPut, wf_wrMem, h]

theorem wf_report {k i b off links} : Memory.wf (report s k i b off links).mem = true :=
  wf_putFault (wf_of_mem (failLaunch_mem ..) h)
theorem wf_reportCtx {cx i tag frame qid links} : Memory.wf (reportCtx s cx i tag frame qid links).mem = true :=
  wf_putFault (wf_of_mem (failLaunch_mem ..) h)
theorem wf_reportRec {cx i tag t} : Memory.wf (reportRec s cx i tag t).mem = true :=
  wf_putFault (wf_of_mem (failLaunch_mem ..) h)
theorem wf_reportLate {k cx tag frame off i links} : Memory.wf (reportLate s k cx tag frame off i links).mem = true :=
  wf_putFault (wf_of_mem (failLaunch_mem ..) h)

theorem wf_takeTrap {k t links} : Memory.wf (takeTrap s k t links).mem = true := by
  unfold takeTrap
  dsimp only
  split <;> simp [wf_report, h]

theorem wf_pendTrap {k t} : Memory.wf (pendTrap s k t).mem = true := wf_report h

theorem wf_raiseTrap {t} : Memory.wf (raiseTrap s t).mem = true := by
  unfold raiseTrap
  split
  · exact wf_takeTrap h
  · exact wf_pendTrap h

theorem wf_lateTrap {k t} : Memory.wf (lateTrap s k t).mem = true := by
  unfold lateTrap
  dsimp only
  split
  · exact wf_pendTrap h
  · exact wf_report h

theorem wf_emuEnter {k b mask} : Memory.wf (emuEnter s k b mask).mem = true := wf_wr (wf_wr (wf_wr h _ _ _) _ _ _) _ _ _

theorem wf_faultAt {i} : Memory.wf (faultAt s i).mem = true := wf_raiseTrap (wf_of_mem (countErr_mem s _) h)

theorem wf_undefAt {mask} : Memory.wf (undefAt s mask).mem = true := by
  unfold undefAt
  dsimp only
  split_ifs
  · exact wf_faultAt h
  · exact wf_emuEnter h
  · exact h
  · exact wf_faultAt h

/-! ### Pushes of records -/

theorem wf_pushQ {t cx n key r} (e : pushQ s cx n key r = .ok t) : Memory.wf t.mem = true := by
  have hp : Memory.wf (pushOrder s n key).mem = true := wf_of_mem (pushOrder_mem s n key) h
  unfold pushQ at e
  dsimp only at e
  repeat' split at e
  all_goals cases e
  · exact wf_of_mem (setClu_mem ..) hp
  · exact wf_of_mem (setClu_mem ..) (wf_wrRec hp _ _)

theorem wf_pushImg {t cx n img r} (e : pushImg s cx n img r = .ok t) : Memory.wf t.mem = true := by
  unfold pushImg at e
  dsimp only at e
  repeat' split at e
  all_goals cases e
  exact wf_wr (wf_wrRec h _ _) _ _ _

theorem wf_pushRec {t cx n key r} (e : pushRec s cx n key r = .ok t) : Memory.wf t.mem = true := by
  unfold pushRec at e
  split at e
  · exact wf_pushImg h e
  · exact wf_pushQ h e

theorem wf_pushHw {cx n key tag r} : Memory.wf (pushHw s cx n key tag r).mem = true := by
  unfold pushHw
  split
  next e => exact wf_pushRec h e
  · exact wf_of_mem (freezeOf_mem ..) (wf_reportRec h)

theorem wf_joinDec {cx d f} : Memory.wf (joinDec s cx d f).mem = true := by
  unfold joinDec
  dsimp only
  split_ifs
  · exact wf_wrRec h _ _
  · exact wf_reportRec h
  · exact wf_pushHw (wf_wrRec h _ _)
  · exact wf_wrRec h _ _

theorem wf_breakFrame {e} : Memory.wf (breakFrame s e).mem = true := by
  rw [breakFrame_mem rfl]
  exact wf_wrMem _ h _ _

theorem wf_madeDone {l n} : Memory.wf (madeDone s l n).mem = true := by
  rw [madeDone_mem]
  exact wf_states (fun _ _ ht => wf_breakFrame ht) _ h

theorem wf_softDone {l n} : Memory.wf (softDone s l n).mem = true := wf_madeDone (wf_of_mem (softTouch_mem s l n) h)

theorem wf_softWrite {l n bs} : Memory.wf (softWrite s l n bs).mem = true := by
  have cleared {t : State} (ht : Memory.wf t.mem = true) (l n) : Memory.wf (softDone (errClear t l n) l n).mem = true :=
    wf_softDone (wf_of_mem (errClear_mem t l n) ht)
  have written : Memory.wf { s with mem := wrList s.mem l bs }.mem = true := wf_wrList bs h l
  unfold softWrite
  split
  · exact cleared written l n
  · exact wf_states (fun _ _ ht => cleared ht _ _) _ written

theorem wf_frameHdr {a tag cx} : Memory.wf (frameHdr s a tag cx).mem = true := wf_wr (wf_wr h _ _ _) _ _ _

theorem wf_liveRec {cx d tag r} : Memory.wf (liveRec s cx d tag r).mem = true := by
  have put {t : State} (ht : Memory.wf t.mem = true) (a f n) :
      Memory.wf (liveAdd (frameHdr (wrRec t a r) a tag cx) tag cx n f).mem = true :=
    wf_of_mem (liveAdd_mem ..) (wf_frameHdr (wf_wrRec ht a r))
  unfold liveRec
  dsimp only
  split
  · refine wf_breakFrame (put ?_ _ _ _)
    split <;> simp [h]
  · refine put ?_ _ _ _
    split <;> simp [h]

theorem wf_pushOk {t cx d key tag r} (e : pushOk s cx d key tag r = .ok t) : Memory.wf t.mem = true := by
  unfold pushOk at e
  split at e
  · exact wf_pushRec (wf_liveRec h) e
  · cases e
    exact wf_liveRec h

theorem wf_setCommitted {k} : Memory.wf (setCommitted s k).mem = true := wf_wr (s := modCore s k _) h _ _ _

theorem wf_exitCommit {k b} : Memory.wf (exitCommit s k b).mem = true := by
  unfold exitCommit
  refine wf_of_mem (liveDel_mem ..) (wf_wr ?_ _ _ _)
  split <;> simp [h]

theorem wf_contCommit {k t} : Memory.wf (contCommit s k t).mem = true := by
  unfold contCommit
  dsimp only
  split
  · exact wf_pushHw (wf_wrRec h _ _)
  · exact wf_wrRec h _ _

end

/-! ## From the effects of a bundle to its commit -/

/-- The effects of a slot operation keep the form of memory, whatever the state before the bundle. -/
structure SlotOp.KeepsForm (o : SlotOp) : Prop where
  eff : ∀ pre s, Memory.wf s.mem = true → Memory.wf (o.eff pre s).mem = true
  effu : ∀ pre s, Memory.wf s.mem = true → Memory.wf (o.effu pre s).1.mem = true
  late : ∀ pre s, Memory.wf s.mem = true → Memory.wf (o.late pre s).mem = true

section
variable {pre : State} {ops : List SlotOp} (ho : ∀ o ∈ ops, o.KeepsForm)
include ho

theorem wf_effectsGo {s : State} (h : Memory.wf s.mem = true) (us) : Memory.wf (effectsGo pre ops s us).1.mem = true := by
  induction ops generalizing s us with
  | nil => exact h
  | cons o t ih =>
    have ht : ∀ o ∈ t, o.KeepsForm := fun o m => ho o (List.mem_cons_of_mem _ m)
    have keeps : o.KeepsForm := ho o List.mem_cons_self
    unfold effectsGo
    split
    · exact ih ht (keeps.effu pre _ (keeps.eff pre s h)) _
    · exact ih ht h us

theorem wf_effects {s : State} (h : Memory.wf s.mem = true) : Memory.wf (effects pre ops s).mem = true :=
  wf_of_mem (putScales_mem ..) (wf_effectsGo ho h [])

theorem wf_lates {s : State} (h : Memory.wf s.mem = true) : Memory.wf (lates pre ops s).mem = true := by
  induction ops generalizing s with
  | nil => exact h
  | cons o t ih =>
    refine ih (fun o m => ho o (List.mem_cons_of_mem _ m)) ?_
    split
    · exact (ho o List.mem_cons_self).late pre s h
    · exact h

end

theorem wf_control {s : State} (h : Memory.wf s.mem = true) {ds ctl} : Memory.wf (control s ds ctl).mem = true := by
  cases ctl with
  | exit => exact wf_of_mem (modCur_mem ..) (wf_exitCommit h)
  | cont t => exact wf_of_mem (modCur_mem ..) (wf_contCommit h)
  | _ => exact h

theorem wf_afterCommit {s : State} (h : Memory.wf s.mem = true) {off ctl} : Memory.wf (afterCommit s off ctl).mem = true := by
  cases ctl with
  | exit => exact wf_of_mem (taskEnd_mem ..) h
  | cont t => exact wf_of_mem (taskEnd_mem ..) h
  | trap i =>
    have hs : Memory.wf (modCur s (fun c => { c with resume := c.pc })).mem = true := wf_of_mem (modCur_mem ..) h
    simp only [afterCommit]
    split
    · exact wf_raiseTrap hs
    · exact wf_pendTrap hs
  | _ => exact h

theorem wf_commit {s : State} {ops : List SlotOp} (ho : ∀ o ∈ ops, o.KeepsForm) (h : Memory.wf s.mem = true) :
    Memory.wf (commit s ops).mem = true := by
  have done : Memory.wf (lates s ops (effects s ops s)).mem = true := wf_lates ho (wf_effects ho h)
  unfold commit
  dsimp only
  refine wf_of_mem (bump_mem _) (wf_afterCommit (wf_of_mem (modCur_mem ..) (wf_control ?_)))
  split
  · exact wf_setCommitted (by simpa using done)
  · simpa using done

theorem wf_issue {s : State} {ops : List SlotOp} (ho : ∀ o ∈ ops, o.KeepsForm) (h : Memory.wf s.mem = true) :
    Memory.wf (issue ops s).mem = true := by
  unfold issue
  dsimp only
  repeat' split
  · exact h
  · exact wf_undefAt h
  · exact h
  · exact h
  · exact wf_of_mem (sendPread_mem ..) h
  · exact h
  · exact wf_of_mem (bump_mem _) (wf_faultAt (wf_of_mem (modCur_mem ..) h))
  · exact h
  · exact wf_commit ho h

theorem wf_issue_one {s : State} {o : SlotOp} (ho : o.KeepsForm) (h : Memory.wf s.mem = true) : Memory.wf (issue [o] s).mem = true :=
  wf_issue (by simpa using ho) h

/-! ### Requests -/

section
variable {s : State} (h : Memory.wf s.mem = true)
include h

theorem wf_reportReq {r i} : Memory.wf (reportReq s r i).mem = true := by
  unfold reportReq
  cases r.dst with
  | remote hdr =>
    dsimp only
    split
    · exact wf_reportCtx h
    · exact h
  | _ => exact wf_reportLate h

theorem wf_wakeAt {k cx tag slack exh wake} {fail : State → State} (hf : Memory.wf (fail s).mem = true) :
    Memory.wf (wakeAt s k cx tag slack exh wake fail).mem = true := by
  unfold wakeAt
  dsimp only
  split
  · exact wf_of_mem (addComp_mem ..) h
  · exact hf

theorem wf_wakeUp {r wake} : Memory.wf (wakeUp s r wake).mem = true := by
  unfold wakeUp
  split
  · exact h
  · split
    · exact wf_of_mem (outReq_mem ..) h
    · exact wf_wakeAt h (wf_reportReq h)

theorem wf_amoApply {r l} : Memory.wf (amoApply s r l).1.mem = true := by
  unfold amoApply
  dsimp only
  split
  · split
    · exact wf_wakeUp (wf_wr h _ _ _)
    · exact wf_wr h _ _ _
  · exact wf_wr h _ _ _
  · exact wf_joinDec h
  · exact wf_wr h _ _ _
  · exact wf_wr h _ _ _
  · exact wf_wr h _ _ _
  · split
    · exact wf_wr h _ _ _
    · exact h
  · exact wf_wr h _ _ _
  · split
    · exact wf_of_mem (evSet_mem ..) h
    · exact wf_reportReq h
  · exact wf_wr h _ _ _

theorem wf_amoDone {r l} : Memory.wf (amoDone s r l).mem = true := by
  unfold amoDone
  split
  · exact wf_of_mem (softTouch_mem ..) h
  · exact wf_softDone h

theorem wf_failReq {r t f} : Memory.wf (failReq s r t f).mem = true := by
  have counted : Memory.wf (if isPread r then s else countErr s f.code).mem = true := by split <;> simp [h]
  have told {u : State} (hu : Memory.wf u.mem = true) (b : Bool) (i) : Memory.wf (if b then u else reportReq u r i).mem = true := by
    split
    · exact hu
    · exact wf_reportReq hu
  unfold failReq
  dsimp only
  cases r.dst with
  | land l i =>
    dsimp only
    split
    · exact wf_lateTrap (wf_of_mem (setCore_mem ..) (wf_of_mem (setReq_mem ..) counted))
    · exact wf_lateTrap (wf_of_mem (setReq_mem ..) counted)
  | remote hdr => exact wf_of_mem (setReq_mem ..) counted
  | slot loc n fr => exact wf_of_mem (delReq_mem ..) (wf_of_mem (addComp_mem ..) (wf_reportReq counted))
  | _ => exact wf_of_mem (setReq_mem ..) (told counted _ _)

theorem wf_performReq {r t} : Memory.wf (performReq s r t).mem = true := by
  unfold performReq
  dsimp only
  split
  · exact wf_of_mem (served_mem ..) (wf_amoApply h)
  · exact wf_of_mem (bump_mem _) (wf_failReq h)
  · exact wf_of_mem (served_mem ..) (wf_softWrite h)
  · split
    · exact wf_of_mem (bump_mem _) (wf_failReq h)
    · split
      · exact wf_of_mem (served_mem ..) (wf_of_mem (foldl_mem (by simp) _ _) h)
      · exact wf_of_mem (served_mem ..) (wf_amoDone (wf_amoApply h))

theorem wf_performAs {kd hn id t} : Memory.wf (performAs kd hn id t s).mem = true := by
  unfold performAs
  split
  · split
    · exact wf_performReq h
    · exact h
  · exact h

theorem wf_joinStep {id} : Memory.wf (joinStep s id).mem = true := by
  unfold joinStep
  split
  · split
    · refine wf_joinDec ?_
      have stored (c : Comp) : Memory.wf (if c.n = 0 then s else wr s c.loc c.n c.v.toNat).mem = true := by
        split
        · exact h
        · exact wf_wr h _ _ _
      split
      · exact wf_of_mem (exhReply_mem ..) (stored _)
      · exact stored _
    · exact h
  · exact h

end

/-! ## Stores, copies and tile words -/

section
variable {s : State} (h : Memory.wf s.mem = true)
include h

theorem wf_startStoreB {pre a w n slack slot bs posted} : Memory.wf (startStoreB pre s a w n slack slot bs posted).mem = true := by
  unfold startStoreB
  split
  · split
    · exact wf_softWrite h
    · exact wf_of_mem (putReq_mem ..) h
  · exact wf_of_mem (putReq_mem ..) h

theorem wf_startStore {pre a w n v slack slot posted} : Memory.wf (startStore pre s a w n v slack slot posted).mem = true :=
  wf_startStoreB h

theorem wf_startAmo {pre i f slot} : Memory.wf (startAmo pre s i f slot).mem = true := by
  unfold startAmo
  split
  · exact h
  · extract_lets ord miss u hold src base r y x
    have hu : Memory.wf u.mem = true := by
      unfold u
      split
      · exact wf_of_mem (scopeMiss_mem ..) h
      · exact h
    split
    · have hd : Memory.wf x.1.mem = true := wf_amoDone (wf_amoApply hu)
      cases f with
      | land t => exact wf_of_mem (addLand_mem ..) (wf_of_mem (newId_mem _) hd)
      | slot => exact wf_of_mem (replyNow_mem ..) hd
      | posted => exact hd
    · cases f with
      | land t => exact wf_of_mem (addLand_mem ..) (wf_of_mem (putReq_mem ..) (wf_of_mem (newId_mem _) hu))
      | slot => exact wf_of_mem (putReq_mem ..) hu
      | posted => exact wf_of_mem (putReq_mem ..) hu

omit h in
theorem wf_tileStores {pre v l} : ∀ {s : State} {i}, Memory.wf s.mem = true → Memory.wf (tileStores pre v s i l).mem = true := by
  induction l with
  | nil => intro s i h; exact h
  | cons a l ih =>
    intro s i h
    unfold tileStores
    split
    · exact h
    · exact ih (wf_startStore h)

omit h in
theorem wf_vStoreReqs {pre slot sew grp es ls} : ∀ {s : State}, Memory.wf s.mem = true →
    Memory.wf (vStoreReqs pre slot sew grp es s ls).mem = true := by
  induction ls with
  | nil => intro s h; exact h
  | cons l ls ih => intro s h; exact ih (wf_startStoreB h)

/-! ### Copies -/

theorem wf_copyWrite {k p n} : ∀ {a v}, Memory.wf (copyWrite s k p n a v).1.mem = true := by
  induction n with
  | zero => intro a v; exact h
  | succ n ih =>
    intro a v
    unfold copyWrite
    dsimp only
    split
    · exact wf_wrB ih _ _
    · exact ih
    · exact ih

theorem wf_copySoft {k p a n} : Memory.wf (copySoft s k p a n).mem = true := by
  refine wf_states (fun t e ht => ?_) _ h
  split
  · exact wf_of_mem (copyAck_mem ..) (wf_softDone (wf_of_mem (errClear_mem ..) ht))
  · exact ht

theorem wf_copyFault {k c p i a acc f} : Memory.wf (copyFault s k c p i a acc f).mem = true := by
  unfold copyFault
  split
  · exact h
  · exact wf_reportLate (wf_of_mem (countErr_mem ..) h)

theorem wf_copyPut {k c p i v} : Memory.wf (copyPut s k c p i v).mem = true := by
  unfold copyPut
  dsimp only
  split
  · exact wf_of_mem (copyDone_mem ..) (wf_of_mem (modCore_mem ..) h)
  · split
    · exact wf_of_mem (copyFar_mem ..) h
    · refine wf_of_mem (copyDone_mem ..) (wf_copyFault (wf_copySoft ?_))
      split <;> exact wf_copyWrite h

theorem wf_copyPerform {k c i} : Memory.wf (copyPerform s k c i).mem = true := by
  unfold copyPerform
  split
  · exact h
  · split
    · exact h
    · split
      · dsimp only
        split
        · exact wf_of_mem (copyDone_mem ..) (wf_of_mem (dropReqs_mem ..) h)
        · exact wf_copyPut (wf_of_mem (dropReqs_mem ..) h)
      · dsimp only
        split
        · exact wf_copyPut (wf_of_mem (modCore_mem ..) h)
        · split
          · exact wf_of_mem (copyFar_mem ..) h
          · exact wf_copyPut (wf_copyFault (wf_of_mem (copySeen_mem ..) h))

theorem wf_copyComplete {k c} : Memory.wf (copyComplete s k c).mem = true := by
  unfold copyComplete
  dsimp only
  split
  · exact h
  · split
    · exact h
    · split
      · exact wf_of_mem (modCore_mem ..) h
      · exact wf_joinDec (wf_of_mem (modCore_mem ..) h)

/-! ### Tile words -/

theorem wf_vWrite {cx k n} : ∀ {a v}, Memory.wf (vWrite s cx k n a v).1.mem = true := by
  induction n with
  | zero => intro a v; exact h
  | succ n ih =>
    intro a v
    unfold vWrite
    dsimp only
    split
    · exact wf_wrB ih _ _
    · exact ih
    · exact ih

theorem wf_tileStore {cx k n a v} : Memory.wf (tileStore cx k n a v s).1.mem = true := by
  refine wf_states (fun t e ht => ?_) _ (wf_vWrite h)
  split
  · exact wf_madeDone (wf_of_mem (errClear_mem ..) ht)
  · exact ht

omit h in
theorem wf_storeRows {cx k d l} : ∀ {s : State}, Memory.wf s.mem = true → Memory.wf (storeRows cx k d l s).1.mem = true := by
  induction l with
  | nil => intro s h; exact h
  | cons e l ih => intro s h; exact ih (wf_tileStore h)

theorem wf_storeBs {cx k d n bs} : Memory.wf (storeBs cx k d n bs s).1.mem = true := by
  unfold storeBs
  split
  · exact wf_tileStore h
  · exact h

theorem wf_scramble {cx k d salt} : Memory.wf (scramble cx k d salt s).mem = true := by
  unfold scramble
  dsimp only
  split
  · exact wf_vWrite (wf_states (fun _ _ ht => wf_vWrite ht) _ h)
  · exact wf_states (fun _ _ ht => wf_vWrite ht) _ h

omit h in
theorem wf_putOut {cx l} : ∀ {s : State}, Memory.wf s.mem = true → Memory.wf (putOut cx l s).1.mem = true := by
  induction l with
  | nil => intro s h; exact h
  | cons e l ih => intro s h; exact ih (wf_storeBs (wf_storeRows h))

theorem wf_stageFree {t} : Memory.wf (stageFree s t).mem = true := by
  unfold stageFree
  split
  · exact h
  · extract_lets lv fill cs u v
    split
    · exact h
    · have filled {w : State} (hw : Memory.wf w.mem = true) (n : Nat) (loc : Nat → Nat) : Memory.wf (fill w n loc).mem = true :=
        wf_states (fun _ _ ht => wf_wrB ht _ _) _ hw
      have hu : Memory.wf u.mem = true := wf_states (fun _ _ ht => filled ht _ _) _ h
      have hv : Memory.wf v.mem = true := by
        unfold v
        split
        · exact hu
        · exact wf_states (fun _ _ ht => filled ht _ _) _ hu
      split
      · exact hv
      · exact wf_states (fun _ _ ht => filled ht _ _) _ hv

theorem wf_spoilAll {t} : Memory.wf (spoilAll s t).mem = true := wf_states (fun _ _ ht => wf_scramble ht) _ h

theorem wf_childFault {id} : Memory.wf (childFault s id).mem = true := by
  unfold childFault
  split
  · split
    · exact wf_of_mem (bump_mem _) (wf_of_mem (setTile_mem ..) (wf_stageFree (wf_spoilAll h)))
    · exact h
  · exact h

theorem wf_putEnts {t bad} : Memory.wf (putEnts s t bad).mem = true :=
  wf_states (fun _ _ ht => wf_of_mem (wordTouch_mem ..) (wf_tileStore ht)) _ h

theorem wf_tileReport {t i ls} : Memory.wf (tileReport s t i ls).mem = true := by
  unfold tileReport
  split
  · exact wf_reportLate h
  · exact wf_reportCtx h

theorem wf_tileRun {t} : Memory.wf (tileRun s t).mem = true := by
  unfold tileRun
  extract_lets cs done rd own fail u hit ten o x r v
  have hdone {w : State} (hw : Memory.wf w.mem = true) (us g far cs) : Memory.wf (done w us g far cs).mem = true :=
    wf_of_mem (bump_mem _) (wf_of_mem (setTile_mem ..) hw)
  have hfail (f : TFail) : Memory.wf (fail f).mem = true :=
    wf_of_mem (bump_mem _) (wf_of_mem (setTile_mem ..) (wf_of_mem (countErr_mem ..) (wf_of_mem (dropReqs_mem ..) h)))
  have hx : Memory.wf x.1.mem = true := wf_putOut (wf_of_mem (dropReqs_mem ..) h)
  have hv : Memory.wf v.mem = true :=
    wf_states (fun _ _ ht => wf_scramble ht) _ (wf_of_mem (podSend_mem ..) (wf_of_mem (farReqs_mem ..) hx))
  split
  · exact hdone h _ _ _ _
  · split
    · exact wf_of_mem (tileFetch_mem ..) h
    · split
      · exact hfail _
      · split
        · exact hfail _
        · exact hdone (wf_stageFree (wf_of_mem (wordTouch_mem ..) hv)) _ _ _ _

theorem wf_tileStep {op id} : Memory.wf (tileStep op id s).mem = true := by
  unfold tileStep
  split
  · split
    · exact wf_tileRun h
    · exact h
  · exact h

end

/-! ## Cores, published code and tasks -/

section
variable {s : State} (h : Memory.wf s.mem = true)
include h

theorem wf_tileComplete {id} : Memory.wf (tileComplete s id).mem = true := by
  unfold tileComplete
  split
  · exact h
  · extract_lets out grpFree
    clear_value out
    cases out with
    | none => exact h
    | some bad =>
      dsimp -zeta only
      extract_lets a b c
      have ha : Memory.wf a.mem = true := by
        unfold a
        split
        · exact wf_spoilAll (wf_of_mem (dropReqs_mem ..) h)
        · exact wf_of_mem (dropReqs_mem ..) h
      have hb : Memory.wf b.mem = true := by
        unfold b
        split
        · exact wf_putEnts ha
        · split
          · exact ha
          · exact wf_tileReport ha
      have hc : Memory.wf c.mem = true := hb
      refine wf_of_mem (bump_mem _) ?_
      split
      · exact wf_of_mem (addComp_mem ..) (wf_of_mem (markDegr_mem ..) hc)
      · have hd {t} : Memory.wf (tixFiles c t).mem = true := wf_of_mem (tixFiles_mem ..) hc
        dsimp only
        split
        · exact wf_lateTrap (wf_of_mem (modCore_mem ..) hd)
        · exact wf_of_mem (modCore_mem ..) hd
        · exact wf_report hd
        · exact hd
      · exact hc

/-! ### Turns -/

theorem wf_frzto {k} : Memory.wf (frzto s k).mem = true := by
  unfold frzto
  dsimp only
  split
  · exact wf_of_mem (bump_mem _) (wf_lateTrap (wf_of_mem (setCore_mem ..) h))
  · exact h

theorem wf_trapNow {k} : Memory.wf (trapNow s k).mem = true := by
  unfold trapNow
  split
  · exact wf_takeTrap h
  · exact h

theorem wf_trapTaken {k} : Memory.wf (trapTaken s k).mem = true := by
  unfold trapTaken
  split
  · exact wf_trapNow h
  · exact h

theorem wf_trapTurn : Memory.wf (trapTurn s).mem = true := by
  unfold trapTurn
  dsimp only
  split
  · exact h
  · split
    · exact wf_trapNow (wf_of_mem (setCur_mem ..) h)
    · exact h

theorem wf_takeSave {k} : Memory.wf (takeSave s k).mem = true := wf_of_mem (modCore_mem ..) (wf_wr h _ _ _)

theorem wf_interruptTaken {k} : Memory.wf (interruptTaken s k).mem = true := by
  unfold interruptTaken
  dsimp only
  split
  · exact wf_takeSave h
  · exact h

theorem wf_takingTurn : Memory.wf (takingTurn s).mem = true := by
  unfold takingTurn
  dsimp only
  split
  · exact h
  · split_ifs
    · exact h
    · exact wf_takeSave (wf_of_mem (setCur_mem ..) h)
    · exact h

theorem wf_emuEntry {k} : Memory.wf (emuEntry s k).mem = true := by
  unfold emuEntry
  split
  · split
    · exact wf_emuEnter h
    · exact h
  · exact h

theorem wf_waitTurn : Memory.wf (waitTurn s).1.mem = true := by
  have waited : Memory.wf (modCur (boundedLimit (evwaitEnd (modCur s clearMet) s.cur) s.cur) endBubbles).mem = true := by simp [h]
  unfold waitTurn
  dsimp only
  split
  · exact h
  · split
    · split
      · exact wf_emuEntry h
      · exact h
    · split
      · exact waited
      · exact wf_of_mem (modCur_mem ..) waited

theorem wf_endTurn : Memory.wf (endTurn s).mem = true := by
  unfold endTurn
  dsimp only
  split
  · exact wf_frzto h
  · split
    · exact h
    · split
      · exact h
      · split_ifs
        · exact h
        · exact wf_trapNow (wf_of_mem (setCur_mem ..) h)
        · exact wf_of_mem (taskEnd_mem ..) (wf_of_mem (setCur_mem ..) h)

/-! ### Software -/

theorem wf_placeObj {cx pub emu n v r} (e : placeObj s cx pub emu n v = .ok r) : Memory.wf r.1.mem = true := by
  unfold placeObj at e
  repeat' split at e
  all_goals cases e
  exact wf_of_mem (bump_mem _) (wf_of_mem (setCtx_mem ..) (wf_wr h _ _ _))

theorem wf_publishStep {id} : Memory.wf (publishStep s id).mem = true := by
  unfold publishStep
  split
  · exact h
  · split
    · split
      · exact h
      · split
        next e => exact wf_of_mem (compDone_mem ..) (wf_placeObj h e)
        · exact wf_of_mem (compDone_mem ..) h
    · exact h

/-! ### Tasks -/

theorem wf_blkWrite {cx i l} : Memory.wf (blkWrite s cx i l).mem = true := by
  refine wf_states (fun t e ht => ?_) _ h
  split
  · exact wf_wr ht _ _ _
  · exact ht

theorem wf_saveOne {k} : Memory.wf (saveOne s k).1.mem = true := by
  unfold saveOne
  dsimp only
  split
  · exact wf_of_mem (saveFull_mem ..) (wf_of_mem (modCore_mem ..) h)
  · split
    · dsimp only
      split
      · exact h
      · exact wf_of_mem (modCore_mem ..) (wf_report h)
    · dsimp only
      exact wf_of_mem (modCore_mem ..) (wf_of_mem (setCtx_mem ..) (wf_wrRec (wf_blkWrite h) _ _))

omit h in
theorem wf_saveAll (ks : List Nat) : ∀ {t : State × List (Nat × Rec)}, Memory.wf t.1.mem = true →
    Memory.wf (ks.foldl (fun t j => ((saveOne t.1 j).1, t.2 ++ (saveOne t.1 j).2)) t).1.mem = true := by
  induction ks with
  | nil => intro t h; exact h
  | cons k ks ih => intro t h; exact ih (wf_saveOne h)

theorem wf_saveGroup {ks} : Memory.wf (saveGroup s ks).mem = true := by
  have back (l : List (Nat × Rec)) (u : State) : (l.foldr writeBack u).mem = u.mem := by
    induction l with
    | nil => rfl
    | cons e l ih => exact (writeBack_mem ..).trans ih
  exact wf_of_mem (back _ _) (wf_saveAll ks (t := (s, [])) h)

theorem wf_preemptSave {k} : Memory.wf (preemptSave s k).mem = true := by
  unfold preemptSave
  split
  · exact h
  · refine wf_states (fun _ _ ht => wf_saveGroup ht) _ ?_
    split
    · exact wf_of_mem (newCcy_mem _) h
    · exact h

theorem wf_startTask {k cx r} : Memory.wf (startTask s k cx r).mem = true := by
  unfold startTask
  dsimp only
  split <;> simp only [bump_mem, setCore_mem, setCtx_mem] <;> exact wf_wrRec h _ _

theorem wf_dispatchPop {n cx} : Memory.wf (dispatchPop s n cx).mem = true := by
  unfold dispatchPop
  dsimp only
  split
  · split
    · exact h
    · split
      · exact h
      · split
        · exact wf_of_mem (freezeQ_mem ..) (wf_reportRec h)
        · exact wf_startTask (wf_of_mem (setClu_mem ..) h)
  · exact h

theorem wf_refill {n cx q} : Memory.wf (refill n cx s q).mem = true := by
  unfold refill
  dsimp only
  split
  · exact h
  · split
    · split
      · exact h
      · exact wf_of_mem (freezeQ_mem ..) (wf_of_mem (freezeQ_mem ..) (wf_reportCtx h))
    · exact h

theorem wf_dispatchStep {n} : Memory.wf (dispatchStep s n).mem = true := by
  unfold dispatchStep
  split
  · exact h
  · exact wf_of_mem (setClu_mem ..) (wf_states (fun _ _ ht => wf_refill ht) _ (wf_dispatchPop (wf_of_mem (dispatchCcy_mem ..) h)))

end

/-! ## The hub -/

theorem wf_of_ok {t u : State} (e : (Except.ok t : Except Code State) = .ok u) (h : Memory.wf t.mem = true) : Memory.wf u.mem = true :=
  Except.ok.inj e ▸ h

theorem wf_of_ok_fst {α : Type} {t : State} {a : α} {r : State × α} (e : (Except.ok (t, a) : Except Code (State × α)) = .ok r)
    (h : Memory.wf t.mem = true) : Memory.wf r.1.mem = true :=
  Except.ok.inj e ▸ h

section
variable {s : State} (h : Memory.wf s.mem = true)
include h

/-! ### Launches -/

theorem wf_takeHead {q r} : Memory.wf (takeHead s q r).mem = true := by
  unfold takeHead
  dsimp only
  refine wf_of_mem (journal_mem ..) ?_
  split
  · exact wf_wr h _ _ _
  · exact wf_of_mem (setLq_mem ..) h

theorem wf_served? {q test r} (e : served? s q test = some r) : Memory.wf r.2.mem = true := by
  unfold served? at e
  split at e
  next hs =>
    repeat' split at e
    all_goals cases e
    exact wf_takeHead (wf_of_mem (serve_mem hs) h)
  · cases e

theorem wf_finish {q cx sysq ca cv jk result code degr tag jcx} :
    Memory.wf (finish s q cx sysq ca cv jk result code degr tag jcx).mem = true := by
  unfold finish
  dsimp only
  split
  · exact wf_of_mem (journal_mem ..) h
  · split
    · exact wf_wr (wf_of_mem (journal_mem ..) h) _ _ _
    · split
      · exact wf_of_mem (journal_mem ..) h
      · exact wf_reportCtx (wf_of_mem (journal_mem ..) h)

theorem wf_refuse {q r c} : Memory.wf (refuse s q r c).mem = true := wf_finish h

theorem wf_launchPush {cx d tag r} : Memory.wf (launchPush cx d tag s r).mem = true := by
  unfold launchPush
  dsimp only
  split
  · exact wf_pushHw (wf_liveRec h)
  · exact wf_liveRec h

theorem wf_taskList {q} : Memory.wf (taskList s q).mem = true := by
  unfold taskList
  split
  · exact h
  next r t e =>
    have ht : Memory.wf t.mem = true := wf_served? h e
    have refused {r c} : Memory.wf (bump (refuse t q r c)).mem = true := wf_of_mem (bump_mem _) (wf_refuse ht)
    dsimp only
    split
    · exact refused
    · split
      · exact refused
      · split
        · exact refused
        · split
          · exact refused
          · exact wf_of_mem (bump_mem _) (wf_states (fun _ _ hu => wf_launchPush hu) _ (wf_of_mem (launchIn_mem ..) ht))

theorem wf_tileLaunch {q} : Memory.wf (tileLaunch s q).mem = true := by
  unfold tileLaunch
  split
  · exact h
  next r t e =>
    have ht : Memory.wf t.mem = true := wf_served? h e
    have refused {r c} : Memory.wf (bump (refuse t q r c)).mem = true := wf_of_mem (bump_mem _) (wf_refuse ht)
    dsimp only
    split
    · exact refused
    · split
      · exact refused
      · split
        · split
          · exact refused
          · simpa using ht
        · simpa using ht

theorem wf_retire {tag} : Memory.wf (retire s tag).mem = true := by
  unfold retire
  split
  · exact h
  · split
    · exact h
    · extract_lets hub u
      have hu : Memory.wf u.mem = true := h
      exact wf_finish hu

/-! ### Boot, host, errors -/

theorem wf_packageReset : Memory.wf (packageReset s).mem = true := wf_filter h _

theorem wf_linkTrained : Memory.wf (linkTrained s).mem = true := by
  unfold linkTrained
  split
  · exact wf_of_mem (linkJournal_mem ..) (wf_filter h _)
  · exact h

theorem wf_hostWrite {pa n v} : Memory.wf (hostWrite s pa n v).mem = true := by
  unfold hostWrite
  split
  · exact wf_madeDone (wf_of_mem (errClear_mem ..) (wf_wr h _ _ _))
  · exact h

theorem wf_mirror : Memory.wf (mirror s).mem = true := by
  unfold mirror
  extract_lets hub n a u
  split
  · exact h
  · split
    · exact h
    · have hu : Memory.wf u.mem = true := h
      exact wf_wrWords _ hu _

theorem wf_strike {a} : Memory.wf (strike s a).mem = true := wf_wr h _ _ _

theorem wf_partError {k engine} : Memory.wf (partError s k engine).mem = true := by
  unfold partError
  split
  · exact wf_lateTrap h
  · exact h

theorem wf_partCheck {l} : Memory.wf (partCheck s l).mem = true := by
  unfold partCheck
  extract_lets k kind x
  split
  · exact h
  · refine wf_of_mem (bump_mem _) (wf_partError ?_)
    rw [setCore_mem]
    exact h

theorem wf_scrub {loc bad} : Memory.wf (scrub s loc bad).mem = true := by
  unfold scrub
  extract_lets e a hub u
  split
  · exact wf_of_mem (bump_mem _) (wf_strike h)
  · split
    · exact wf_partCheck h
    · split
      · have hu : Memory.wf u.mem = true := wf_wr (wf_of_mem (s := s) rfl h) _ _ _
        split
        · exact wf_of_mem (bump_mem _) (wf_reportCtx hu)
        · exact wf_of_mem (bump_mem _) hu
      · exact h

/-! ### Commands -/

theorem wf_endCmd {q r result code} : Memory.wf (endCmd s q r result code).mem = true := wf_finish h
theorem wf_endRun {m result code} : Memory.wf (endRun s m result code).mem = true := by
  unfold endRun
  extract_lets hub u
  have hu : Memory.wf u.mem = true := h
  exact wf_finish hu

theorem wf_cmdNow {q c sub} {act : State → Word → Word → Word → Except Code State}
    (ha : ∀ {t u : State} {a b c}, Memory.wf t.mem = true → act t a b c = .ok u → Memory.wf u.mem = true) :
    Memory.wf (cmdNow s q c sub act).mem = true := by
  unfold cmdNow
  split
  · exact h
  next e =>
    have ht := wf_served? h e
    split
    · exact wf_of_mem (bump_mem _) (wf_refuse ht)
    · split
      · exact wf_of_mem (bump_mem _) (wf_endCmd ht)
      next e => exact wf_of_mem (bump_mem _) (wf_endCmd (ha ht e))

theorem wf_cmdStart {q c sub} {act : State → Word → Word → Word → Except Code (State × List Nat)}
    (ha : ∀ {t : State} {r a b c}, act t a b c = .ok r → r.1.mem = t.mem) : Memory.wf (cmdStart s q c sub act).mem = true := by
  unfold cmdStart
  split
  · exact h
  next e =>
    have ht := wf_served? h e
    split
    · exact wf_of_mem (bump_mem _) (wf_refuse ht)
    · split
      · exact wf_of_mem (bump_mem _) (wf_endCmd ht)
      next e => exact wf_of_mem (ha e) ht

theorem wf_place {t a b c} (e : place s a b c = .ok t) : Memory.wf t.mem = true := by
  unfold place at e
  dsimp only at e
  split at e
  · cases e
  · split at e
    next he =>
      cases e
      split
      · exact wf_of_mem (addSvi_mem ..) (wf_placeObj h he)
      · exact wf_placeObj h he
    · cases e

theorem wf_dieFresh {d} : Memory.wf (dieFresh s d).mem = true := wf_filter h _

theorem wf_partset {t a b c} (e : partset s a b c = .ok t) : Memory.wf t.mem = true := by
  unfold partset at e
  dsimp only at e
  split_ifs at e
  cases e
  exact wf_states (fun _ _ ht => wf_dieFresh ht) _ h

theorem wf_tlbinvStart {q all} : Memory.wf (tlbinvStart s q all).mem = true :=
  wf_cmdStart h (by intro _ _ _ _ _ e; split at e; exacts [tlbinvAll_mem e, tlbinvRange_mem e])

theorem wf_tlbinvFinish {q} : Memory.wf (tlbinvFinish s q).mem = true := by
  unfold tlbinvFinish
  split
  · exact h
  · split
    · exact wf_endRun h
    · exact h

omit h in
theorem wf_ringDrain {cx n} : ∀ {s : State}, Memory.wf s.mem = true → Memory.wf (ringDrain s cx n).mem = true := by
  induction n with
  | zero => intro s h; exact h
  | succ n ih =>
    intro s h
    unfold ringDrain
    dsimp only
    split
    · exact h
    · split
      · exact ih (wf_of_mem (setCtx_mem ..) (wf_ringPut h))
      · exact h

theorem wf_drainAll {cx} : Memory.wf (drainAll s cx).mem = true := wf_ringDrain h

theorem wf_ringHead {cx} : Memory.wf (ringHead s cx).mem = true := by
  unfold ringHead
  dsimp only
  split
  · exact wf_of_mem (cleanLine_mem ..) h
  · exact wf_drainAll (wf_of_mem (setCtx_mem ..) (wf_of_mem (cleanLine_mem ..) h))

theorem wf_reread {i} : Memory.wf (reread s i).mem = true := by
  unfold reread
  split
  · exact wf_of_mem (tailWrite_mem ..) h
  · exact wf_ringHead h

theorem wf_ringConfig {t a b c} (e : ringConfig s a b c = .ok t) : Memory.wf t.mem = true := by
  unfold ringConfig at e
  dsimp only at e
  split_ifs at e
  cases e
  exact wf_drainAll (wf_of_mem (setCtx_mem ..) (wf_wr h _ _ _))

theorem wf_ringStore {cx cl g l} : Memory.wf (ringStore s cx cl g l).1.mem = true := by
  refine wf_states (fun t e ht => ?_) _ h
  split
  · exact wf_wrRec ht _ _
  · exact ht

theorem wf_setRingHere {n c q g} : Memory.wf (setRingHere s n c q g).mem = true := by
  unfold setRingHere
  split
  · exact wf_wrWords _ h _
  · exact h

theorem wf_mapQueue {n c q f} : Memory.wf (mapQueue s n c q f).mem = true := by
  unfold mapQueue
  extract_lets m l m' u g l' r
  have hu : Memory.wf u.mem = true := by
    unfold u
    split
    · exact h
    · exact wf_of_mem (setClu_mem ..) h
  split
  · exact hu
  · split
    · exact hu
    · exact wf_setRingHere (wf_ringStore hu)

theorem wf_discardCore {k} : Memory.wf (discardCore s k).mem = true :=
  wf_of_mem (modCore_mem ..) (wf_of_mem (liveDel_mem ..) (wf_wr h _ _ _))

theorem wf_discardRec {n m f} : Memory.wf (discardRec s n m f).mem = true := by
  unfold discardRec
  extract_lets a r tag u v x
  clear_value r
  have hu : Memory.wf u.mem = true := wf_mapQueue (wf_of_mem (unwb_mem ..) h)
  clear_value u
  have hv : Memory.wf v.mem = true := wf_wr hu _ _ _
  clear_value v
  exact wf_of_mem ((liveDel_mem ..).trans (setCtx_mem ..)) hv

theorem wf_faultDiscard {t a b c} (e : faultDiscard s a b c = .ok t) : Memory.wf t.mem = true := by
  unfold faultDiscard at e
  extract_lets n at e
  split at e
  · cases e
  · split at e
    · exact wf_of_ok e (wf_discardCore (wf_of_mem (thawQ_mem ..) h))
    · split at e
      · exact wf_of_ok e (wf_discardRec h)
      · cases e

theorem wf_replayRec {n m f pc} : Memory.wf (replayRec s n m f pc).mem = true := by
  unfold replayRec
  extract_lets a r u x
  clear_value r
  have hu : Memory.wf u.mem = true := wf_mapQueue (wf_of_mem (unwb_mem ..) h)
  clear_value u
  exact wf_wrRec (wf_of_mem (setCtx_mem ..) hu) _ _

theorem wf_replayBegin {r a b c} (e : replayBegin s a b c = .ok r) : Memory.wf r.1.mem = true := by
  unfold replayBegin at e
  extract_lets n at e
  split at e
  · cases e
  · split at e
    · split at e
      · cases e
      · exact wf_of_ok_fst e h
    · split at e
      · split at e
        · cases e
        · exact wf_of_ok_fst e (wf_replayRec h)
      · cases e

theorem wf_replayCore {k pc} : Memory.wf (replayCore s k pc).mem = true := by
  unfold replayCore
  dsimp only
  refine wf_of_mem (modCore_mem ..) (wf_of_mem (writeBack_mem ..) ?_)
  split
  · exact wf_of_mem ((newCcy_mem _).trans (thawQ_mem ..)) (wf_wrRec h _ _)
  · exact wf_of_mem (thawQ_mem ..) (wf_wrRec h _ _)

theorem wf_faultReplay {q} : Memory.wf (faultReplay s q).mem = true := by
  unfold faultReplay
  split
  · split
    · split
      · exact wf_endRun (wf_replayCore h)
      · exact h
    · split
      · exact wf_endRun (wf_replayRec h)
      · exact wf_endRun h
  · split
    · exact h
    next e =>
      have ht := wf_served? h e
      split
      · exact wf_of_mem (bump_mem _) (wf_refuse ht)
      · split
        · exact wf_of_mem (bump_mem _) (wf_endCmd ht)
        next e => exact wf_of_mem (bump_mem _) (wf_endCmd (wf_replayBegin ht e))
        next e => exact wf_replayBegin ht e

theorem wf_opChange : Memory.wf (opChange s).mem = true := by
  unfold opChange
  split
  · exact h
  · extract_lets hub p u
    split
    · exact wf_of_mem (journal_mem ..) h
    · have hu : Memory.wf u.mem = true := h
      split
      · exact wf_endRun hu
      · exact hu

theorem wf_attest {t a b c} (e : attest s a b c = .ok t) : Memory.wf t.mem = true := by
  unfold attest at e
  split at e
  · cases e
  · injection e with e
    rw [← e]
    generalize List.map _ _ = l
    exact wf_wrList l h _

end

/-! ## The fabric and the commands that take cores -/

section
variable {s : State} (h : Memory.wf s.mem = true)
include h

/-! ### Replies and arrivals of the fabric -/

theorem wf_ackOwn {a f r} : Memory.wf (ackOwn a f r s).mem = true := by
  unfold ackOwn
  extract_lets r u
  have hu : Memory.wf u.mem = true := h
  split
  · exact wf_of_mem (setReq_mem ..) hu
  · exact wf_of_mem (bump_mem _) (wf_failReq hu)

omit h in
theorem wf_ackInput {a f} (n : Nat) :
    ∀ {hd : BitVec 128} {s : State}, Memory.wf s.mem = true → Memory.wf (ackInput n a f hd s).mem = true := by
  induction n with
  | zero => intro hd s h; exact h
  | succ n ih =>
    intro hd s h
    unfold ackInput
    extract_lets me
    split
    · split
      · exact h
      · exact ih (ih (wf_of_mem (s := s) rfl h))
    · split
      · split
        · exact wf_ackOwn h
        · exact h
      · exact wf_of_mem (outReq_mem ..) h

theorem wf_ejectReply {g} : Memory.wf (ejectReply s g).mem = true := by
  unfold ejectReply
  split
  next m _ =>
    extract_lets n
    exact wf_ackInput _ (wf_ackInput _ (wf_of_mem (s := s) rfl h))
  · split
    · exact h
    · extract_lets r u
      have hu : Memory.wf u.mem = true := wf_of_mem ((genExh_mem ..).trans (setReq_mem ..)) h
      split
      · exact wf_of_mem (served_mem ..) hu
      · exact wf_of_mem (bump_mem _) (wf_failReq hu)

theorem wf_ejectWake {g} : Memory.wf (ejectWake s g).mem = true := by
  unfold ejectWake
  split
  · exact h
  · exact wf_wakeAt h (wf_reportCtx h)

theorem wf_eject {d g} : Memory.wf (eject s d g).mem = true := by
  unfold eject
  extract_lets k u
  have hu : Memory.wf u.mem = true := h
  clear_value u
  split_ifs
  · exact wf_ejectReply hu
  · exact wf_ejectWake hu
  · exact wf_of_mem (ejectPart_mem ..) hu
  · exact hu
  · exact wf_of_mem (ejectReq_mem ..) hu

theorem wf_ejectGrant {d} : Memory.wf (ejectGrant s d).mem = true := by
  unfold ejectGrant
  split
  · exact wf_eject h
  · split
    · exact h
    · exact wf_eject (wf_of_mem (seeGrant_mem ..) h)

theorem wf_arbiterGrant {place} : Memory.wf (arbiterGrant s place).mem = true := by
  unfold arbiterGrant
  split_ifs
  · exact wf_of_mem (homeGrant_mem ..) h
  · exact wf_ejectGrant h
  · exact h
  · simpa using h

theorem wf_overdue : Memory.wf (overdue s).mem = true := wf_states (fun _ _ ht => wf_reread ht) _ h

theorem wf_slackTick : Memory.wf (slackTick s).mem = true := by
  unfold slackTick
  exact wf_overdue (wf_of_mem (s := s) rfl h)

/-! ### Pre-emption, context switch and stop -/

theorem wf_preempt {q} : Memory.wf (preempt s q).mem = true := by
  unfold preempt
  split
  · exact wf_cmdStart h preemptBegin_mem
  · split_ifs
    · exact wf_endRun h
    · exact wf_endRun h
    · exact h

theorem wf_spillBack {n c q r} (e : spillBack s n c q = some r) : Memory.wf r.1.mem = true := by
  unfold spillBack at e
  extract_lets m g l hd locs u at e
  split at e
  · cases e; exact h
  · split at e
    · cases e
    · split at e
      · cases e; exact h
      · have hu : Memory.wf u.mem = true := wf_states (fun t e ht => by split; exacts [wf_wrRec ht _ _, ht]) _ h
        clear_value u
        cases e
        exact wf_of_mem (setClu_mem ..) hu

omit h in
theorem wf_spillAll {n : Nat} {t : State} (l : List (Nat × Nat)) :
    ∀ {s : State}, Memory.wf s.mem = true → spillAll n l s = .ok t → Memory.wf t.mem = true := by
  induction l with
  | nil => intro s h e; cases e; exact h
  | cons x l ih =>
    intro s h e
    unfold spillAll at e
    split at e
    · cases e
    · cases e
    next u hu => exact ih (wf_spillBack h hu) e

theorem wf_swoutOne {n e} : Memory.wf (swoutOne n s e).mem = true := by
  unfold swoutOne
  extract_lets m kept s1 s2 s3 s4 s5
  have h1 : Memory.wf s1.mem = true := by
    unfold s1
    dsimp only
    exact wf_foldl _ (fun _ _ hm => wf_copyMem hm _ _ _) _ h
  clear_value s1
  have h2 : Memory.wf s2.mem = true := wf_states (fun _ _ ht => wf_wr ht _ _ _) _ h1
  clear_value s2
  have h3 : Memory.wf s3.mem = true := wf_states (fun t q ht => wf_wrWords (s := t) _ ht _) _ h2
  clear_value s3
  have h4 : Memory.wf s4.mem = true := wf_wr h3 _ _ _
  have h5 : Memory.wf s5.mem = true := wf_of_mem ((setOwn_mem ..).trans (releaseOne_mem ..)) h4
  exact wf_of_mem (setCtx_mem ..) h5

theorem wf_swoutEnd {m} : Memory.wf (swoutEnd s m).mem = true := by
  unfold swoutEnd
  extract_lets n cl qs z
  split
  · exact wf_endRun h
  · split
    · exact wf_endRun h
    · exact wf_endRun (wf_of_mem (freezeQ_mem ..) (wf_reportCtx h))
    next t ht =>
      exact wf_endRun (wf_states (fun _ _ hu => wf_swoutOne hu) _ (wf_spillAll _ h ht))

theorem wf_swout {q} : Memory.wf (swout s q).mem = true := by
  unfold swout
  split
  · exact wf_cmdStart h swoutBegin_mem
  · extract_lets cl
    split_ifs
    · exact wf_endRun h
    · exact wf_of_mem (bump_mem _) (wf_swoutEnd h)
    · exact h

theorem wf_swinOne {n e} : Memory.wf (swinOne n s e).mem = true := by
  unfold swinOne
  extract_lets s1 s2 ev m s3 s4 x s5
  have h1 : Memory.wf s1.mem = true := wf_of_mem (assignOne_mem ..) h
  clear_value s1
  have h2 : Memory.wf s2.mem = true := by
    unfold s2
    dsimp only
    exact wf_foldl _ (fun _ _ hm => wf_copyMem hm _ _ _) _ h1
  clear_value s2
  have h3 : Memory.wf s3.mem = true := wf_of_mem (setClu_mem ..) h2
  have h4 : Memory.wf s4.mem = true := wf_of_mem (setOwn_mem ..) h3
  have h5 : Memory.wf s5.mem = true := wf_of_mem (setCtx_mem ..) h4
  exact wf_of_mem (foldl_mem (fun _ _ => freezeQ_mem ..) _ _) h5

theorem wf_swin {t a b c} (e : swin s a b c = .ok t) : Memory.wf t.mem = true := by
  unfold swin at e
  extract_lets n z cl at e
  split at e
  · cases e
  · split at e
    · cases e
    · split at e
      · cases e
      · exact wf_of_ok e (wf_states (fun _ _ hu => wf_swinOne hu) _ h)

theorem wf_stop {q} : Memory.wf (stop s q).mem = true := by
  unfold stop
  split
  · exact wf_cmdStart h stopBegin_mem
  · extract_lets n
    split_ifs
    · exact wf_endRun h
    · exact wf_endRun h
    · exact wf_of_mem (stepRound_mem ..) h
    · exact h

theorem wf_stopFallback {q} : Memory.wf (stopFallback s q).mem = true := by
  unfold stopFallback
  split
  · exact h
  · extract_lets n ks u x off
    split_ifs
    · exact wf_of_mem ((foldl_mem (fun _ _ => modCore_mem ..) _ _).trans (setCmd_mem ..)) h
    · exact wf_endRun (wf_of_mem (journal_mem ..) h)
    · exact h

theorem wf_abortRec {n e} : Memory.wf (abortRec n s e).mem = true := by
  unfold abortRec
  extract_lets a r u x v
  clear_value r
  have hu : Memory.wf u.mem = true := by
    unfold u
    split
    · exact h
    · exact wf_mapQueue h
  clear_value u
  exact wf_wr (wf_of_mem (setCtx_mem ..) hu) _ _ _

theorem wf_abortLaunch {l} : Memory.wf (abortLaunch s l).mem = true := by
  unfold abortLaunch
  extract_lets ks u v mine
  have hu : Memory.wf u.mem = true := wf_states (fun _ _ ht => wf_discardCore ht) _ h
  exact wf_states (fun _ _ ht => wf_abortRec ht) _ hu

theorem wf_resumeAbort {t a b c} (e : resumeAbort s a b c = .ok t) : Memory.wf t.mem = true := by
  unfold resumeAbort at e
  extract_lets n u v at e
  split at e
  · cases e
  · have hu : Memory.wf u.mem = true := wf_states (fun _ _ ht => wf_abortLaunch ht) _ h
    have hv : Memory.wf v.mem = true := wf_of_mem (foldl_mem (fun _ _ => setClu_mem ..) _ _) hu
    exact wf_of_ok e (wf_of_mem ((releaseAll_mem ..).trans (setCtx_mem ..)) hv)

theorem wf_limitExpiry {q} : Memory.wf (limitExpiry s q).mem = true := by
  unfold limitExpiry
  split
  · exact wf_endRun h
  · exact h

end

/-! ## The operations of the slots -/

/-- A slot operation whose effects leave memory alone. -/
structure SlotOp.KeepsMem (o : SlotOp) : Prop where
  eff : ∀ pre s, (o.eff pre s).mem = s.mem
  effu : ∀ pre s, (o.effu pre s).1.mem = s.mem
  late : ∀ pre s, (o.late pre s).mem = s.mem

theorem SlotOp.KeepsMem.keepsForm {o : SlotOp} (k : o.KeepsMem) : o.KeepsForm where
  eff _ _ h := wf_of_mem (k.eff ..) h
  effu _ _ h := wf_of_mem (k.effu ..) h
  late _ _ h := wf_of_mem (k.late ..) h

/-! ### Scalar instructions and registers -/

theorem keepsMem_opS {slot g b d v} : (opS slot g b d v).KeepsMem := ⟨fun _ _ => wx_mem .., fun _ _ => rfl, fun _ _ => rfl⟩

theorem keepsMem_opP {slot g d v} : (opP slot g d v).KeepsMem := ⟨fun _ _ => wp_mem .., fun _ _ => rfl, fun _ _ => rfl⟩

theorem keepsMem_opAdds {slot d a b f g} : (opAdds slot d a b f g).KeepsMem := ⟨fun _ _ => wx_mem .., fun _ _ => rfl, fun _ _ => rfl⟩

theorem keepsMem_opSubs {slot d a b f g} : (opSubs slot d a b f g).KeepsMem := ⟨fun _ _ => wx_mem .., fun _ _ => rfl, fun _ _ => rfl⟩

theorem keepsMem_opCmp {slot d a b c g} : (opCmp slot d a b c g).KeepsMem := ⟨fun _ _ => wp_mem .., fun _ _ => rfl, fun _ _ => rfl⟩

theorem keepsMem_opCmpi {slot d a i c g} : (opCmpi slot d a i c g).KeepsMem := ⟨fun _ _ => wp_mem .., fun _ _ => rfl, fun _ _ => rfl⟩

theorem keepsMem_opLpstage {g} : (opLpstage g).KeepsMem := by
  refine ⟨fun pre s => ?_, fun _ _ => rfl, fun _ _ => rfl⟩
  unfold opLpstage
  dsimp only
  split <;> rfl

theorem keepsMem_opCsrr {d r g} : (opCsrr d r g).KeepsMem := ⟨fun _ _ => wx_mem .., fun _ _ => rfl, fun _ _ => rfl⟩

theorem keepsMem_opCsrw {a r g} : (opCsrw a r g).KeepsMem := ⟨fun _ _ => csrPut_mem .., fun _ _ => rfl, fun _ _ => rfl⟩

theorem keepsMem_opCsrs {a r g} : (opCsrs a r g).KeepsMem := ⟨fun _ _ => csrPut_mem .., fun _ _ => rfl, fun _ _ => rfl⟩

theorem keepsMem_opCsrc {a r g} : (opCsrc a r g).KeepsMem := ⟨fun _ _ => csrClear_mem .., fun _ _ => rfl, fun _ _ => rfl⟩

theorem keepsMem_opCsrwI {i r g} : (opCsrwI i r g).KeepsMem := ⟨fun _ _ => csrPut_mem .., fun _ _ => rfl, fun _ _ => rfl⟩

theorem keepsMem_opCsrsI {i r g} : (opCsrsI i r g).KeepsMem := ⟨fun _ _ => csrPut_mem .., fun _ _ => rfl, fun _ _ => rfl⟩

theorem keepsMem_opCsrcI {i r g} : (opCsrcI i r g).KeepsMem := ⟨fun _ _ => csrClear_mem .., fun _ _ => rfl, fun _ _ => rfl⟩

/-! ### Memory instructions -/

theorem keepsMem_opLoad {d addr n sg t g} : (opLoad d addr n sg t g).KeepsMem := by
  refine ⟨fun pre s => ?_, fun _ _ => rfl, fun _ _ => rfl⟩
  unfold opLoad
  dsimp only
  split
  · rfl
  · exact startLoad_mem ..

theorem keepsForm_opStore {b addr n g} : (opStore b addr n g).KeepsForm := by
  refine ⟨fun pre s h => ?_, fun _ _ h => h, fun _ _ h => h⟩
  unfold opStore
  dsimp only
  split
  · exact h
  · exact wf_startStore h

theorem keepsMem_opTileLoad {f t a b dst res g} : (opTileLoad f t a b dst res g).KeepsMem :=
  ⟨fun _ _ => startTile_mem .., fun _ _ => rfl, fun _ _ => rfl⟩

theorem keepsMem_opBld {t a b m g} : (opBld t a b m g).KeepsMem := ⟨fun _ _ => startTile_mem .., fun _ _ => rfl, fun _ _ => rfl⟩

theorem keepsForm_opTst {d a b g} : (opTst d a b g).KeepsForm :=
  ⟨fun _ _ h => wf_of_mem (modCur_mem ..) (wf_tileStores h), fun _ _ h => h, fun _ _ h => h⟩

theorem keepsMem_opRld {c a z i s5 g} : (opRld c a z i s5 g).KeepsMem := by
  refine ⟨fun pre s => ?_, fun _ _ => rfl, fun _ _ => rfl⟩
  unfold opRld
  dsimp only
  split
  · rfl
  · split
    · split
      · exact replyNow_mem ..
      · exact putReq_mem ..
    · exact putReq_mem ..

theorem keepsForm_opRst {b a z i s5 g} : (opRst b a z i s5 g).KeepsForm := by
  refine ⟨fun pre s h => ?_, fun _ _ h => h, fun _ _ h => h⟩
  unfold opRst
  dsimp only
  split
  · exact h
  · exact wf_startStore h

theorem keepsForm_opAtomic {legal ins f g} : (opAtomic legal ins f g).KeepsForm := ⟨fun _ _ h => wf_startAmo h, fun _ _ h => h, fun _ _ h => h⟩

theorem keepsMem_opBwait {d a b sc g} : (opBwait d a b sc g).KeepsMem :=
  ⟨fun _ _ => (modCur_mem ..).trans (sendPoll_mem ..), fun _ _ => rfl, fun _ _ => rfl⟩

/-! ### Matrix instructions -/

theorem keepsMem_opAalloc {d n g} : (opAalloc d n g).KeepsMem := by
  refine ⟨fun pre s => ?_, fun _ _ => rfl, fun _ _ => rfl⟩
  unfold opAalloc
  dsimp only
  split
  · rfl
  · exact (wx_mem ..).trans (modCur_mem ..)

theorem keepsMem_opMm {z a bt x m g} : (opMm z a bt x m g).KeepsMem :=
  ⟨fun _ _ => (busyFor_mem ..).trans ((busyFor_mem ..).trans (modCur_mem ..)), fun _ _ => rfl, fun _ _ => rfl⟩

theorem keepsMem_opMmag {a t x m g} : (opMmag a t x m g).KeepsMem := by
  refine ⟨fun pre s => ?_, fun _ _ => rfl, fun _ _ => rfl⟩
  unfold opMmag
  extract_lets rc bts n
  dsimp -zeta only
  extract_lets w kt sh u
  have hu : u.mem = s.mem := modCur_mem ..
  clear_value u
  split
  · exact hu
  · exact (busyFor_mem ..).trans ((busyFor_mem ..).trans hu)

theorem keepsMem_opAout {d b p r z g} : (opAout d b p r z g).KeepsMem := by
  refine ⟨fun _ _ => rfl, fun pre s => ?_, fun _ _ => rfl⟩
  unfold opAout
  extract_lets n ts oc banks
  dsimp -zeta only
  extract_lets k cs w c0 lo c1 c2 u
  have hu : u.mem = s.mem := (putLanes_mem ..).trans (setCur_mem ..)
  clear_value u
  exact hu

theorem keepsMem_opAoutq {q b r z g} : (opAoutq q b r z g).KeepsMem := by
  refine ⟨fun pre s => ?_, fun _ _ => rfl, fun _ _ => rfl⟩
  unfold opAoutq
  dsimp only
  rw [busyFor_mem]
  split <;> rfl

theorem keepsMem_opSmset {a f g} : (opSmset a f g).KeepsMem := by
  refine ⟨fun pre s => ?_, fun _ _ => rfl, fun _ _ => rfl⟩
  unfold opSmset
  dsimp only
  split
  · simp
  · rfl

/-! ### Engine instructions -/

theorem keepsMem_opEstat {d c g} : (opEstat d c g).KeepsMem := ⟨fun _ _ => wx_mem .., fun _ _ => rfl, fun _ _ => rfl⟩

theorem keepsMem_opPop {q g n res} {f : State → State → List Line → State} (hf : ∀ pre s es, (f pre s es).mem = s.mem) :
    (opPop q g n res f).KeepsMem :=
  ⟨fun _ _ => rfl, fun _ _ => (hf ..).trans ((putLanes_mem ..).trans (modCur_mem ..)), fun _ _ => rfl⟩

theorem keepsMem_opQdeq {v q g} : (opQdeq v q g).KeepsMem := keepsMem_opPop (fun _ _ _ => wv_mem ..)

theorem keepsMem_opQdeqTile {d q a g} : (opQdeqTile d q a g).KeepsMem := keepsMem_opPop (fun _ _ _ => rfl)

theorem keepsMem_opQstat {d q g} : (opQstat d q g).KeepsMem := ⟨fun _ _ => wx_mem .., fun _ _ => rfl, fun _ _ => rfl⟩

theorem keepsMem_opScld {n a t g} : (opScld n a t g).KeepsMem := by
  refine ⟨fun pre s => ?_, fun _ _ => rfl, fun _ _ => rfl⟩
  unfold opScld
  dsimp only
  split
  · rfl
  · exact startLoad_mem ..

theorem keepsForm_opScst {n g} : (opScst n g).KeepsForm := by
  refine ⟨fun pre s h => ?_, fun _ _ h => h, fun _ _ h => h⟩
  unfold opScst
  dsimp only
  split
  · exact h
  · exact wf_startStore h

theorem keepsMem_opAnstat {d x g} : (opAnstat d x g).KeepsMem := ⟨fun _ _ => wx_mem .., fun _ _ => rfl, fun _ _ => rfl⟩

/-! ### Task and tile-word instructions -/

theorem keepsForm_opQpush {a g} : (opQpush a g).KeepsForm := by
  refine ⟨fun pre s h => ?_, fun _ _ h => h, fun _ _ h => h⟩
  have hs : Memory.wf (postTouch pre (rx6 pre a) 64 s).mem = true := wf_of_mem (postTouch_mem ..) h
  unfold opQpush
  dsimp only
  split
  next e => exact wf_pushOk hs e
  · exact hs

theorem keepsMem_opTpost {c a g} : (opTpost c a g).KeepsMem := ⟨fun _ _ => postTouch_mem .., fun _ _ => rfl, fun _ _ => rfl⟩

theorem keepsMem_opTix {a g} : (opTix a g).KeepsMem := by
  refine ⟨fun pre s => ?_, fun _ _ => rfl, fun _ _ => rfl⟩
  unfold opTix
  dsimp -zeta only
  extract_lets u t t' v w
  have hw : w.mem = s.mem := (modCur_mem ..).trans ((wordTouch_mem ..).trans (postTouch_mem ..))
  clear_value w
  split
  · exact (barEpoch_mem ..).trans hw
  · exact hw

/-! ### Vector instructions -/

theorem keepsMem_opVsetvl {slot d a b g} : (opVsetvl slot d a b g).KeepsMem := by
  refine ⟨fun pre s => ?_, fun _ _ => rfl, fun _ _ => rfl⟩
  unfold opVsetvl
  dsimp only
  split <;> exact setCfg_mem ..

theorem keepsMem_opVsetvlRead {slot d g} : (opVsetvlRead slot d g).KeepsMem := ⟨fun _ _ => wx_mem .., fun _ _ => rfl, fun _ _ => rfl⟩

theorem keepsMem_opVsetvli {slot d a v g} : (opVsetvli slot d a v g).KeepsMem := ⟨fun _ _ => setCfg_mem .., fun _ _ => rfl, fun _ _ => rfl⟩

theorem keepsMem_opVsetivli {slot d l v g} : (opVsetivli slot d l v g).KeepsMem := ⟨fun _ _ => setCfg_mem .., fun _ _ => rfl, fun _ _ => rfl⟩

/-- A vector operation keeps memory where its write does. -/
theorem keepsMem_vShape {h : VShape} (hw : ∀ pre s v b r, (h.write pre s v b r).mem = s.mem) : h.op.KeepsMem := by
  refine ⟨fun _ _ => rfl, fun pre s => ?_, fun _ _ => rfl⟩
  unfold VShape.op
  dsimp only
  split
  · rfl
  · exact (putLanes_mem ..).trans (hw ..)

theorem keepsMem_opVA {slot d a b k m g z f} : (opVA slot d a b k m g z f).KeepsMem := keepsMem_vShape (fun _ _ _ _ _ => vwrite_mem ..)
theorem keepsMem_opVT {slot d a b k m u g wm acc bound f} : (opVT slot d a b k m u g wm acc bound f).KeepsMem :=
  keepsMem_vShape (fun _ _ _ _ _ => vwrite_mem ..)
theorem keepsMem_opVmerge {slot d a b k g} : (opVmerge slot d a b k g).KeepsMem := keepsMem_vShape (fun _ _ _ _ _ => vwrite_mem ..)
theorem keepsMem_opVR {slot d a b k r m g wm} : (opVR slot d a b k r m g wm).KeepsMem := keepsMem_vShape (fun _ _ _ _ _ => vwrite_mem ..)
theorem keepsMem_opVsmul {slot d a b r m g} : (opVsmul slot d a b r m g).KeepsMem := keepsMem_vShape (fun _ _ _ _ _ => vwrite_mem ..)

theorem keepsMem_opVnclip {slot d a p r m u q g} : (opVnclip slot d a p r m u q g).KeepsMem := by
  refine ⟨fun _ _ => rfl, fun pre s => ?_, fun _ _ => rfl⟩
  unfold opVnclip
  dsimp only
  split
  · rfl
  · split
    · exact vwrite_mem ..
    · exact (putLanes_mem ..).trans (vwrite_mem ..)

theorem keepsMem_opVcmp {slot d a b k c g} : (opVcmp slot d a b k c g).KeepsMem := keepsMem_vShape (fun _ _ _ _ _ => vwriteMask_mem ..)
theorem keepsMem_opVmlog {slot d a b f g} : (opVmlog slot d a b f g).KeepsMem := keepsMem_vShape (fun _ _ _ _ _ => vwriteMask_mem ..)
theorem keepsMem_opVred {slot d a b wm u m g f} : (opVred slot d a b wm u m g f).KeepsMem :=
  keepsMem_vShape (fun _ _ _ _ _ => vwrite_mem ..)
theorem keepsMem_opVscan {slot d a b w u m g} : (opVscan slot d a b w u m g).KeepsMem := keepsMem_vShape (fun _ _ _ _ _ => vwrite_mem ..)
theorem keepsMem_opVperm {slot d a more m bound g f} : (opVperm slot d a more m bound g f).KeepsMem :=
  keepsMem_vShape (fun _ _ _ _ _ => vwrite_mem ..)
theorem keepsMem_opVcompress {slot d a b g} : (opVcompress slot d a b g).KeepsMem := keepsMem_vShape (fun _ _ _ _ _ => vwrite_mem ..)
theorem keepsMem_opVexp {slot d a e m g} : (opVexp slot d a e m g).KeepsMem := keepsMem_vShape (fun _ _ _ _ _ => vwrite_mem ..)
theorem keepsMem_opVF2 {slot d a m g f} : (opVF2 slot d a m g f).KeepsMem :=
  keepsMem_vShape (fun _ _ _ _ _ => (vwrite_mem ..).trans (vwrite_mem ..))
theorem keepsMem_opVdiv {slot d a b m g} : (opVdiv slot d a b m g).KeepsMem := keepsMem_vShape (fun _ _ _ _ _ => vwrite_mem ..)
theorem keepsMem_opVsplat {slot d a m g} : (opVsplat slot d a m g).KeepsMem := keepsMem_vShape (fun _ _ _ _ _ => vwrite_mem ..)

theorem keepsMem_opVmvxs {slot d a b g} : (opVmvxs slot d a b g).KeepsMem := ⟨fun _ _ => wx_mem .., fun _ _ => rfl, fun _ _ => rfl⟩

theorem keepsMem_opVmvsx {slot d a b g} : (opVmvsx slot d a b g).KeepsMem := by
  refine ⟨fun pre s => ?_, fun _ _ => rfl, fun _ _ => rfl⟩
  unfold opVmvsx
  dsimp only
  split <;> rfl

theorem keepsMem_opVmov {slot d a r g} : (opVmov slot d a r g).KeepsMem := ⟨fun _ _ => vput_mem .., fun _ _ => rfl, fun _ _ => rfl⟩

theorem keepsMem_vLoad {h : VMem} {t} : (h.load t).KeepsMem := by
  refine ⟨fun pre s => ?_, fun _ _ => rfl, fun _ _ => rfl⟩
  unfold VMem.load
  dsimp only
  split
  · rfl
  · exact vLoad_mem ..

theorem keepsMem_opVldff {slot d a t m g} : (opVldff slot d a t m g).KeepsMem := by
  refine ⟨fun pre s => ?_, fun _ _ => rfl, fun _ _ => rfl⟩
  unfold opVldff
  dsimp only
  split
  · rfl
  · exact (modCur_mem ..).trans (vLoad_mem ..)

theorem keepsForm_vStore {h : VMem} : h.store.KeepsForm := by
  refine ⟨fun pre s hs => ?_, fun _ _ h => h, fun _ _ h => h⟩
  unfold VMem.store
  dsimp only
  split
  · exact hs
  · exact wf_vStoreReqs hs

/-! ### Translated instructions -/

theorem keepsForm_opRvMem {st nf mop vm rs2 rs1 width vd word} : (opRvMem st nf mop vm rs2 rs1 width vd word).KeepsForm := by
  refine ⟨fun pre s h => ?_, fun _ _ h => h, fun _ _ h => h⟩
  unfold opRvMem
  dsimp only
  split
  · exact h
  · split
    · exact wf_of_mem (paceReqs_mem ..) (wf_vStoreReqs h)
    · split
      · exact wf_of_mem ((paceReqs_mem ..).trans (rvLoad_mem ..)) h
      · exact wf_of_mem ((modCur_mem ..).trans ((paceReqs_mem ..).trans (rvLoad_mem ..))) h

theorem keepsForm_opSviVec {o} : (opSviVec o).KeepsForm := by
  cases o with
  | vsetvli rd rs1 z => exact ⟨fun _ _ h => wf_of_mem (rvSet_mem ..) h, fun _ _ h => h, fun _ _ h => h⟩
  | vsetivli rd u z => exact ⟨fun _ _ h => wf_of_mem (rvSet_mem ..) h, fun _ _ h => h, fun _ _ h => h⟩
  | vsetvl rd rs1 rs2 => exact ⟨fun _ _ h => wf_of_mem (rvSet_mem ..) h, fun _ _ h => h, fun _ _ h => h⟩
  | arith f6 vm vs2 vs1 f3 vd => exact ⟨fun _ _ h => wf_of_mem (rvArith_mem ..) h, fun _ _ h => h, fun _ _ h => h⟩
  | mem st nf w mop vm rs2 rs1 width vd => exact keepsForm_opRvMem

theorem keepsMem_opSviInt {o} : (opSviInt o).KeepsMem := by
  cases o <;> exact keepsMem_opS

theorem keepsForm_opSviMem {o} : (opSviMem o).KeepsForm := by
  cases o with
  | load z uns rd rs1 imm => exact keepsMem_opLoad.keepsForm
  | store z rs1 rs2 imm => exact keepsForm_opStore

theorem keepsMem_opSviFence {f} : (opSviFence f).KeepsMem := by
  unfold opSviFence
  split
  · exact ⟨fun _ _ => rfl, fun _ _ => rfl, fun _ _ => rfl⟩
  · exact ⟨fun _ _ => rfl, fun _ _ => rfl, fun _ _ => rfl⟩

theorem keepsMem_opSviMul {m} : (opSviMul m).KeepsMem := keepsMem_opS

theorem keepsMem_opSviJump {j} : (opSviJump j).KeepsMem := ⟨fun _ _ => wx_mem .., fun _ _ => rfl, fun _ _ => rfl⟩

theorem keepsMem_opSviCsr {o} : (opSviCsr o).KeepsMem := by
  refine ⟨fun pre s => ?_, fun _ _ => rfl, fun _ _ => rfl⟩
  unfold opSviCsr
  dsimp only
  rw [wx_mem]
  split
  · exact sviCsrPut_mem ..
  · rfl

/-! ## Every slot instruction -/

theorem keepsForm_of_some {o p : SlotOp} (k : o.KeepsForm) (e : some o = some p) : p.KeepsForm := Option.some.inj e ▸ k

theorem keepsForm_of_mem {o p : SlotOp} (k : o.KeepsMem) (e : some o = some p) : p.KeepsForm := keepsForm_of_some k.keepsForm e

/-- Every slot operation keeps the form: stores and records write at locations, the rest leaves memory alone. -/
theorem keepsForm_slotOf {j : Nat} {i : Instr} {o : SlotOp} (e : slotOf j i = some o) : o.KeepsForm := by
  cases i with
  | add | sub | addi | and | or | xor | andi | ori | xori | sll | srl | sra | slli | srli | srai | li | lih | mul | mulh | mulhu | mulhsu
  | div | divu | rem | remu | min | max | minu | maxu | clz | ctz | popc | sext | zext | sel | mov | movFromPall | bfx | bfxu | bfi =>
    exact keepsForm_of_mem keepsMem_opS e
  | adds => exact keepsForm_of_mem keepsMem_opAdds e
  | subs => exact keepsForm_of_mem keepsMem_opSubs e
  | pand | por | pxor | pandn => exact keepsForm_of_mem keepsMem_opP e
  | cmp => exact keepsForm_of_mem keepsMem_opCmp e
  | cmpi => exact keepsForm_of_mem keepsMem_opCmpi e
  | lpstage => exact keepsForm_of_mem keepsMem_opLpstage e
  | csrr => exact keepsForm_of_mem keepsMem_opCsrr e
  | csrw => exact keepsForm_of_mem keepsMem_opCsrw e
  | csrs => exact keepsForm_of_mem keepsMem_opCsrs e
  | csrc => exact keepsForm_of_mem keepsMem_opCsrc e
  | csrwI => exact keepsForm_of_mem keepsMem_opCsrwI e
  | csrsI => exact keepsForm_of_mem keepsMem_opCsrsI e
  | csrcI => exact keepsForm_of_mem keepsMem_opCsrcI e
  | ldb | ldbu | ldh | ldhu | ldw | ldwu | ldd | ldx => exact keepsForm_of_mem keepsMem_opLoad e
  | stb | sth | stw | std | stx => exact keepsForm_of_some keepsForm_opStore e
  | tld | tldt => exact keepsForm_of_mem keepsMem_opTileLoad e
  | bld => exact keepsForm_of_mem keepsMem_opBld e
  | tst => exact keepsForm_of_some keepsForm_opTst e
  | rld => exact keepsForm_of_mem keepsMem_opRld e
  | rst => exact keepsForm_of_some keepsForm_opRst e
  | amo | amoF | amoN => exact keepsForm_of_some keepsForm_opAtomic e
  | bwait => exact keepsForm_of_mem keepsMem_opBwait e
  | qpush => exact keepsForm_of_some keepsForm_opQpush e
  | tpost => exact keepsForm_of_mem keepsMem_opTpost e
  | tix => exact keepsForm_of_mem keepsMem_opTix e
  | vsetvl => exact keepsForm_of_mem keepsMem_opVsetvl e
  | vsetvlRead => exact keepsForm_of_mem keepsMem_opVsetvlRead e
  | vsetvli => exact keepsForm_of_mem keepsMem_opVsetvli e
  | vsetivli => exact keepsForm_of_mem keepsMem_opVsetivli e
  | vadd | vsub | vand | vor | vxor | vsll | vsrl | vsra | vmul | vmulh | vmin | vmax | vminu | vmaxu =>
    exact keepsForm_of_mem keepsMem_opVA e
  | vsadd | vssub | vwadd | vwmul | vwmacc => exact keepsForm_of_mem keepsMem_opVT e
  | vmerge => exact keepsForm_of_mem keepsMem_opVmerge e
  | vnsra | vshr => exact keepsForm_of_mem keepsMem_opVR e
  | vsmul => exact keepsForm_of_mem keepsMem_opVsmul e
  | vnclip => exact keepsForm_of_mem keepsMem_opVnclip e
  | vcmp => exact keepsForm_of_mem keepsMem_opVcmp e
  | vmlog => exact keepsForm_of_mem keepsMem_opVmlog e
  | vredsum | vredmax | vredmin => exact keepsForm_of_mem keepsMem_opVred e
  | vscan => exact keepsForm_of_mem keepsMem_opVscan e
  | vslideup | vslidedn | vgath => exact keepsForm_of_mem keepsMem_opVperm e
  | vcompress => exact keepsForm_of_mem keepsMem_opVcompress e
  | vld | vlds | vldx => exact keepsForm_of_mem keepsMem_vLoad e
  | vldff => exact keepsForm_of_mem keepsMem_opVldff e
  | vst | vsts | vstx => exact keepsForm_of_some keepsForm_vStore e
  | vexp => exact keepsForm_of_mem keepsMem_opVexp e
  | vrsqrt | vrecip => exact keepsForm_of_mem keepsMem_opVF2 e
  | vdiv => exact keepsForm_of_mem keepsMem_opVdiv e
  | vmvxs => exact keepsForm_of_mem keepsMem_opVmvxs e
  | vmvsx => exact keepsForm_of_mem keepsMem_opVmvsx e
  | vsplat => exact keepsForm_of_mem keepsMem_opVsplat e
  | vmov => exact keepsForm_of_mem keepsMem_opVmov e
  | aalloc => exact keepsForm_of_mem keepsMem_opAalloc e
  | mma | mmaz => exact keepsForm_of_mem keepsMem_opMm e
  | mmag => exact keepsForm_of_mem keepsMem_opMmag e
  | aout => exact keepsForm_of_mem keepsMem_opAout e
  | aoutq => exact keepsForm_of_mem keepsMem_opAoutq e
  | smset => exact keepsForm_of_mem keepsMem_opSmset e
  | estat => exact keepsForm_of_mem keepsMem_opEstat e
  | qdeq => exact keepsForm_of_mem keepsMem_opQdeq e
  | qdeqTile => exact keepsForm_of_mem keepsMem_opQdeqTile e
  | qstat => exact keepsForm_of_mem keepsMem_opQstat e
  | scld => exact keepsForm_of_mem keepsMem_opScld e
  | scst => exact keepsForm_of_some keepsForm_opScst e
  | anstat => exact keepsForm_of_mem keepsMem_opAnstat e
  | nop | br | brp | call | ret | jr | callX | loop | loope | step | exit | cont | setlt | setltX | evwait | trap | sysc | bkpt | emret | icinv
  | publish | movToPall | fence | drain | drainR | afree | azero | tzero | tmov | smclr | ecfg | ego | qcfgSrc | qcfgSnk | qenq
  | qreset | scset | srseed | evset | evclr | gbar | slk | slkReg =>
    exact keepsForm_of_mem ⟨fun _ _ => rfl, fun _ _ => rfl, fun _ _ => rfl⟩ e
  | _ => nomatch e

/-- A lone instruction that has a slot operation is its issue. -/
theorem exec_slotOf {i : Instr} {o : SlotOp} {s : State} (e : slotOf (soleSlot i) i = some o) : exec i s = .next (issue [o] s) := by
  cases i <;> cases e <;> rfl

/-! ## Bundles and the steps of `exec` -/

theorem keepsForm_opUndef {j : Nat} : (opUndef j).KeepsForm := ⟨fun _ _ h => h, fun _ _ h => h, fun _ _ h => h⟩

theorem keepsForm_bundleOps {ws : List (Nat × Option Instr)} : ∀ o ∈ bundleOps ws, o.KeepsForm := by
  intro o ho
  obtain ⟨e, -, rfl⟩ := List.mem_map.mp ho
  cases he : e.2.bind (slotOf e.1) with
  | none => exact keepsForm_opUndef
  | some p =>
    obtain ⟨i, -, hi⟩ := Option.bind_eq_some_iff.mp he
    exact keepsForm_slotOf hi

/-! ### The steps of `exec` -/

theorem wf_of_next {u t : State} (e : (Host.Outcome.next u : Host.Outcome State Fault Refusal) = .next t) (h : Memory.wf u.mem = true) :
    Memory.wf t.mem = true := Host.Outcome.next.inj e ▸ h

/-- The issue of a translated instruction. -/
theorem wf_sviIssue {s t : State} {o : SlotOp} (k : o.KeepsForm) (h : Memory.wf s.mem = true) (e : sviIssue o s = .next t) :
    Memory.wf t.mem = true := by
  refine wf_of_next e ?_
  split
  · exact wf_issue_one ⟨k.eff, k.effu, k.late⟩ h
  · exact wf_of_mem (setCur_mem ..) h

theorem wf_cmdNow_mem {s : State} (h : Memory.wf s.mem = true) {q c sub} {act : State → Word → Word → Word → Except Code State}
    (ha : ∀ {t u : State} {a b c}, act t a b c = .ok u → u.mem = t.mem) : Memory.wf (cmdNow s q c sub act).mem = true :=
  wf_cmdNow h (fun ht e => wf_of_mem (ha e) ht)

/-- A step of the machine or of an agent that is no slot instruction. -/
theorem wf_exec_none {s t : State} {i : Instr} (hi : slotOf (soleSlot i) i = none) (h : Memory.wf s.mem = true) (e : exec i s = .next t) :
    Memory.wf t.mem = true := by
  cases i with
  | evwaitEnd | boundedWaitLimit | null | ctxinfo | objfree | svicall | fenceComplete | drainComplete | bwaitPollReply
  | groupBarrierArrival | tileWordAccept | fetchArrival | replyArrival | landingCycle | latencyBoundExpiry | occupancyEnd | busyClear
  | annealerWindow | releaseIssue | acquirePerformed | acknowledgementArrival | pageWalkComplete | packetArrival | circuitSlot
  | linkStateChange | hostMemoryRead | registerWrite | launchQueueTailWrite | thermalTrip | bootctlGo | imageLoaded | imageVerified
  | icinvFinish | syscServed | tlbDrop =>
    exact wf_of_next e (by simpa using h)
  | flitRetry =>
    refine wf_of_next e ?_
    split
    · exact wf_of_mem (setFport_mem ..) h
    · split <;> exact h
  | portStateChange =>
    refine wf_of_next e ?_
    split
    · simpa using h
    · exact h
  | sviIntegerOp => exact wf_sviIssue keepsMem_opSviInt.keepsForm h e
  | sviTransfer => exact wf_sviIssue keepsMem_opSviJump.keepsForm h e
  | sviLoadStore => exact wf_sviIssue keepsForm_opSviMem h e
  | sviFence => exact wf_sviIssue keepsMem_opSviFence.keepsForm h e
  | ecall => exact wf_sviIssue (keepsForm_slotOf (j := 0) (i := .sysc 0x7FFF 0) rfl) h e
  | ebreak => exact wf_sviIssue (keepsForm_slotOf (j := 0) (i := .bkpt 0 0) rfl) h e
  | sviMOp => exact wf_sviIssue keepsMem_opSviMul.keepsForm h e
  | sviCsrAccess => exact wf_sviIssue keepsMem_opSviCsr.keepsForm h e
  | sviVectorOp => exact wf_sviIssue keepsForm_opSviVec h e
  | sviill | agCont => exact wf_sviIssue ⟨fun _ _ h => h, fun _ _ h => h, fun _ _ h => h⟩ h e
  | agTpost => exact wf_sviIssue keepsMem_opTpost.keepsForm h e
  | agTix => exact wf_sviIssue keepsMem_opTix.keepsForm h e
  | agAmo | agAmoF | agAmoN => exact wf_sviIssue keepsForm_opAtomic h e
  | agDrainR => exact wf_sviIssue (keepsForm_slotOf (j := 3) (i := .drainR 0) rfl) h e
  | agDrainScope f => exact wf_sviIssue (keepsForm_slotOf (j := 3) (i := .fence (BitVec.ofNat 3 (f.toNat - 1)) 0) rfl) h e
  | agSlk a => exact wf_sviIssue (keepsForm_slotOf (j := 7) (i := .slkReg (a.setWidth 6) 0) rfl) h e
  | agSlki im => exact wf_sviIssue (keepsForm_slotOf (j := 7) (i := .slk im 0) rfl) h e
  | agIcinv sc => exact wf_sviIssue (keepsForm_slotOf (j := 0) (i := .icinv (sc.setWidth 3) 0) rfl) h e
  | agExit => exact wf_sviIssue (keepsForm_slotOf (j := 0) (i := .exit 0) rfl) h e
  | tmma | tmmag | tcopy | ttrans | tred | tscan | tew | tqnt | tsmax | tnorm | topt | tcoll | tfill | tgath | tscat | tbar =>
    exact wf_of_next e (wf_tileStep h)
  | tileWordCompletion => exact wf_of_next e (wf_tileComplete h)
  | childFault => exact wf_of_next e (wf_childFault h)
  | publishValidation => exact wf_of_next e (wf_publishStep h)
  | dispatch => exact wf_of_next e (wf_dispatchStep h)
  | frzto => exact wf_of_next e (wf_frzto h)
  | trapTaken => exact wf_of_next e (wf_trapTaken h)
  | interruptTaken => exact wf_of_next e (wf_interruptTaken h)
  | emulationEntry => exact wf_of_next e (wf_emuEntry h)
  | memoryLoadPerform | memoryStorePerform | amoLoad | amoStore | amoSwap | amoCas | amoAdd | amoSaturatingAdd | amoAnd | amoOr | amoXor
  | amoSignedMin | amoSignedMax | amoUnsignedMin | amoUnsignedMax | fetchIncrementWithBound | fetchDecrementWithFloor | barrierArrive
  | barrierReset | queuePush | queuePop | packedSatAddInt16 | packedSatAddInt8 | maxWithIndex | wideAdd | cas128 | bitTestAndSet
  | censusMinMerge | eventPost =>
    exact wf_of_next e (wf_performAs h)
  | joinDec =>
    refine wf_of_next e ?_
    split
    · exact wf_joinStep h
    · exact wf_performAs h
  | copyPerform => exact wf_of_next e (wf_copyPerform h)
  | copyProgramComplete => exact wf_of_next e (wf_copyComplete h)
  | slackTick => exact wf_of_next e (wf_slackTick h)
  | arbiterGrant => exact wf_of_next e (wf_arbiterGrant h)
  | hostMemoryWrite => exact wf_of_next e (wf_hostWrite h)
  | taskListLaunch => exact wf_of_next e (wf_taskList h)
  | tileWordLaunch => exact wf_of_next e (wf_tileLaunch h)
  | launchRetire => exact wf_of_next e (wf_retire h)
  | journalMirrorWrite => exact wf_of_next e (wf_mirror h)
  | ctxset => exact wf_of_next e (wf_cmdNow_mem h ctxset_mem)
  | classign => exact wf_of_next e (wf_cmdNow_mem h classign_mem)
  | clrelease => exact wf_of_next e (wf_cmdNow_mem h clrelease_mem)
  | place => exact wf_of_next e (wf_cmdNow h fun ht => wf_place ht)
  | qconf => exact wf_of_next e (wf_cmdNow_mem h qconf_mem)
  | savecfg => exact wf_of_next e (wf_cmdNow_mem h savecfg_mem)
  | preempt => exact wf_of_next e (wf_preempt h)
  | preemptSave => exact wf_of_next e (wf_preemptSave h)
  | commandLimitExpiry => exact wf_of_next e (wf_limitExpiry h)
  | swout => exact wf_of_next e (wf_swout h)
  | swin => exact wf_of_next e (wf_cmdNow h fun ht => wf_swin ht)
  | stop => exact wf_of_next e (wf_stop h)
  | stopFallback => exact wf_of_next e (wf_stopFallback h)
  | resume => exact wf_of_next e (wf_cmdNow_mem h resume_mem)
  | resumeAbort => exact wf_of_next e (wf_cmdNow h fun ht => wf_resumeAbort ht)
  | partset => exact wf_of_next e (wf_cmdNow h fun ht => wf_partset ht)
  | tlbinv | tlbinvAll => exact wf_of_next e (wf_tlbinvStart h)
  | tlbinvEnd => exact wf_of_next e (wf_tlbinvFinish h)
  | faultRingConfig => exact wf_of_next e (wf_cmdNow h fun ht => wf_ringConfig ht)
  | faultResume => exact wf_of_next e (wf_cmdNow_mem h faultResume_mem)
  | faultReplay => exact wf_of_next e (wf_faultReplay h)
  | faultDiscard => exact wf_of_next e (wf_cmdNow h fun ht => wf_faultDiscard ht)
  | faultRingHeadWrite => exact wf_of_next e (wf_ringHead h)
  | fplan => exact wf_of_next e (wf_cmdNow_mem h fplan_mem)
  | fplanDegronly => exact wf_of_next e (wf_cmdNow_mem h fplanDegr_mem)
  | opset => exact wf_of_next e (wf_cmdStart h opset_mem)
  | operatingPointChange => exact wf_of_next e (wf_opChange h)
  | anset => exact wf_of_next e (wf_cmdNow_mem h anset_mem)
  | tripset => exact wf_of_next e (wf_cmdNow_mem h tripset_mem)
  | attest => exact wf_of_next e (wf_cmdNow h fun ht => wf_attest ht)
  | packageReset => exact wf_of_next e (wf_packageReset h)
  | linkTrained => exact wf_of_next e (wf_linkTrained h)
  | scrub => exact wf_of_next e (wf_scrub h)
  | _ => nomatch hi

theorem wf_exec {s t : State} {i : Instr} (h : Memory.wf s.mem = true) (e : exec i s = .next t) : Memory.wf t.mem = true := by
  cases hi : slotOf (soleSlot i) i with
  | none => exact wf_exec_none hi h e
  | some o => exact wf_of_next ((exec_slotOf hi).symm.trans e) (wf_issue_one (keepsForm_slotOf hi) h)

/-! ## Turns, internal steps and the step -/

/-! ### A turn of a core -/

/-- The state that a turn comes to, or in which it issues an instruction. -/
def Turn.base : Turn → State
  | .state s => s
  | .run _ s => s

@[simp] theorem Turn.base_state (s : State) : (Turn.state s).base = s := rfl
@[simp] theorem Turn.base_run (i : Instr) (s : State) : (Turn.run i s).base = s := rfl

section
variable {s : State} (h : Memory.wf s.mem = true)
include h

theorem wf_bundleTurn {b} : Memory.wf (bundleTurn b s).base.mem = true := by
  unfold bundleTurn
  extract_lets ws ops u
  have hu : Memory.wf u.mem = true := wf_of_mem (setCur_mem ..) h
  have issued : Memory.wf (issue ops u).mem = true := wf_issue keepsForm_bundleOps hu
  clear_value u ops ws
  split
  · exact hu
  · split
    · exact hu
    · exact issued
  · exact issued

theorem wf_fetchTurn : Memory.wf (fetchTurn s).base.mem = true := by
  unfold fetchTurn
  extract_lets c a
  split
  · exact wf_of_mem (bump_mem _) (wf_faultAt h)
  · split
    · exact h
    · split
      · exact wf_of_mem (bump_mem _) (wf_faultAt h)
      · split
        · exact wf_of_mem (setCur_mem ..) h
        · exact wf_bundleTurn h

theorem wf_goTurn : Memory.wf (goTurn s).base.mem = true := by
  unfold goTurn
  extract_lets c
  split
  · exact wf_of_mem (setCur_mem ..) h
  · split
    · exact wf_of_mem (setCur_mem ..) h
    · exact wf_fetchTurn h

theorem wf_runTurn : Memory.wf (runTurn s).base.mem = true := by
  unfold runTurn
  extract_lets u c w
  have hu : Memory.wf u.mem = true := wf_of_mem (setCur_mem ..) h
  have hw : Memory.wf w.1.mem = true := wf_waitTurn hu
  clear_value w u
  split_ifs
  · exact wf_frzto hu
  · exact wf_of_mem (setCur_mem ..) hu
  · exact wf_trapTurn hu
  · exact wf_takingTurn hu
  · exact wf_of_mem (setCur_mem ..) hu
  · exact wf_goTurn hw
  · exact hw

theorem wf_coreTurn : Memory.wf (coreTurn s).base.mem = true := by
  unfold coreTurn
  extract_lets t u v
  have hu : Memory.wf u.mem = true := wf_of_mem ((setCur_mem ..).trans (turnCcy_mem _)) h
  have hv : Memory.wf v.mem = true := wf_of_mem (setCur_mem ..) hu
  clear_value v u
  split
  · exact wf_runTurn hu
  · exact wf_endTurn hu
  · simp only [Turn.base_state]
    split
    · exact wf_takeSave hv
    · exact hv
  · exact wf_of_mem (setCur_mem ..) hu

theorem wf_turn {t} (e : turn s = .next t) : Memory.wf t.mem = true := by
  have hb : Memory.wf (coreTurn s).base.mem = true := wf_coreTurn h
  unfold turn at e
  split at e
  · cases e
  · split at e
    next u eu =>
      rw [eu] at hb
      exact wf_of_next e hb
    next i u eu =>
      rw [eu] at hb
      exact wf_exec hb e

/-! ### The internal steps -/

omit h in
theorem wf_of_or {x y : Option State} (hx : ∀ t, x = some t → Memory.wf t.mem = true) (hy : ∀ t, y = some t → Memory.wf t.mem = true) :
    ∀ t, x.or y = some t → Memory.wf t.mem = true := by
  intro t e
  rcases Option.or_eq_some_iff.mp e with e | ⟨-, e⟩
  · exact hx t e
  · exact hy t e

omit h in
theorem wf_of_findSome {α : Type} {l : List α} {f : α → Option State} (hf : ∀ a t, f a = some t → Memory.wf t.mem = true) :
    ∀ t, l.findSome? f = some t → Memory.wf t.mem = true := by
  intro t e
  obtain ⟨a, -, ha⟩ := List.exists_of_findSome?_eq_some e
  exact hf a t ha

omit h in
theorem wf_of_map {α : Type} {x : Option α} {f : α → State} (hf : ∀ a, Memory.wf (f a).mem = true) :
    ∀ t, x.map f = some t → Memory.wf t.mem = true := by
  intro t e
  obtain ⟨a, -, rfl⟩ := Option.map_eq_some_iff.mp e
  exact hf a

omit h in
theorem wf_of_eq_some {u t : State} (e : some u = some t) (hu : Memory.wf u.mem = true) : Memory.wf t.mem = true :=
  Option.some.inj e ▸ hu

theorem wf_reqNext {r t} (e : reqNext s r = some t) : Memory.wf t.mem = true := by
  unfold reqNext at e
  split at e
  · split at e
    · exact wf_of_eq_some e (wf_performAs h)
    · split at e
      · split at e
        · exact wf_of_eq_some e (wf_of_mem (homeArrive_mem ..) h)
        · split at e
          · exact wf_of_eq_some e (wf_of_mem (homeArrive_mem ..) h)
          · cases e
        · exact wf_of_eq_some e (wf_of_mem (homeGrant_mem ..) h)
        · cases e
      · split at e
        · exact wf_of_eq_some e (wf_of_mem (releaseStep_mem ..) h)
        · cases e
  · split at e
    · exact wf_of_eq_some e (wf_of_mem (ackStep_mem ..) h)
    · exact wf_of_eq_some e (wf_of_mem (replyStep_mem ..) h)
    · refine wf_of_eq_some e ?_
      split
      · exact wf_of_mem (replyStep_mem ..) h
      · exact wf_of_mem (pollReply_mem ..) h
    · cases e

theorem wf_compNext {c t} (e : compNext s c = some t) : Memory.wf t.mem = true := by
  unfold compNext at e
  split at e
  · cases e
  · split at e
    · exact wf_of_eq_some e (wf_joinStep h)
    · exact wf_of_eq_some e (wf_publishStep h)
    · split at e
      · cases e
      · exact wf_of_eq_some e (wf_of_mem (gbarStep_mem ..) h)

theorem wf_chanNext {k c x t} (e : chanNext s k c x = some t) : Memory.wf t.mem = true := by
  unfold chanNext at e
  split at e
  · cases e
  · split at e
    · exact wf_of_eq_some e (wf_copyComplete h)
    · split at e
      · exact wf_of_eq_some e (wf_copyPerform h)
      · cases e

theorem wf_wordNext {w t} (e : wordNext s w = some t) : Memory.wf t.mem = true := by
  unfold wordNext at e
  split at e
  · exact wf_of_eq_some e (wf_of_mem (tileAccept_mem ..) h)
  · split at e
    · exact wf_of_eq_some e (wf_tileStep h)
    · cases e
  · split at e
    · exact wf_of_eq_some e (wf_tileStep h)
    · cases e
  · exact wf_of_eq_some e (wf_childFault h)
  · split at e
    · exact wf_of_eq_some e (wf_tileComplete h)
    · cases e

theorem wf_cmdNext {q r} : Memory.wf (cmdNext s q r).mem = true := by
  unfold cmdNext
  split
  · exact wf_cmdNow_mem h ctxset_mem
  · exact wf_cmdNow_mem h classign_mem
  · exact wf_cmdNow_mem h clrelease_mem
  · exact wf_cmdNow h fun ht => wf_place ht
  · exact wf_cmdNow_mem h qconf_mem
  · exact wf_cmdNow_mem h savecfg_mem
  · exact wf_preempt h
  · exact wf_swout h
  · exact wf_cmdNow h fun ht => wf_swin ht
  · exact wf_stop h
  · refine wf_cmdNow h fun ht e => ?_
    split at e
    · exact wf_resumeAbort ht e
    · exact wf_of_mem (resume_mem e) ht
  · exact wf_cmdNow h fun ht => wf_partset ht
  · exact wf_tlbinvStart h
  · split
    · exact wf_cmdNow h fun ht => wf_ringConfig ht
    · exact wf_cmdNow_mem h faultResume_mem
    · exact wf_faultReplay h
    · exact wf_cmdNow h fun ht => wf_faultDiscard ht
  · refine wf_cmdNow_mem h fun e => ?_
    split at e
    · exact fplanDegr_mem e
    · exact fplan_mem e
  · exact wf_cmdStart h opset_mem
  · exact wf_cmdNow_mem h anset_mem
  · exact wf_cmdNow_mem h tripset_mem
  · exact wf_cmdNow h fun ht => wf_attest ht
  · exact wf_taskList h

theorem wf_headNext {t} (e : headNext s = some t) : Memory.wf t.mem = true := by
  unfold headNext at e
  split at e
  · cases e
  · refine wf_of_map (fun r => ?_) t e
    split_ifs
    · exact wf_tileLaunch h
    · exact wf_cmdNext h
    · exact wf_taskList h

theorem wf_runNext {m t} (e : runNext s m = some t) : Memory.wf t.mem = true := by
  unfold runNext at e
  extract_lets n cl ks x at e
  split at e
  · split at e
    · exact wf_of_eq_some e (wf_preempt h)
    · cases e
  · split at e
    · exact wf_of_eq_some e (wf_swout h)
    · cases e
  · split at e
    · exact wf_of_eq_some e (wf_stop h)
    · cases e
  · split at e
    · exact wf_of_eq_some e (wf_tlbinvFinish h)
    · cases e
  · split at e
    · split at e
      · exact wf_of_eq_some e (wf_faultReplay h)
      · cases e
    · exact wf_of_eq_some e (wf_faultReplay h)
  · cases e

theorem wf_hubNext {t} (e : hubNext s = some t) : Memory.wf t.mem = true := by
  unfold hubNext at e
  split at e
  · exact wf_of_eq_some e (wf_of_mem (imageLoaded_mem ..) h)
  · split at e
    · exact wf_of_eq_some e (wf_of_mem (imageVerified_mem _) h)
    · split at e
      · cases e
      · refine wf_of_or (wf_of_map fun _ => wf_reread h) (wf_of_or (fun _ => wf_headNext h) (wf_of_or (wf_of_findSome fun _ _ => wf_runNext h)
          (wf_of_or (wf_of_map fun _ => wf_retire h) fun t e => ?_))) t e
        split at e
        · cases e
        · exact wf_of_eq_some e (wf_opChange h)

theorem wf_coreNext {k c t} (e : coreNext s k c = some t) : Memory.wf t.mem = true := by
  unfold coreNext at e
  extract_lets a at e
  split at e
  · exact wf_of_eq_some e (wf_preemptSave h)
  · split at e
    · cases e
    · split at e
      · exact wf_of_eq_some e (wf_of_mem (icinvFinish_mem ..) h)
      · split at e
        · cases e
        · refine wf_of_eq_some e ?_
          split <;> simpa using h
      · split at e
        · exact wf_of_eq_some e (wf_of_mem (fetchArrival_mem ..) h)
        · cases e

theorem wf_placeNext {p t} (e : placeNext s p = some t) : Memory.wf t.mem = true := by
  unfold placeNext at e
  extract_lets u flit at e
  split at e
  · cases e
  · split at e
    · split at e
      · cases e
      · exact wf_of_eq_some e (wf_arbiterGrant h)
    · split at e
      · exact wf_of_eq_some e (wf_arbiterGrant h)
      · exact wf_of_eq_some e (wf_of_mem (circuitSlot_mem ..) h)
    · cases e

theorem wf_nextInternal {t} (e : nextInternal s = some t) : Memory.wf t.mem = true := by
  refine wf_of_or (wf_of_findSome fun _ _ => wf_reqNext h) ?_ t e
  refine wf_of_or (wf_of_findSome fun _ _ => wf_compNext h) ?_
  refine wf_of_or (wf_of_findSome fun _ => wf_of_findSome fun _ _ => wf_chanNext h) ?_
  refine wf_of_or (wf_of_findSome fun _ _ => wf_wordNext h) ?_
  refine wf_of_or (fun _ => wf_hubNext h) ?_
  refine wf_of_or (wf_of_findSome fun _ _ => wf_coreNext h) ?_
  exact wf_of_or (wf_of_map fun _ => wf_dispatchStep h) (wf_of_findSome fun _ _ => wf_placeNext h)

/-! ### The step -/

theorem wf_step {t} (e : step s = .next t) : Memory.wf t.mem = true := by
  unfold step at e
  split at e
  · split at e
    · refine wf_exec ?_ e
      exact h
    · exact wf_of_next e h
  · refine wf_turn ?_ e
    exact h
  · split at e
    next u eu => exact wf_of_next e (wf_nextInternal h eu)
    · refine wf_turn ?_ e
      exact h

end

end Sys2Proof.Machine

open Sys2Proof hiding core
open Sys2Proof.Machine

/-- Settles O6: each step is an instruction, a turn of a core or an internal step, and each of these changes memory only by stores at
locations, copies of ranges and clearing of ranges, which keep the form. -/
theorem memoryFormKept : Obligations.MemoryFormKept := fun _ _ h e => wf_step h e

end

section
/-! PROOFS. What the statements of spec/02_execution_model.md stand on: records in memory, ready queues, event words, and requests that perform. -/
namespace Sys2Proof.Machine

/-! ## Bit fields and tables -/

theorem getLsbD_setFld_in {n : Nat} (x : BitVec n) {lo len i : Nat} (v : Nat) (hi : i < len) (hn : lo + len ≤ n) :
    (setFld x lo len v).getLsbD (lo + i) = v.testBit i := by
  have h1 : lo + i < n := by omega
  have h2 : ¬ lo + i < lo := by omega
  have h3 : i < n := by omega
  have hb : (BitVec.ofNat len v)[i] = v.testBit i := by simp [← BitVec.getLsbD_eq_getElem, BitVec.getLsbD_ofNat, hi]
  simp [setFld, h1, h2, hi, hb]

/-- The field that is written. -/
theorem fld_setFld_same {n : Nat} (x : BitVec n) {lo len : Nat} (v : Nat) (hn : lo + len ≤ n) :
    fld (setFld x lo len v) lo len = v % 2 ^ len := by
  rw [← BitVec.toNat_ofNat]
  refine congrArg BitVec.toNat (BitVec.eq_of_getLsbD_eq fun i hi => ?_)
  have hb : (BitVec.ofNat len v)[i] = v.testBit i := by simp [← BitVec.getLsbD_eq_getElem, BitVec.getLsbD_ofNat, hi]
  simp [hi, getLsbD_setFld_in x v hi hn, hb]

theorem fld_lt {n : Nat} (x : BitVec n) (lo len : Nat) : fld x lo len < 2 ^ len := (x.extractLsb' lo len).isLt

/-- A table in which the keys of a list have been set, each to a value of its own. -/
theorem tget_foldl_tset {α : Type} [DecidableEq α] {d : α} (f : Nat → α) (l : List Nat) : ∀ (t : Tab α) (j : Nat),
    tget d (l.foldl (fun t w => tset d t w (f w)) t) j = if j ∈ l then f j else tget d t j := by
  induction l with
  | nil => intro t j; simp
  | cons w l ih =>
    intro t j
    rw [List.foldl_cons, ih, tget_tset]
    by_cases hl : j ∈ l
    · simp [hl]
    · by_cases hw : j = w
      · simp [hw]
      · simp [hl, hw]

/-! ## Records in memory (R25) -/

/-- Reads of memories that agree on the bytes read agree. -/
theorem rd_congr {s t : State} {a n : Nat} (h : ∀ b, a ≤ b → b < a + n → rdB t b = rdB s b) : rd t a n = rd s a n :=
  rdMem_congr n _ _ a fun i hi => h (a + i) (by omega) (by omega)

theorem rdRec_congr {s t : State} {a : Nat} (h : ∀ b, a ≤ b → b < a + 64 → rdB t b = rdB s b) : rdRec t a = rdRec s a := by
  have hw : ∀ i, i < 8 → rd t (a + 8 * i) 8 = rd s (a + 8 * i) 8 := fun i hi => rd_congr fun b h1 h2 => h b (by omega) (by omega)
  simp only [rdRec, hw _ (show 0 < 8 by omega), hw _ (show 1 < 8 by omega), hw _ (show 2 < 8 by omega), hw _ (show 3 < 8 by omega),
    hw _ (show 4 < 8 by omega), hw _ (show 5 < 8 by omega), hw _ (show 6 < 8 by omega), hw _ (show 7 < 8 by omega)]

theorem rdB_wrWords_out (l : List Word) : ∀ (s : State) {a b : Nat}, b < a ∨ a + 8 * l.length ≤ b → rdB (wrWords s a l) b = rdB s b := by
  induction l with
  | nil => intros; rfl
  | cons w l ih =>
    intro s a b h
    rw [List.length_cons] at h
    rw [wrWords, ih _ (by omega), rdB_wr_out s (by omega)]

theorem rd_wrWords_out (l : List Word) (s : State) {a b n : Nat} (h : b + n ≤ a ∨ a + 8 * l.length ≤ b) : rd (wrWords s a l) b n = rd s b n :=
  rd_congr fun c h1 h2 => rdB_wrWords_out l s (by omega)

/-- Doubleword i of a list of doublewords that has been stored. -/
theorem rd_wrWords (l : List Word) : ∀ (s : State) (a i : Nat), i < l.length → rd (wrWords s a l) (a + 8 * i) 8 = (l.getD i 0).toNat := by
  induction l with
  | nil => intro s a i h; exact absurd h (Nat.not_lt_zero i)
  | cons w l ih =>
    intro s a i h
    cases i with
    | zero =>
      rw [wrWords, rd_wrWords_out l _ (by omega), Nat.mul_zero, Nat.add_zero, rd_wr_self]
      exact Nat.mod_eq_of_lt w.isLt
    | succ i =>
      rw [wrWords, show a + 8 * (i + 1) = a + 8 + 8 * i by omega, ih _ _ _ (by simpa using h)]
      rfl

theorem rdRec_wrRec (s : State) (a : Nat) (r : Rec) : rdRec (wrRec s a r) a = r := by
  have h : ∀ i, i < 8 → BitVec.ofNat 64 (rd (wrRec s a r) (a + 8 * i) 8) = (recWords r).getD i 0 := fun i hi => by
    rw [wrRec, rd_wrWords _ _ _ _ hi, BitVec.ofNat_toNat, BitVec.setWidth_eq]
  simp only [rdRec, h _ (show 0 < 8 by omega), h _ (show 1 < 8 by omega), h _ (show 2 < 8 by omega), h _ (show 3 < 8 by omega),
    h _ (show 4 < 8 by omega), h _ (show 5 < 8 by omega), h _ (show 6 < 8 by omega), h _ (show 7 < 8 by omega)]
  rfl

theorem rdB_wrRec_out (s : State) {a b : Nat} (r : Rec) (h : b < a ∨ a + 64 ≤ b) : rdB (wrRec s a r) b = rdB s b :=
  rdB_wrWords_out (recWords r) s h

/-- Stored doublewords change memory alone. -/
theorem wrWords_mem_only (l : List Word) : ∀ (s : State) (a : Nat), { wrWords s a l with mem := s.mem } = s := by
  induction l with
  | nil => intros; rfl
  | cons w l ih =>
    intro s a
    exact congrArg (fun u : State => { u with mem := s.mem }) (ih (wr s a 8 w.toNat) (a + 8))

theorem wrRec_mem_only (s : State) (a : Nat) (r : Rec) : { wrRec s a r with mem := s.mem } = s := wrWords_mem_only _ s a

@[simp] theorem wrRec_cores (s : State) (a : Nat) (r : Rec) : (wrRec s a r).cores = s.cores := (congrArg State.cores (wrRec_mem_only s a r) :)
@[simp] theorem wrRec_clus (s : State) (a : Nat) (r : Rec) : (wrRec s a r).clus = s.clus := (congrArg State.clus (wrRec_mem_only s a r) :)
@[simp] theorem wrRec_ctxs (s : State) (a : Nat) (r : Rec) : (wrRec s a r).ctxs = s.ctxs := (congrArg State.ctxs (wrRec_mem_only s a r) :)
@[simp] theorem wrRec_reqs (s : State) (a : Nat) (r : Rec) : (wrRec s a r).reqs = s.reqs := (congrArg State.reqs (wrRec_mem_only s a r) :)
@[simp] theorem wrRec_comps (s : State) (a : Nat) (r : Rec) : (wrRec s a r).comps = s.comps := (congrArg State.comps (wrRec_mem_only s a r) :)
@[simp] theorem wrRec_hub (s : State) (a : Nat) (r : Rec) : (wrRec s a r).hub = s.hub := (congrArg State.hub (wrRec_mem_only s a r) :)
@[simp] theorem wrRec_cur (s : State) (a : Nat) (r : Rec) : (wrRec s a r).cur = s.cur := (congrArg State.cur (wrRec_mem_only s a r) :)

/-! ## Fields of a record (R25) -/

theorem join_setJoin (r : Rec) {j : Int} (h : -32768 ≤ j) (h' : j < 32768) : (r.setJoin j).join = j := by
  have e : ((j % 65536).toNat : Int) = j % 65536 := Int.toNat_of_nonneg (Int.emod_nonneg _ (by omega))
  simp only [Rec.join, Rec.setJoin]
  rw [fld_setFld_same _ _ (by omega)]
  simp only [sextI, Int.natCast_emod, e]
  norm_num
  split <;> omega

theorem join_range (r : Rec) : -32768 ≤ r.join ∧ r.join < 32768 := by
  have h := fld_lt r.w2 0 16
  simp only [Rec.join, sextI]
  norm_num at h ⊢
  split <;> omega

/-! ## Units of states that share a table -/

theorem core_congr {s t : State} (h : t.cores = s.cores) (k : Nat) : core t k = core s k := by rw [core, core, h]
theorem clu_congr {s t : State} (h : t.clus = s.clus) (n : Nat) : clu t n = clu s n := by rw [clu, clu, h]
theorem ctx_congr {s t : State} (h : t.ctxs = s.ctxs) (n : Nat) : ctx t n = ctx s n := by rw [ctx, ctx, h]

theorem rdB_congr {s t : State} (h : t.mem = s.mem) (b : Nat) : rdB t b = rdB s b := by rw [rdB, rdB, h]

/-! ## Where frames stand (R28, R371) -/

theorem swImage_congr {s t : State} (h : t.ctxs = s.ctxs) (cx n : Nat) : swImage t cx n = swImage s cx n := by
  rw [swImage, swImage, ctx_congr h]

theorem ctxD_congr {s t : State} (h : t.ctxs = s.ctxs) (n j : Nat) : ctxD t n j = ctxD s n j := by
  rw [ctxD, ctxD, ctx_congr h]

/-- Frames move with the contexts' switch images and windows alone. -/
theorem frameHome_congr {s t : State} (h : t.ctxs = s.ctxs) (cx d : Nat) (f : Word) : frameHome t cx d f = frameHome s cx d f := by
  have hd : ctxD t cx = ctxD s cx := funext (ctxD_congr h cx)
  simp only [frameHome, swImage_congr h, hd]

/-! ## Event words (R47) -/

/-- Event word w of a cluster once the changes of its last ccy are in it, clears before sets. -/
def Cluster.nextEv (c : Cluster) (w : Nat) : BitVec 32 := (tget 0 c.ev w &&& ~~~(tget 0 c.evC w)) ||| tget 0 c.evS w

theorem evView_now {s : State} {c : Cluster} (h : s.ccy ≤ c.evCcy) : evView s c = c := if_neg (Nat.not_lt.mpr h)

theorem tget_evView_ev {s : State} {c : Cluster} {w : Nat} (h : c.evCcy < s.ccy) (hw : w < 8) : tget 0 (evView s c).ev w = c.nextEv w := by
  rw [evView, if_pos h]
  dsimp only
  rw [tget_foldl_tset, if_pos (List.mem_range.mpr hw)]
  rfl

/-- A later ccy sees every change. -/
theorem evWord_later {s : State} {n w : Nat} (h : (clu s n).evCcy < s.ccy) (hw : w < 8) : evWord s n w = (clu s n).nextEv w :=
  tget_evView_ev h hw

theorem evWord_congr {s t : State} (h : t.clus = s.clus) (c n w : Nat) : evWord { t with ccy := c } n w = evWord { s with ccy := c } n w := by
  have hc : clu { t with ccy := c } n = clu { s with ccy := c } n := clu_congr (s := { s with ccy := c }) h n
  rw [evWord, evWord, hc, evView, evView]

/-- Looking at the event words changes none of them. -/
theorem nextEv_evView {s : State} {c : Cluster} {w : Nat} (hw : w < 8) : (evView s c).nextEv w = c.nextEv w := by
  by_cases h : c.evCcy < s.ccy
  · have e := tget_evView_ev h hw
    rw [evView, if_pos h] at e ⊢
    simp only [Cluster.nextEv, e, tget]
    change (_ &&& ~~~0#32) ||| 0#32 = _
    rw [BitVec.not_zero, BitVec.and_allOnes, BitVec.or_zero]
  · rw [evView_now (Nat.not_lt.mp h)]

theorem clu_evSet (s : State) (n v m : Nat) (x : BitVec 32) : clu (evSet s n v x) m =
    if m = n then { evView s (clu s n) with evCcy := s.ccy, evS := tset 0 (evView s (clu s n)).evS v (tget 0 (evView s (clu s n)).evS v ||| x) }
    else clu s m := clu_setClu ..

theorem clu_evSet_ne (s : State) {n v m : Nat} (x : BitVec 32) (h : m ≠ n) : clu (evSet s n v x) m = clu s m := by
  rw [clu_evSet, if_neg h]

/-- Bits that are set stand in the word as the next ccy sees it. -/
theorem nextEv_evSet (s : State) {n v w : Nat} (x : BitVec 32) (hw : w < 8) :
    (clu (evSet s n v x) n).nextEv w = ((clu s n).nextEv w ||| if w = v then x else 0) := by
  rw [clu_evSet, if_pos rfl, ← nextEv_evView (s := s) (c := clu s n) hw]
  simp only [Cluster.nextEv, tget_tset]
  split
  · next h => rw [h, BitVec.or_assoc]
  · simp

theorem evWord_evSet {s : State} {n v w : Nat} (x : BitVec 32) (h : (clu s n).evCcy ≤ s.ccy) (hw : w < 8) :
    evWord { evSet s n v x with ccy := s.ccy + 1 } n w = (evWord { s with ccy := s.ccy + 1 } n w ||| if w = v then x else 0) := by
  have hn : (clu (evSet s n v x) n).evCcy = s.ccy := by rw [clu_evSet, if_pos rfl]
  rw [evWord_later (s := { s with ccy := s.ccy + 1 }) (Nat.lt_succ_of_le h) hw,
    evWord_later (s := { evSet s n v x with ccy := s.ccy + 1 }) (Nat.lt_succ_of_le (le_of_eq hn)) hw]
  exact nextEv_evSet s x hw

@[simp] theorem evView_rq (s : State) (c : Cluster) : (evView s c).rq = c.rq := by
  unfold evView
  split <;> rfl

@[simp] theorem evView_ring (s : State) (c : Cluster) : (evView s c).ring = c.ring := by
  unfold evView
  split <;> rfl

/-! ## Pushes of records (R37, R44) -/

/-- The order of pushes moves the ccy, and the ccy of the last turn of the pushing core. -/
theorem pushOrder_only (s : State) (n key : Nat) : { pushOrder s n key with cores := s.cores, ccy := s.ccy } = s := by
  unfold pushOrder
  dsimp only
  split_ifs <;> rfl

@[simp] theorem pushOrder_clus (s : State) (n key : Nat) : (pushOrder s n key).clus = s.clus := (congrArg State.clus (pushOrder_only s n key) :)
@[simp] theorem pushOrder_ctxs (s : State) (n key : Nat) : (pushOrder s n key).ctxs = s.ctxs := (congrArg State.ctxs (pushOrder_only s n key) :)
@[simp] theorem pushOrder_comps (s : State) (n key : Nat) : (pushOrder s n key).comps = s.comps := (congrArg State.comps (pushOrder_only s n key) :)
@[simp] theorem pushOrder_hub (s : State) (n key : Nat) : (pushOrder s n key).hub = s.hub := (congrArg State.hub (pushOrder_only s n key) :)
@[simp] theorem pushOrder_cur (s : State) (n key : Nat) : (pushOrder s n key).cur = s.cur := (congrArg State.cur (pushOrder_only s n key) :)

theorem core_pushOrder_ne (s : State) {n key k : Nat} (h : k ≠ key) : core (pushOrder s n key) k = core s k := by
  unfold pushOrder
  dsimp only
  split_ifs
  · exact core_modCore_ne _ _ h
  · rfl
  · rfl

/-- A push by hardware: no core makes it. -/
theorem pushOrder_cores (s : State) (n : Nat) {key : Nat} (h : 512 ≤ key) : (pushOrder s n key).cores = s.cores := by
  unfold pushOrder
  dsimp only
  rw [if_neg (Nat.not_lt.mpr h)]
  split_ifs <;> rfl

/-- The cluster after a push into ready queue q. -/
def pushedClu (s : State) (n key q : Nat) (r : Rec) : Cluster :=
  { clu s n with pushCcy := (pushOrder s n key).ccy, pushKey := key, rq := tset [] (clu s n).rq q (rqOf (clu s n) q ++ [r]) }

theorem rqOf_pushedClu (s : State) (n key q j : Nat) (r : Rec) :
    rqOf (pushedClu s n key q r) j = if j = q then rqOf (clu s n) q ++ [r] else rqOf (clu s n) j := tget_tset ..

/-- With room in the ready queue and nothing in its ring, a record enters the queue. -/
theorem pushRec_room {s : State} {cx n : Nat} (key : Nat) {r : Rec} (hi : swImage s cx n = none) (hr : (ringOf (clu s n) (r.qid % 4)).cnt = 0)
    (hl : (rqOf (clu s n) (r.qid % 4)).length < 32) :
    pushRec s cx n key r = .ok (setClu (pushOrder s n key) n (pushedClu s n key (r.qid % 4) r)) := by
  have hc : clu (pushOrder s n key) n = clu s n := clu_congr (pushOrder_clus ..) n
  unfold pushRec pushQ
  rw [hi]
  dsimp only
  rw [hc]
  have hcond : (rqOf { clu s n with pushCcy := (pushOrder s n key).ccy, pushKey := key } (r.qid % 4)).length < 32 ∧
      (ringOf { clu s n with pushCcy := (pushOrder s n key).ccy, pushKey := key } (r.qid % 4)).cnt = 0 := ⟨hl, hr⟩
  rw [if_pos hcond]
  rfl

theorem pushHw_room {s : State} {cx n : Nat} (key : Nat) (tag : BitVec 16) {r : Rec} (hi : swImage s cx n = none)
    (hr : (ringOf (clu s n) (r.qid % 4)).cnt = 0) (hl : (rqOf (clu s n) (r.qid % 4)).length < 32) :
    pushHw s cx n key tag r = setClu (pushOrder s n key) n (pushedClu s n key (r.qid % 4) r) := by
  rw [pushHw, pushRec_room key hi hr hl]

/-! ## Join decrements (R36, R39) -/

/-- A decrement that leaves its record where it is. -/
theorem joinDec_stays {s : State} {cx d : Nat} {f : Word} (h : (rdRec s (frameHome s cx d f)).kind = 3 ∨ 1 < (rdRec s (frameHome s cx d f)).join) :
    joinDec s cx d f = wrRec s (frameHome s cx d f) ((rdRec s (frameHome s cx d f)).setJoin ((rdRec s (frameHome s cx d f)).join - 1)) := by
  unfold joinDec
  dsimp only
  generalize rdRec s (frameHome s cx d f) = q at h ⊢
  by_cases hk : q.kind = 3
  · rw [if_pos hk]
  · have hj := h.resolve_left hk
    have hr := join_range q
    rw [if_neg hk, if_neg (by omega), if_neg (by rw [join_setJoin q (by omega) (by omega)]; omega)]

/-- The last decrement: the record enters its queue. -/
theorem joinDec_last {s : State} {cx d : Nat} {f : Word} (hk : (rdRec s (frameHome s cx d f)).kind ≠ 3)
    (hj : (rdRec s (frameHome s cx d f)).join = 1) :
    joinDec s cx d f = pushHw (wrRec s (frameHome s cx d f) ((rdRec s (frameHome s cx d f)).setJoin 0)) cx (16 * d + frClu f)
      (512 + frCore d f) (BitVec.ofNat 16 (rd s (frameHome s cx d f + 64) 2)) ((rdRec s (frameHome s cx d f)).setJoin 0) := by
  unfold joinDec
  dsimp only
  generalize rdRec s (frameHome s cx d f) = q at hk hj ⊢
  rw [if_neg hk, hj, if_neg (by omega), show (1 : Int) - 1 = 0 from rfl, if_pos (join_setJoin q (by omega) (by omega))]

/-! ## Requests that perform (R94, R116) -/

/-- A request under its number, after a change that keeps its number. -/
theorem findReq_setReq {s : State} {r : Req} (f : Req → Req) (h : findReq s r.id = some r) (hf : ∀ q, (f q).id = q.id) :
    findReq (setReq s r.id f) r.id = some (f r) := by
  have hid : ∀ q : Req, (if q.id = r.id then f q else q).id = q.id := fun q => by split <;> simp [hf]
  simp only [findReq, setReq, List.find?_map] at h ⊢
  have hp : (fun q : Req => decide (q.id = r.id)) ∘ (fun q => if q.id = r.id then f q else q) = fun q => decide (q.id = r.id) :=
    funext fun q => by simp [hid]
  rw [hp, h]
  simp

/-- What a request comes to that has performed, unless its reply goes to a frame. -/
theorem served_apart {s : State} {r : Req} (l t : Nat) (res : Line) (h : ∀ a n f, r.dst ≠ .slot a n f) :
    served s r l t res = setReq s r.id (fun q =>
      { q with stage := .done, res := res, slack := r.slack - (t - nominalSvc l), seen := 0, arr := some s.nextId }) := by
  unfold served
  dsimp only
  split
  · next e => exact absurd e (h _ _ _)
  · rfl

theorem hasPerformed_served {s : State} {r : Req} (l t v : Nat) (hr : findReq s r.id = some r) (h : ∀ a n f, r.dst ≠ .slot a n f) :
    HasPerformed (served s r l t (BitVec.ofNat 1024 v)) r v := by
  rw [served_apart l t _ h]
  exact ⟨_, findReq_setReq _ hr fun _ => rfl, rfl, rfl, rfl, rfl, rfl, rfl⟩

/-- A request that is not answered in a frame changes the requests alone as it performs. -/
theorem served_only {s : State} {r : Req} (l t : Nat) (res : Line) (h : ∀ a n f, r.dst ≠ .slot a n f) :
    { served s r l t res with reqs := s.reqs } = s := by
  rw [served_apart l t res h]
  rfl

theorem served_clus {s : State} {r : Req} (l t : Nat) (res : Line) (h : ∀ a n f, r.dst ≠ .slot a n f) : (served s r l t res).clus = s.clus :=
  (congrArg State.clus (served_only l t res h) :)

theorem performAs_of {s : State} {r : Req} {kd : ReqKind} {h : Nat} (t : Nat) (hr : findReq s r.id = some r) (hk : r.kind = kd)
    (hh : kd = .amo → r.h = h) (hp : canPerform s r = true) : performAs kd h r.id t s = performReq s r t := by
  unfold performAs
  rw [hr]
  have hc : r.kind = kd ∧ (kd ≠ .amo ∨ r.h = h) ∧ canPerform s r = true := ⟨hk, or_iff_not_imp_left.mpr fun hn => hh (not_not.mp hn), hp⟩
  exact if_pos hc

/-- An atomic at a location without an uncorrectable error. -/
theorem performReq_amo {s : State} {r : Req} {l : Nat} (t : Nat) (hk : r.kind = .amo) (hh : r.h ≠ 27) (hl : reqLoc s r = .ok l)
    (he : errIn s l r.n = none) :
    performReq s r t = served (amoDone (amoApply s r l).1 r l) r l t (BitVec.ofNat 1024 (amoApply s r l).2) := by
  have hruns : r.runs l = [(l, r.n)] := if_pos (Or.inl (by simp [hk]))
  simp [performReq, hk, hl, hh, hruns, he]

theorem performReq_event {s : State} {r : Req} (t : Nat) (hk : r.kind = .amo) (hh : r.h = 27) :
    performReq s r t = served (amoApply s r 0).1 r (evLoc 0) t (BitVec.ofNat 1024 (amoApply s r 0).2) := by
  simp [performReq, hk, hh]

/-! ## Accesses of software (R302) -/

theorem softTouch_only (s : State) (l n : Nat) : { softTouch s l n with tiles := s.tiles } = s := by
  unfold softTouch
  split <;> rfl

@[simp] theorem softTouch_clus (s : State) (l n : Nat) : (softTouch s l n).clus = s.clus := (congrArg State.clus (softTouch_only s l n) :)
@[simp] theorem softTouch_reqs (s : State) (l n : Nat) : (softTouch s l n).reqs = s.reqs := (congrArg State.reqs (softTouch_only s l n) :)

end Sys2Proof.Machine
end

section
/-! PROOFS. Join decrements and event posts: the operations of the atomic handlers, and what a request that performs leaves. -/
namespace Sys2Proof.Machine

/-! ## Join decrements and event posts (R36, R189, R191) -/

theorem exec_joinDec_req {s : State} {id : Nat} (t : Nat) (h : ∀ c ∈ s.comps, c.id ≠ id) :
    exec (.joinDec id t) s = .next (performAs .amo 17 id t s) := by
  have hc : s.comps.any (fun c => decide (c.id = id)) = false := by simpa using h
  exact congrArg Host.Outcome.next (if_neg (by simp [hc]))

theorem exec_joinDec_comp {s : State} {c : Comp} (t : Nat) (h : s.comps.find? (fun x => x.id = c.id) = some c) :
    exec (.joinDec c.id t) s = .next (joinStep s c.id) := by
  have hc : s.comps.any (fun x => decide (x.id = c.id)) = true := List.any_eq_true.mpr ⟨c, List.mem_of_find?_eq_some h, by simp⟩
  exact congrArg Host.Outcome.next (if_pos hc)

theorem exec_eventPost (s : State) (id t : Nat) : exec (.eventPost id t) s = .next (performAs .amo 27 id t s) := rfl

theorem amoApply_join {s : State} {r : Req} (l : Nat) (hh : r.h = 17) : amoApply s r l =
    (joinDec s r.ctx (dieOf r.core) (frameCanon r.core r.addr),
      (rdRec s (frameHome s r.ctx (dieOf r.core) (frameCanon r.core r.addr))).w2.toNat) := by
  simp only [amoApply, hh]

theorem amoApply_event {s : State} {r : Req} (l : Nat) (hh : r.h = 27) (ho : clusterOwned s r.ctx (postClu r.core r.addr) = true) :
    amoApply s r l = (evSet s (postClu r.core r.addr) (fld r.op 32 3) (BitVec.ofNat 32 r.op.toNat), 0) := by
  simp [amoApply, hh, ho]

/-- An exhausted reply counts at its core, and may set an event bit. -/
theorem exhReply_only (s : State) (k : Nat) (e : Bool) : { exhReply s k e with cores := s.cores, clus := s.clus } = s := by
  unfold exhReply
  dsimp only
  split_ifs <;> rfl

theorem queues_exhReply (s : State) (k : Nat) (e : Bool) (n : Nat) :
    (clu (exhReply s k e) n).rq = (clu s n).rq ∧ (clu (exhReply s k e) n).ring = (clu s n).ring := by
  unfold exhReply
  dsimp only
  split_ifs
  · rw [clu_evSet]
    split
    · next h => subst h; exact ⟨evView_rq .., evView_ring ..⟩
    · exact ⟨rfl, rfl⟩
  · exact ⟨rfl, rfl⟩
  · exact ⟨rfl, rfl⟩

/-- A reply to a core is counted there if it is exhausted. -/
def countReply (s : State) (o : Option Nat) (e : Bool) : State :=
  match o with
  | some k => exhReply s k e
  | none => s

theorem countReply_only (s : State) (o : Option Nat) (e : Bool) : { countReply s o e with cores := s.cores, clus := s.clus } = s := by
  cases o with
  | none => rfl
  | some k => exact exhReply_only s k e

@[simp] theorem countReply_ctxs (s : State) (o : Option Nat) (e : Bool) : (countReply s o e).ctxs = s.ctxs :=
  (congrArg State.ctxs (countReply_only s o e) :)
@[simp] theorem countReply_mem (s : State) (o : Option Nat) (e : Bool) : (countReply s o e).mem = s.mem :=
  (congrArg State.mem (countReply_only s o e) :)
@[simp] theorem countReply_comps (s : State) (o : Option Nat) (e : Bool) : (countReply s o e).comps = s.comps :=
  (congrArg State.comps (countReply_only s o e) :)

theorem queues_countReply (s : State) (o : Option Nat) (e : Bool) (n : Nat) :
    (clu (countReply s o e) n).rq = (clu s n).rq ∧ (clu (countReply s o e) n).ring = (clu s n).ring := by
  cases o with
  | none => exact ⟨rfl, rfl⟩
  | some k => exact queues_exhReply s k e n

/-- The last decrement, into a queue with room. -/
theorem joinDec_pushes {s : State} {cx d a n q : Nat} {f : Word} {r : Rec} (ha : frameHome s cx d f = a) (hr : rdRec s a = r) (hk : r.kind ≠ 3)
    (hj : r.join = 1) (hn : 16 * d + frClu f = n) (hi : swImage s cx n = none) (hq : (r.setJoin 0).qid % 4 = q)
    (hl : (rqOf (clu s n) q).length < 32) (hg : (ringOf (clu s n) q).cnt = 0) :
    rqOf (clu (joinDec s cx d f) n) q = rqOf (clu s n) q ++ [r.setJoin 0] ∧ (joinDec s cx d f).comps = s.comps ∧
      ∀ b, b < a ∨ a + 64 ≤ b → rdB (joinDec s cx d f) b = rdB s b := by
  subst ha hr hn hq
  have hclu : clu (wrRec s (frameHome s cx d f) ((rdRec s (frameHome s cx d f)).setJoin 0)) (16 * d + frClu f) = clu s (16 * d + frClu f) :=
    clu_congr (wrRec_clus ..) _
  rw [joinDec_last hk hj, pushHw_room _ _ ((swImage_congr (wrRec_ctxs ..) ..).trans hi) (by rw [hclu]; exact hg) (by rw [hclu]; exact hl)]
  refine ⟨by rw [clu_setClu_self, rqOf_pushedClu, if_pos rfl, hclu], by rw [setClu_comps, pushOrder_comps, wrRec_comps], fun b hb => ?_⟩
  exact (rdB_congr (pushOrder_mem ..) b).trans (rdB_wrRec_out s _ hb)

/-- A completion with a reply: the reply is written and the completion is gone before its frame is decremented. -/
theorem joinStep_done {s : State} {c : Comp} (h : s.comps.find? (fun x => x.id = c.id) = some c) (hd : c.what = .done)
    (hp : performed s c.deps = true) (hn : c.n ≠ 0) :
    joinStep s c.id = joinDec (countReply { wr s c.loc c.n c.v.toNat with comps := s.comps.filter (fun x => x.id ≠ c.id) } c.owner c.exh)
      c.ctx c.die c.frame := by
  unfold joinStep
  rw [h]
  dsimp only
  rw [if_pos ⟨hd, hp⟩, if_neg hn]
  cases c.owner <;> rfl

/-- R36: a join decrement that leaves its record in its slot. -/
theorem joinDec_req_lowers {s : State} {r : Req} {l : Nat} (t : Nat) (hr : findReq s r.id = some r) (hc : ∀ c ∈ s.comps, c.id ≠ r.id)
    (hk : r.kind = .amo) (hh : r.h = 17) (hp : canPerform s r = true) (hl : reqLoc s r = .ok l) (hd : ∀ a n f, r.dst ≠ .slot a n f)
    (he : errIn s l r.n = none) {a : Nat} (ha : frameHome s r.ctx (dieOf r.core) (frameCanon r.core r.addr) = a)
    (hj : (rdRec s a).kind = 3 ∨ 1 < (rdRec s a).join) :
    ∃ u, exec (.joinDec r.id t) s = .next u ∧ rdRec u a = (rdRec s a).setJoin ((rdRec s a).join - 1) ∧
      (∀ b, b < a ∨ a + 64 ≤ b → rdB u b = rdB s b) ∧ HasPerformed u r (rdRec s a).w2.toNat ∧ u.clus = s.clus := by
  subst ha
  have hx : (amoDone (amoApply s r l).1 r l) = softTouch (joinDec s r.ctx (dieOf r.core) (frameCanon r.core r.addr)) l r.n := by
    rw [amoApply_join l hh, amoDone, if_pos (Or.inr hh)]
  rw [joinDec_stays hj] at hx
  refine ⟨_, by rw [exec_joinDec_req t hc, performAs_of t hr hk (fun _ => hh) hp, performReq_amo t hk (by omega) hl he, hx, amoApply_join l hh], ?_⟩
  generalize (rdRec s (frameHome s r.ctx (dieOf r.core) (frameCanon r.core r.addr))) = q
  generalize frameHome s r.ctx (dieOf r.core) (frameCanon r.core r.addr) = a
  have hmem : ∀ res, (served (softTouch (wrRec s a (q.setJoin (q.join - 1))) l r.n) r l t res).mem = (wrRec s a (q.setJoin (q.join - 1))).mem :=
    fun res => by rw [served_mem, softTouch_mem]
  have hreqs : findReq (softTouch (wrRec s a (q.setJoin (q.join - 1))) l r.n) r.id = some r := by
    rw [findReq, softTouch_reqs, wrRec_reqs]
    exact hr
  refine ⟨?_, fun b hb => ?_, hasPerformed_served l t _ hreqs hd, ?_⟩
  · exact (rdRec_congr fun b _ _ => rdB_congr (hmem _) b).trans (rdRec_wrRec ..)
  · exact (rdB_congr (hmem _) b).trans (rdB_wrRec_out s _ hb)
  · rw [served_clus l t _ hd, softTouch_clus, wrRec_clus]

/-- R36: a completion writes its reply, and its decrement, the last, sends the record to its queue. -/
theorem joinDec_comp_pushes {s : State} {c : Comp} (t : Nat) (hc : s.comps.find? (fun x => x.id = c.id) = some c) (hw : c.what = .done)
    (hp : performed s c.deps = true) (hn : c.n ≠ 0) {a n q : Nat} {r : Rec} (ha : frameHome s c.ctx c.die c.frame = a) (hr : rdRec s a = r)
    (hloc : c.loc + c.n ≤ a ∨ a + 66 ≤ c.loc) (hk : r.kind ≠ 3) (hj : r.join = 1) (hcl : 16 * c.die + frClu c.frame = n)
    (hi : swImage s c.ctx n = none) (hq : (r.setJoin 0).qid % 4 = q) (hl : (rqOf (clu s n) q).length < 32) (hg : (ringOf (clu s n) q).cnt = 0) :
    ∃ u, exec (.joinDec c.id t) s = .next u ∧ rd u c.loc c.n = c.v.toNat % 256 ^ c.n ∧
      rqOf (clu u n) q = rqOf (clu s n) q ++ [r.setJoin 0] ∧ ∀ x ∈ u.comps, x ∈ s.comps ∧ x.id ≠ c.id := by
  have hstep := joinStep_done hc hw hp hn
  generalize hv : ({ wr s c.loc c.n c.v.toNat with comps := s.comps.filter (fun x => x.id ≠ c.id) } : State) = v at hstep
  have hmem : (countReply v c.owner c.exh).mem = (wr s c.loc c.n c.v.toNat).mem := by rw [countReply_mem, ← hv]
  have hctx : (countReply v c.owner c.exh).ctxs = s.ctxs := by rw [countReply_ctxs, ← hv]; rfl
  have hcomps : (countReply v c.owner c.exh).comps = s.comps.filter (fun x => x.id ≠ c.id) := by rw [countReply_comps, ← hv]
  obtain ⟨hrq, hring⟩ : (clu (countReply v c.owner c.exh) n).rq = (clu s n).rq ∧ (clu (countReply v c.owner c.exh) n).ring = (clu s n).ring := by
    have h := queues_countReply v c.owner c.exh n
    rwa [show clu v n = clu s n by rw [← hv]; rfl] at h
  generalize countReply v c.owner c.exh = w at hstep hmem hctx hcomps hrq hring
  have hrec : rdRec w a = r := by
    rw [← hr]
    exact rdRec_congr fun b h1 h2 => (rdB_congr hmem b).trans (rdB_wr_out s (by omega))
  have hqs : rqOf (clu w n) q = rqOf (clu s n) q := congrArg (tget [] · q) hrq
  obtain ⟨hpush, hcs, hout⟩ := joinDec_pushes ((frameHome_congr hctx ..).trans ha) hrec hk hj hcl ((swImage_congr hctx ..).trans hi) hq
    (by rw [hqs]; exact hl) (by rw [ringOf, hring]; exact hg)
  refine ⟨_, (exec_joinDec_comp t hc).trans (congrArg _ hstep), ?_, hpush.trans (by rw [hqs]), fun x hx => ?_⟩
  · rw [← rd_wr_self s c.loc c.n c.v.toNat]
    exact rd_congr fun b h1 h2 => (hout b (by omega)).trans (rdB_congr hmem b)
  · rw [hcs, hcomps] at hx
    simpa using hx

/-- R191: an event post to a cluster of its context. -/
theorem eventPost_sets {s : State} {r : Req} (t : Nat) (hr : findReq s r.id = some r) (hk : r.kind = .amo) (hh : r.h = 27)
    (hp : canPerform s r = true) (hd : ∀ a n f, r.dst ≠ .slot a n f) {n : Nat} (hn : postClu r.core r.addr = n)
    (ho : clusterOwned s r.ctx n = true) (hc : (clu s n).evCcy ≤ s.ccy) :
    ∃ u, exec (.eventPost r.id t) s = .next u ∧ HasPerformed u r 0 ∧ u.mem = s.mem ∧
      (∀ w, w < 8 → evWord { u with ccy := s.ccy + 1 } n w =
        (evWord { s with ccy := s.ccy + 1 } n w ||| if w = fld r.op 32 3 then BitVec.ofNat 32 r.op.toNat else 0)) ∧
      ∀ m, m ≠ n → clu u m = clu s m := by
  subst hn
  refine ⟨served (evSet s (postClu r.core r.addr) (fld r.op 32 3) (BitVec.ofNat 32 r.op.toNat)) r (evLoc 0) t (BitVec.ofNat 1024 0),
    by rw [exec_eventPost, performAs_of t hr hk (fun _ => hh) hp, performReq_event t hk hh, amoApply_event 0 hh ho], ?_, ?_, ?_, ?_⟩
  · exact hasPerformed_served _ t 0 hr hd
  · rw [served_mem, evSet_mem]
  · intro w hw
    rw [← evWord_evSet _ hc hw]
    exact evWord_congr (served_clus _ t _ hd) ..
  · intro m hm
    rw [← clu_evSet_ne s _ hm]
    exact clu_congr (served_clus _ t _ hd) m

end Sys2Proof.Machine

open Sys2Proof hiding core
open Sys2Proof.Machine

/-- Settles O34: a decrement above one, or of a waiting task, changes JOIN alone; one to zero pushes the record; a post sets its bits in the changes of
the present ccy, which the next ccy sees. -/
theorem joinAndEventPosts : Obligations.JoinAndEventPosts := by
  refine ⟨?_, ?_, ?_⟩
  · intro s r l t hr hc hk hh hp hl hd he a q hj
    exact joinDec_req_lowers t hr hc hk hh hp hl hd he rfl hj
  · intro s c t hc hw hp hn a hloc hk hj hi n q hl hg
    exact joinDec_comp_pushes t hc hw hp hn rfl rfl hloc hk hj rfl hi rfl hl hg
  · intro s r t hr hk hh hp hd n ho hc
    exact eventPost_sets t hr hk hh hp hd rfl ho hc

end

section
/-! PROOFS. The ends of tasks: `exit` and `cont` commit with their control effect alone, which writes the record's slot. -/
namespace Sys2Proof.Machine

/-! ## Live records of launches (R50, R363) -/

theorem onRecs_hub_only (s : State) (tag : BitVec 16) (cx : Nat) (f : List (Nat × Word) → List (Nat × Word)) :
    { onRecs s tag cx f with hub := s.hub } = s := by
  unfold onRecs
  split <;> rfl

theorem onRecs_launches (s : State) (tag : BitVec 16) (cx : Nat) (f : List (Nat × Word) → List (Nat × Word)) :
    (onRecs s tag cx f).hub.launches = s.hub.launches.map (fun l => if l.tag = tag then { l with recs := f l.recs } else l) := by
  unfold onRecs
  split
  · rfl
  · next h =>
    have hne : ∀ l ∈ s.hub.launches, l.tag ≠ tag := by simpa using h
    exact (List.map_id'' (fun _ => rfl) _).symm.trans (List.map_congr_left fun l hl => (if_neg (hne l hl)).symm)

/-- The orphans of a context lose the one that is taken from them, when no launch holds it. -/
theorem count_orphans_liveDel (s : State) (tag : BitVec 16) (cx n : Nat) (f : Word) :
    (liveDel s tag cx n f).hub.orphans.count (cx, n, f) =
      s.hub.orphans.count (cx, n, f) - if s.hub.launches.any (fun l => decide (l.tag = tag)) then 0 else 1 := by
  unfold liveDel onRecs
  split
  · rfl
  · have hsnd : ∀ l : List (Nat × Nat × Word), ((l.filter (fun e => decide (e.1 = cx))).map (·.2)).count (n, f) = l.count (cx, n, f) := by
      intro l
      induction l with
      | nil => rfl
      | cons e l ih =>
        obtain ⟨c, e⟩ := e
        by_cases hc : c = cx
        · subst hc; simp [List.count_cons, ih]
        · simp [hc, ih]
    have hother : (s.hub.orphans.filter (fun e => decide (e.1 ≠ cx))).count (cx, n, f) = 0 :=
      List.count_eq_zero.mpr fun h => by simpa using (List.mem_filter.mp h).2
    have hinj : Function.Injective (fun e : Nat × Word => (cx, e)) := fun _ _ h => (Prod.mk.inj h).2
    dsimp only
    rw [List.count_append, hother, Nat.zero_add, List.count_map_of_injective _ _ hinj, List.count_erase_self, hsnd]

/-! ## What the issue of an instruction leaves alone in its core -/

@[simp] theorem leave_ctx (slot occ : Nat) (c : Core) : (leave slot occ c).ctx = c.ctx := rfl
@[simp] theorem leave_trec (slot occ : Nat) (c : Core) : (leave slot occ c).trec = c.trec := rfl
@[simp] theorem leave_ltag (slot occ : Nat) (c : Core) : (leave slot occ c).ltag = c.ltag := rfl

/-! ## What a commit with a control effect comes to (R130, R131) -/

/-- The commit of an instruction whose only effect is on control. -/
theorem commit_control {s : State} {o : SlotOp} {slot occ : Nat} {ctl : Ctl} (hon : o.on (cur s) = true) (hs : o.slot = slot)
    (ho : o.occ s = occ) (he : o.eff s s = s) (hu : ∀ t, o.effu s t = (t, [])) (hl : ∀ t, o.late s t = t) (hc : o.ctl s = ctl)
    (hk : o.commits s = false) (ha : o.cost s = none) (hi : o.issued s = 0) :
    commit s [o] = bump (afterCommit (modCur (control (modCur s (leave slot occ)) (laterPreds s [o]) ctl) tick) (repOff s (cur s)) ctl) := by
  subst hs ho
  have e1 : effects s [o] s = s := by simp [effects, effectsGo, hon, he, hu, putScales]
  have e2 : lates s [o] s = s := by simp [lates, hl]
  have e3 : bundleOrder s [o] s = s := by simp [bundleOrder]
  have e4 : ctlOf s [o] = ctl := by cases ctl <;> simp [ctlOf, hon, hc]
  have e5 : issuedOf s [o] = 0 := by simp [issuedOf, hon, hi]
  have e6 : costOf s [o] = none := by simp [costOf, ha]
  have e7 := settle_same [o] ctl (p := s) (s := s) rfl rfl
  have e8 : modCur (setCur s (cur s)) = fun f => modCur s f := funext fun f => modCur_setCur ..
  simp only [commit, e1, e2, e3, e4, e5, e6, e7, e8, List.any_cons, List.any_nil, hon, hk, Bool.and_false, Bool.or_false, Bool.false_eq_true,
    if_false, occupy, List.foldl_cons, List.foldl_nil, Nat.add_zero]
  rfl

/-! ## Ends of tasks (R38, R41, R42, R154) -/

theorem seqPc_mwait (c : Core) : (seqPc c).mwait = c.mwait := (congrArg Core.mwait (seqPc_loopless c) :)

/-- Nothing that R136 asks for is undone by the issue of an instruction that occupies its slot for one ccy. -/
theorem quiet_after_issue {c : Core} (slot : Nat) (h : quiet c = true) : quiet (tick (seqPc (leave slot 1 c))) = true := by
  have hl : quiet (tick (seqPc (leave slot 1 c))) = quiet (tick (leave slot 1 c)) :=
    (congrArg (fun d : Core => quiet (tick d)) (seqPc_loopless (leave slot 1 c)) :)
  rw [hl]
  simp only [quiet, Bool.and_eq_true, Bool.not_eq_true', List.any_eq_false, List.isEmpty_iff] at h ⊢
  obtain ⟨⟨⟨hp, hland⟩, hb⟩, ho⟩ := h
  refine ⟨⟨⟨hp, hland⟩, fun b hbm => ?_⟩, fun j hj => ?_⟩
  · have hold := hb b hbm
    unfold Busy.holds at hold ⊢
    cases hbl : b.land with
    | none =>
      simp only [hbl, decide_eq_true_eq] at hold ⊢
      change ¬ c.wtime + 1 < b.wall
      omega
    | some l => simp [tick, leave, hland]
  · have hold := ho j hj
    simp only [occupied, tick, leave, decide_eq_true_eq, tget_tset] at hold ⊢
    split <;> omega

@[simp] theorem taskEnd_cur (s : State) (k : Nat) : (taskEnd s k).cur = s.cur := by
  unfold taskEnd
  split <;> rfl

@[simp] theorem taskEnd_clus (s : State) (k : Nat) : (taskEnd s k).clus = s.clus := by
  unfold taskEnd
  split <;> rfl

@[simp] theorem taskEnd_hub (s : State) (k : Nat) : (taskEnd s k).hub = s.hub := by
  unfold taskEnd
  split <;> rfl

theorem core_taskEnd_ne (s : State) {k j : Nat} (h : j ≠ k) : core (taskEnd s k) j = core s j := by
  unfold taskEnd
  split <;> exact core_modCore_ne _ _ h

/-- The end that a core takes once R136 holds: at once, or after the wait of its M slot. -/
theorem core_taskEnd_self {s : State} {k : Nat} (h : quiet (core s k) = true) :
    core (taskEnd s k) k = if (core s k).mwait = .none then coreFree (core s k) else { core s k with run := .ending } := by
  unfold taskEnd
  by_cases hm : (core s k).mwait = .none
  · rw [if_pos ⟨h, hm⟩, if_pos hm, core_modCore_self]
  · rw [if_neg fun hh => hm hh.2, if_neg hm, core_modCore_self]

/-- The core after the commit of an `exit` or a `cont`, with nothing but a wait of its M slot left. -/
theorem core_ended {u : State} {c : Core} (hc : cur u = leave 0 1 c) (hq : quiet c = true) :
    let e := core (taskEnd (modCur (modCur u seqPc) tick) u.cur) u.cur
    e.run = (if c.mwait = .none then .idle else .ending) ∧ (c.mwait = .none → e.lpc = [] ∧ e.lps = []) := by
  have hcore : core (modCur (modCur u seqPc) tick) u.cur = tick (seqPc (leave 0 1 c)) := by
    rw [← hc, modCur_modCur]
    exact cur_modCur u _
  have hm : (tick (seqPc (leave 0 1 c))).mwait = c.mwait := seqPc_mwait _
  rw [core_taskEnd_self (by rw [hcore]; exact quiet_after_issue 0 hq), hcore, hm]
  split
  · next h => exact ⟨rfl, fun _ => ⟨rfl, rfl⟩⟩
  · next h => exact ⟨rfl, fun hn => absurd hn h⟩

/-! ### `exit` -/

/-- A write of the first doubleword of a record in its slot. -/
theorem rdRec_wr_first (s : State) (a : Nat) (w : Word) : rdRec (wr s a 8 w.toNat) a = { rdRec s a with w0 := w } := by
  have h0 : BitVec.ofNat 64 (rd (wr s a 8 w.toNat) (a + 8 * 0) 8) = w := by
    rw [Nat.mul_zero, Nat.add_zero, rd_wr_self, show w.toNat % 256 ^ 8 = w.toNat from Nat.mod_eq_of_lt w.isLt, BitVec.ofNat_toNat, BitVec.setWidth_eq]
  have h : ∀ i, 0 < i → rd (wr s a 8 w.toNat) (a + 8 * i) 8 = rd s (a + 8 * i) 8 := fun i hi => rd_wr_out s (by omega)
  simp only [rdRec, h0, h _ (show 0 < 1 by omega), h _ (show 0 < 2 by omega), h _ (show 0 < 3 by omega), h _ (show 0 < 4 by omega),
    h _ (show 0 < 5 by omega), h _ (show 0 < 6 by omega), h _ (show 0 < 7 by omega)]

theorem kind_setKind (r : Rec) {k : Nat} (h : k < 256) : (r.setKind k).kind = k := by
  rw [Rec.kind, Rec.setKind, fld_setFld_same _ _ (by omega)]
  exact Nat.mod_eq_of_lt h

/-- What `exit` does at its commit: the exit event, KIND 4 in the slot, and one live record fewer. -/
theorem exitCommit_spec (s : State) (k : Nat) :
    let c := core s k
    let a := frameHome s c.ctx (dieOf k) c.trec.w1
    let n := homeClu k c.trec.w1
    let t := exitCommit s k true
    t.cores = s.cores ∧ t.cur = s.cur ∧ t.clus = (evSet s (cluOf k) c.trec.setw c.trec.setmask).clus ∧
      t.mem = (wr s a 8 ((rdRec s a).setKind 4).w0.toNat).mem ∧
      t.hub.launches = s.hub.launches.map (fun l => if l.tag = c.ltag then { l with recs := l.recs.erase (n, c.trec.w1) } else l) ∧
      t.hub.orphans.count (c.ctx, n, c.trec.w1) = s.hub.orphans.count (c.ctx, n, c.trec.w1) -
        (if s.hub.launches.any (fun l => decide (l.tag = c.ltag)) then 0 else 1) := by
  intro c a n t
  let u := wr (evSet s (cluOf k) c.trec.setw c.trec.setmask) a 8 ((rdRec s a).setKind 4).w0.toNat
  have ht : { t with hub := u.hub } = u := onRecs_hub_only u c.ltag c.ctx (fun l => l.erase (n, c.trec.w1))
  exact ⟨(congrArg State.cores ht :), (congrArg State.cur ht :), (congrArg State.clus ht :), (congrArg State.mem ht :),
    onRecs_launches u c.ltag c.ctx _, count_orphans_liveDel u c.ltag c.ctx n c.trec.w1⟩

theorem control_exit (s : State) (ds : List Nat) : control s ds .exit = modCur (exitCommit s s.cur true) seqPc := rfl
theorem control_cont (s : State) (ds : List Nat) (t : Word) : control s ds (.cont t) = modCur (contCommit s s.cur t) seqPc := rfl
theorem afterCommit_exit (s : State) (off : Word) : afterCommit s off .exit = taskEnd s s.cur := rfl
theorem afterCommit_cont (s : State) (off t : Word) : afterCommit s off (.cont t) = taskEnd s s.cur := rfl

theorem exec_exit {s : State} {g : BitVec 4} (hi : Issues s (opExit g)) (hg : guardOn (cur s) g = true) (hm : masked (cur s) 0 = false) :
    exec (.exit g) s = .next (bump (taskEnd (modCur (modCur (exitCommit (modCur s (leave 0 1)) s.cur true) seqPc) tick) s.cur)) := by
  have hon : (opExit g).on (cur s) = true := by simp [SlotOp.on, opExit, hg, hm]
  have hcur : (exitCommit (modCur s (leave 0 1)) s.cur true).cur = s.cur := (exitCommit_spec ..).2.1
  have hc := commit_control (slot := 0) (occ := 1) (ctl := .exit) hon rfl rfl rfl (fun _ => rfl) (fun _ => rfl) rfl rfl rfl rfl
  rw [control_exit, afterCommit_exit, modCur_cur, modCur_cur, modCur_cur, hcur] at hc
  exact (issue1_of_issues hi).trans (congrArg _ hc)

/-- The state once a task has left its core: the rest is as its commit left it. -/
theorem taskEnd_frame {s u : State} (hcores : u.cores = (modCur s (leave 0 1)).cores) (hcur : u.cur = s.cur) (hq : quiet (cur s) = true) :
    let t := bump (taskEnd (modCur (modCur u seqPc) tick) s.cur)
    t.mem = u.mem ∧ t.clus = u.clus ∧ t.hub = u.hub ∧ (cur t).run = (if (cur s).mwait = .none then .idle else .ending) ∧
      ((cur s).mwait = .none → (cur t).lpc = [] ∧ (cur t).lps = []) ∧ ∀ j, j ≠ s.cur → core t j = core s j := by
  intro t
  have hself : core (modCur s (leave 0 1)) s.cur = leave 0 1 (cur s) := cur_modCur s _
  obtain ⟨hrun, hlp⟩ := core_ended (u := u) (by rw [cur, hcur, core_congr hcores, hself]) hq
  have hct : cur t = core (taskEnd (modCur (modCur u seqPc) tick) s.cur) s.cur := by
    rw [cur_bump, cur, taskEnd_cur, modCur_cur, modCur_cur, hcur]
  rw [hcur, ← hct] at hrun hlp
  refine ⟨by simp [t], by simp [t], by simp [t], hrun, hlp, fun j hj => ?_⟩
  rw [core_bump, core_taskEnd_ne _ hj, modCur_modCur, core_modCur_ne u _ (by rw [hcur]; exact hj), core_congr hcores, core_modCur_ne s _ hj]

/-- R41, R154. -/
theorem exit_ends {s : State} {g : BitVec 4} (hi : Issues s (opExit g)) (hg : guardOn (cur s) g = true) (hm : masked (cur s) 0 = false)
    (hq : quiet (cur s) = true) {a n : Nat} (ha : frameHome s (cur s).ctx (dieOf s.cur) (cur s).trec.w1 = a)
    (hn : homeClu s.cur (cur s).trec.w1 = n) :
    ∃ t, exec (.exit g) s = .next t ∧ ((cur s).mwait = .none → (cur t).run = .idle ∧ (cur t).lpc = [] ∧ (cur t).lps = []) ∧
      ((cur s).mwait ≠ .none → (cur t).run = .ending) ∧ (rdRec t a).kind = 4 ∧
      fld (rdRec t a).w0 0 56 = fld (rdRec s a).w0 0 56 ∧ (∀ b, b < a ∨ a + 8 ≤ b → rdB t b = rdB s b) ∧
      ((clu s (cluOf s.cur)).evCcy ≤ s.ccy → evWord { t with ccy := s.ccy + 1 } (cluOf s.cur) (cur s).trec.setw =
        (evWord { s with ccy := s.ccy + 1 } (cluOf s.cur) (cur s).trec.setw ||| (cur s).trec.setmask)) ∧
      t.hub.launches = s.hub.launches.map (fun l => if l.tag = (cur s).ltag then { l with recs := l.recs.erase (n, (cur s).trec.w1) } else l) ∧
      t.hub.orphans.count ((cur s).ctx, n, (cur s).trec.w1) = s.hub.orphans.count ((cur s).ctx, n, (cur s).trec.w1) -
        (if s.hub.launches.any (fun l => decide (l.tag = (cur s).ltag)) then 0 else 1) ∧
      ∀ j, j ≠ s.cur → core t j = core s j := by
  have hself : core (modCur s (leave 0 1)) s.cur = leave 0 1 (cur s) := cur_modCur s _
  have hhome : frameHome (modCur s (leave 0 1)) (cur s).ctx (dieOf s.cur) (cur s).trec.w1 = a := (frameHome_congr rfl ..).trans ha
  have hrec : rdRec (modCur s (leave 0 1)) a = rdRec s a := rfl
  obtain ⟨hcores, hcur, hclus, hmem, hls, hos⟩ := exitCommit_spec (modCur s (leave 0 1)) s.cur
  simp only [hself, leave_ctx, leave_trec, leave_ltag, hhome, hn, hrec, modCur_cur] at hcur hclus hmem hls hos
  refine ⟨_, exec_exit hi hg hm, ?_⟩
  obtain ⟨htm, htc, hth, hrun, hlp, hcore⟩ := taskEnd_frame hcores hcur hq
  generalize exitCommit (modCur s (leave 0 1)) s.cur true = u at hclus hmem hls hos htm htc hth hrun hlp hcore ⊢
  generalize bump (taskEnd (modCur (modCur u seqPc) tick) s.cur) = t at htm htc hth hrun hlp hcore ⊢
  have hout : ∀ b, rdB t b = rdB (wr s a 8 ((rdRec s a).setKind 4).w0.toNat) b := fun b => rdB_congr (htm.trans hmem) b
  have hslot : rdRec t a = (rdRec s a).setKind 4 := (rdRec_congr fun b _ _ => hout b).trans (rdRec_wr_first s a _)
  rw [hrun, hslot, hth]
  refine ⟨fun h => ⟨if_pos h, hlp h⟩, fun h => if_neg h, kind_setKind _ (by omega), fld_setFld_apart _ _ (by omega),
    fun b hb => (hout b).trans (rdB_wr_out s hb), fun hev => ?_, hls, hos, hcore⟩
  have hnext := evWord_evSet (s := s) (n := cluOf s.cur) (v := (cur s).trec.setw) (w := (cur s).trec.setw) (cur s).trec.setmask hev (fld_lt _ _ _)
  rw [if_pos rfl] at hnext
  rw [← hnext]
  exact evWord_congr (htc.trans hclus) ..

/-! ### `cont` -/

/-- The record of a continuation at `pc`, with `j` completions owed. -/
def contRec (r : Rec) (pc : Nat) (j : Int) : Rec := (((r.setPc pc).setKind 1).setCommitted false).setJoin j

theorem qid_contRec (r : Rec) (pc : Nat) (j : Int) : (contRec r pc j).qid = r.qid := by
  simp only [Rec.qid, contRec, Rec.setJoin, Rec.setCommitted, Rec.setKind, Rec.setPc]
  rw [fld_setFld_apart _ _ (by omega), fld_setFld_apart _ _ (by omega), fld_setFld_apart _ _ (by omega)]

theorem contCommit_eq (s : State) (k : Nat) (t : Word) {a : Nat} {r : Rec} {j : Int} (ha : frameHome s (core s k).ctx (dieOf k) (core s k).trec.w1 = a)
    (hr : contRec (rdRec s a) (fld t 0 40) j = r) (hj : joinSum s k = j) :
    contCommit s k t = if j = 0 then pushHw (wrRec s a r) (core s k).ctx (homeClu k (core s k).trec.w1)
      (512 + frCore (dieOf k) (core s k).trec.w1) (core s k).ltag r else wrRec s a r := by
  subst ha hr hj
  rfl

/-- What `cont` does at its commit: the record in its slot and, with nothing owed, in its queue. -/
theorem contCommit_spec {s : State} {k : Nat} {t : Word} {a n q : Nat} {r : Rec} {j : Int}
    (ha : frameHome s (core s k).ctx (dieOf k) (core s k).trec.w1 = a) (hr : contRec (rdRec s a) (fld t 0 40) j = r)
    (hj : joinSum s k = j) (hn : homeClu k (core s k).trec.w1 = n) (hq : (rdRec s a).qid % 4 = q)
    (hroom : j = 0 → swImage s (core s k).ctx n = none ∧ (ringOf (clu s n) q).cnt = 0 ∧ (rqOf (clu s n) q).length < 32) :
    let u := contCommit s k t
    u.cores = s.cores ∧ u.cur = s.cur ∧ u.hub = s.hub ∧ u.mem = (wrRec s a r).mem ∧ (j ≠ 0 → u.clus = s.clus) ∧
      (j = 0 → rqOf (clu u n) q = rqOf (clu s n) q ++ [r] ∧ (∀ i, i ≠ q → rqOf (clu u n) i = rqOf (clu s n) i) ∧ ∀ m, m ≠ n → clu u m = clu s m) := by
  intro u
  have hu : u = _ := contCommit_eq s k t ha hr hj
  by_cases h0 : j = 0
  · obtain ⟨hi, hg, hl⟩ := hroom h0
    have hqr : r.qid % 4 = q := by rw [← hr, qid_contRec, hq]
    have hclu : clu (wrRec s a r) n = clu s n := clu_congr (wrRec_clus ..) n
    rw [if_pos h0, hn, pushHw_room _ _ ((swImage_congr (wrRec_ctxs s a r) ..).trans hi) (by rw [hqr, hclu]; exact hg) (by rw [hqr, hclu]; exact hl), hqr] at hu
    rw [hu]
    refine ⟨(pushOrder_cores _ n (by omega)).trans (wrRec_cores ..), by simp, by simp, by simp, fun h => absurd h0 h, fun _ => ⟨?_, fun i hiq => ?_, fun m hm => ?_⟩⟩
    · rw [clu_setClu_self, rqOf_pushedClu, if_pos rfl, hclu]
    · rw [clu_setClu_self, rqOf_pushedClu, if_neg hiq, hclu]
    · rw [clu_setClu, if_neg hm]
      exact clu_congr (by simp) m
  · rw [if_neg h0] at hu
    rw [hu]
    exact ⟨wrRec_cores .., wrRec_cur .., wrRec_hub .., rfl, fun _ => wrRec_clus .., fun h => absurd h h0⟩

theorem exec_cont {s : State} {o : BitVec 21} {g : BitVec 4} (hi : Issues s (opCont o g)) (hg : guardOn (cur s) g = true)
    (hm : masked (cur s) 0 = false) (hcur : (contCommit (modCur s (leave 0 1)) s.cur (pcOff s o.toInt)).cur = s.cur) :
    exec (.cont o g) s =
      .next (bump (taskEnd (modCur (modCur (contCommit (modCur s (leave 0 1)) s.cur (pcOff s o.toInt)) seqPc) tick) s.cur)) := by
  have hon : (opCont o g).on (cur s) = true := by simp [SlotOp.on, opCont, hg, hm]
  have hc := commit_control (slot := 0) (occ := 1) (ctl := .cont (pcOff s o.toInt)) hon rfl rfl rfl (fun _ => rfl) (fun _ => rfl) rfl rfl rfl rfl
  rw [control_cont, afterCommit_cont, modCur_cur, modCur_cur, modCur_cur, hcur] at hc
  exact (issue1_of_issues hi).trans (congrArg _ hc)

/-- An instruction that adds nothing to JOINCNT leaves the completions owed as they are. -/
theorem joinSum_leave (s : State) (slot occ : Nat) : joinSum (modCur s (leave slot occ)) s.cur = joinSum s s.cur := by
  have hself : core (modCur s (leave slot occ)) s.cur = leave slot occ (cur s) := cur_modCur s _
  have hcnt : fld (leave slot occ (cur s)).joincnt 0 16 = fld (cur s).joincnt 0 16 := by
    rw [leave, fld_setFld_same _ _ (by omega)]
    exact Nat.mod_eq_of_lt (fld_lt _ _ _)
  simp only [joinSum, hself, hcnt, leave_ctx, leave_trec]
  rfl

/-- R42, R154. -/
theorem cont_continues {s : State} {o : BitVec 21} {g : BitVec 4} (hi : Issues s (opCont o g)) (hg : guardOn (cur s) g = true)
    (hm : masked (cur s) 0 = false) (hq : quiet (cur s) = true) {a n q : Nat} {j : Int} {r : Rec}
    (ha : frameHome s (cur s).ctx (dieOf s.cur) (cur s).trec.w1 = a) (hn : homeClu s.cur (cur s).trec.w1 = n) (hqid : (rdRec s a).qid % 4 = q)
    (hj : joinSum s s.cur = j) (hr : contRec (rdRec s a) (fld (pcOff s o.toInt) 0 40) j = r)
    (hroom : j = 0 → swImage s (cur s).ctx n = none ∧ (ringOf (clu s n) q).cnt = 0 ∧ (rqOf (clu s n) q).length < 32) :
    ∃ t, exec (.cont o g) s = .next t ∧ (cur t).run = (if (cur s).mwait = .none then .idle else .ending) ∧ rdRec t a = r ∧
      (∀ b, b < a ∨ a + 64 ≤ b → rdB t b = rdB s b) ∧ (j ≠ 0 → t.clus = s.clus) ∧
      (j = 0 → rqOf (clu t n) q = rqOf (clu s n) q ++ [r] ∧ (∀ i, i ≠ q → rqOf (clu t n) i = rqOf (clu s n) i) ∧ ∀ m, m ≠ n → clu t m = clu s m) ∧
      t.hub = s.hub ∧ ∀ k, k ≠ s.cur → core t k = core s k := by
  have hself : core (modCur s (leave 0 1)) s.cur = leave 0 1 (cur s) := cur_modCur s _
  have hhome : frameHome (modCur s (leave 0 1)) (cur s).ctx (dieOf s.cur) (cur s).trec.w1 = a := (frameHome_congr rfl ..).trans ha
  obtain ⟨hcores, hcur, hhub, hmem, hstay, hpush⟩ := contCommit_spec (s := modCur s (leave 0 1)) (k := s.cur) (t := pcOff s o.toInt) (a := a) (n := n) (q := q)
    (r := r) (j := j) (by rw [hself]; exact hhome) hr ((joinSum_leave s 0 1).trans hj) (by rw [hself]; exact hn) hqid
    (fun h => by rw [hself]; exact hroom h)
  refine ⟨_, exec_cont hi hg hm hcur, ?_⟩
  obtain ⟨htm, htc, hth, hrun, -, hcore⟩ := taskEnd_frame hcores hcur hq
  generalize contCommit (modCur s (leave 0 1)) s.cur (pcOff s o.toInt) = u at hhub hmem hstay hpush htm htc hth hrun hcore ⊢
  generalize bump (taskEnd (modCur (modCur u seqPc) tick) s.cur) = t at htm htc hth hrun hcore ⊢
  have hclu : ∀ m, clu t m = clu u m := clu_congr htc
  refine ⟨hrun, ?_, fun b hb => ?_, fun h => htc.trans (hstay h), fun h => ?_, hth.trans hhub, hcore⟩
  · exact (rdRec_congr fun b _ _ => rdB_congr (htm.trans hmem) b).trans (rdRec_wrRec ..)
  · exact (rdB_congr (htm.trans hmem) b).trans (rdB_wrRec_out _ r hb)
  · simp only [hclu]
    exact hpush h

end Sys2Proof.Machine

open Sys2Proof hiding core
open Sys2Proof.Machine

/-- Settles O20: both commit with their control effect alone, which writes the record's slot, and the core is freed once only a wait of its M
slot is left. -/
theorem taskEnds : Obligations.TaskEnds := by
  refine ⟨?_, ?_⟩
  · intro s g hi hg hm hq c a n
    exact exit_ends hi hg hm hq rfl rfl
  · intro s o g hi hg hm hq c a r n q now hroom
    have hpc : pcOff s o.toInt = BitVec.ofInt 64 (c.pc.toNat + o.toInt * 32) := by
      rw [BitVec.ofInt_add, BitVec.ofInt_natCast, BitVec.ofNat_toNat, BitVec.setWidth_eq]
      rfl
    obtain ⟨t, he, hrun, hrec, hrest⟩ := cont_continues hi hg hm hq (a := a) (n := n) (q := q) rfl rfl rfl rfl rfl hroom
    rw [hpc] at hrec hrest
    exact ⟨t, he, hrun, hrec, by rw [hrec]; exact hrest⟩

end

section
/-! PROOFS. What a task posts: the commit of an instruction that sets COMMITTED, the read that comes before it, records that become live, and tile words. -/
namespace Sys2Proof.Machine

/-! ## Commits that set COMMITTED (R130, R131, R173) -/

theorem modCur_wr (s : State) (a n v : Nat) (f : Core → Core) : modCur (wr s a n v) f = wr (modCur s f) a n v := rfl

/-- The order of a bundle's requests touches these, and of the current core what it has pending and its programs. -/
theorem bundleOrder_only (pre : State) (ops : List SlotOp) (s : State) :
    { bundleOrder pre ops s with reqs := s.reqs, comps := s.comps, cores := s.cores } = s := by
  unfold bundleOrder
  split <;> rfl

@[simp] theorem bundleOrder_clus (pre : State) (ops : List SlotOp) (s : State) : (bundleOrder pre ops s).clus = s.clus :=
  (congrArg State.clus (bundleOrder_only pre ops s) :)
@[simp] theorem bundleOrder_ctxs (pre : State) (ops : List SlotOp) (s : State) : (bundleOrder pre ops s).ctxs = s.ctxs :=
  (congrArg State.ctxs (bundleOrder_only pre ops s) :)
@[simp] theorem bundleOrder_tiles (pre : State) (ops : List SlotOp) (s : State) : (bundleOrder pre ops s).tiles = s.tiles :=
  (congrArg State.tiles (bundleOrder_only pre ops s) :)
@[simp] theorem bundleOrder_hub (pre : State) (ops : List SlotOp) (s : State) : (bundleOrder pre ops s).hub = s.hub :=
  (congrArg State.hub (bundleOrder_only pre ops s) :)
@[simp] theorem bundleOrder_cur (pre : State) (ops : List SlotOp) (s : State) : (bundleOrder pre ops s).cur = s.cur :=
  (congrArg State.cur (bundleOrder_only pre ops s) :)

theorem core_bundleOrder_ne (pre : State) (ops : List SlotOp) {s : State} {k : Nat} (h : k ≠ s.cur) : core (bundleOrder pre ops s) k = core s k := by
  unfold bundleOrder
  split
  · rfl
  · exact core_modCur_ne _ _ h

theorem cur_bundleOrder (pre : State) (ops : List SlotOp) (s : State) :
    { cur (bundleOrder pre ops s) with pend := (cur s).pend, ch := (cur s).ch } = cur s := by
  unfold bundleOrder
  split
  · rfl
  · rw [cur_modCur]
    rfl

/-- The current core issues the instruction, which adds n completions to those owed. -/
def issuedM (pre : State) (o : SlotOp) (n : Nat) (c : Core) : Core :=
  let c := occupy pre [o] (settleWaits (cur pre) (laterPreds pre [o]) true c)
  { c with
    joincnt := setFld c.joincnt 0 16 (fld c.joincnt 0 16 + n), emuMask := if c.emuAct then c.emuMask else 0, skipBk := false
    prd := none, probed := 0 }

/-- The record that a core holds says that its task has committed. -/
def markRec (c : Core) : Core := { c with trec := c.trec.setCommitted true }

/-- The core once the instruction has set COMMITTED and its ccy has ended. -/
def committedM (pre : State) (o : SlotOp) (n : Nat) (c : Core) : Core := tick (seqPc (markRec (issuedM pre o n c)))

/-- The step to the next bundle touches the PC and the loops. -/
theorem seqPc_fields (c : Core) : (seqPc c).x = c.x ∧ (seqPc c).trec = c.trec ∧ (seqPc c).joincnt = c.joincnt ∧ (seqPc c).mwait = c.mwait := by
  have h := seqPc_loopless c
  generalize seqPc c = d at h
  exact ⟨(congrArg Core.x h :), (congrArg Core.trec h :), (congrArg Core.joincnt h :), (congrArg Core.mwait h :)⟩

/-- A wait without a predicate stands as the instruction has begun it. -/
theorem settleWaits_mwait (p : Core) (ds : List Nat) (q : Bool) {c : Core} (h : waitPd c.mwait = 0) : (settleWaits p ds q c).mwait = c.mwait := by
  have hp : waitPd (if p.mwait = .none then c.mwait else .none) = 0 := by
    split
    · exact h
    · rfl
  simp [settleWaits, hp, stageOver]

theorem issuedM_fields (pre : State) (o : SlotOp) (n : Nat) (c : Core) : (issuedM pre o n c).x = c.x ∧ (issuedM pre o n c).trec = c.trec ∧
    (issuedM pre o n c).ctx = c.ctx ∧ (issuedM pre o n c).joincnt = setFld c.joincnt 0 16 (fld c.joincnt 0 16 + n) ∧
    (waitPd c.mwait = 0 → (issuedM pre o n c).mwait = c.mwait) := by
  have hs : { settleWaits (cur pre) (laterPreds pre [o]) true c with wait := c.wait, mwait := c.mwait } = c := rfl
  have hw := settleWaits_mwait (cur pre) (laterPreds pre [o]) true (c := c)
  unfold issuedM
  generalize settleWaits (cur pre) (laterPreds pre [o]) true c = d at hs hw ⊢
  have hj : d.joincnt = c.joincnt := (congrArg Core.joincnt hs :)
  rw [← hj]
  exact ⟨(congrArg Core.x hs :), (congrArg Core.trec hs :), (congrArg Core.ctx hs :), rfl, hw⟩

theorem committedM_fields (pre : State) (o : SlotOp) (n : Nat) (c : Core) :
    (committedM pre o n c).x = c.x ∧ (committedM pre o n c).trec = c.trec.setCommitted true ∧
      fld (committedM pre o n c).joincnt 0 16 = (fld c.joincnt 0 16 + n) % 2 ^ 16 ∧
      (waitPd c.mwait = 0 → (committedM pre o n c).mwait = c.mwait) := by
  obtain ⟨ix, itrec, -, ijoin, iwait⟩ := issuedM_fields pre o n c
  unfold committedM
  generalize issuedM pre o n c = d at ix itrec ijoin iwait ⊢
  obtain ⟨hx, htrec, hjoin, hwait⟩ := seqPc_fields (markRec d)
  refine ⟨hx.trans ix, htrec.trans (congrArg (Rec.setCommitted · true) itrec), ?_, fun h => hwait.trans (iwait h)⟩
  exact (congrArg (fld · 0 16) (hjoin.trans ijoin)).trans (fld_setFld_same _ _ (by omega))

/-- The record that the current core holds, and its slot at a, say that the task has committed. -/
theorem setCommitted_cur {s : State} {k a : Nat} (hk : s.cur = k) (ha : frameHome s (cur s).ctx (dieOf k) (cur s).trec.w1 = a) :
    setCommitted s k = wr (modCur s markRec) a 8 (setFld (BitVec.ofNat 64 (rd s a 8)) 41 1 1).toNat := by
  subst hk ha
  rfl

/-- An instruction without waits of its own that sets COMMITTED, adds n to the completions owed, and has effects that lead to w. -/
structure Marks (s : State) (o : SlotOp) (w : State) (n : Nat) : Prop where
  on : o.on (cur s) = true
  eff : o.eff s s = w
  effu : ∀ t, o.effu s t = (t, [])
  late : ∀ t, o.late s t = t
  ctl : o.ctl s = .seq
  commits : o.commits s = true
  cost : o.cost s = none
  issued : o.issued s = n
  sameCur : w.cur = s.cur
  sameCtxs : w.ctxs = s.ctxs
  sameCtx : (cur w).ctx = (cur s).ctx
  sameRec : (cur w).trec = (cur s).trec

theorem commit_marks {s w : State} {o : SlotOp} {n a : Nat} (h : Marks s o w n)
    (ha : frameHome s (cur s).ctx (dieOf s.cur) (cur s).trec.w1 = a) :
    commit s [o] = bump (wr (modCur (bundleOrder s [o] w) (committedM s o n)) a 8 (setFld (BitVec.ofNat 64 (rd w a 8)) 41 1 1).toNat) := by
  obtain ⟨hon, he, hu, hl, hc, hk, hct, hi, hcur, hctxs, hctx, htrec⟩ := h
  have e1 : effects s [o] s = w := by simp [effects, effectsGo, hon, he, hu, putScales]
  have e2 : lates s [o] w = w := by simp [lates, hl]
  have e4 : ctlOf s [o] = .seq := by simp [ctlOf, hon, hc]
  have e5 : issuedOf s [o] = n := by simp [issuedOf, hon, hi]
  have e6 : costOf s [o] = none := by simp [costOf, hct]
  have hany : [o].any (fun o => o.on (cur s) && o.commits s) = true := by simp [hon, hk]
  have hissued : ∀ f : Core → Core, (fun c => f (settleWaits (cur s) (laterPreds s [o]) true c)) = issuedM s o n →
      modCur (settle s [o] .seq (bundleOrder s [o] w)) f = modCur (bundleOrder s [o] w) (issuedM s o n) := fun f hf => by
    rw [← hf]
    exact modCur_modCur ..
  have hmark : setCommitted (modCur (bundleOrder s [o] w) (issuedM s o n)) s.cur =
      wr (modCur (modCur (bundleOrder s [o] w) (issuedM s o n)) markRec) a 8 (setFld (BitVec.ofNat 64 (rd w a 8)) 41 1 1).toNat := by
    obtain ⟨-, itrec, ictx, -, -⟩ := issuedM_fields s o n (cur (bundleOrder s [o] w))
    have hold := cur_bundleOrder s [o] w
    have hrd : rd (modCur (bundleOrder s [o] w) (issuedM s o n)) a 8 = rd w a 8 := rd_congr fun b _ _ => rdB_congr (by simp) b
    rw [setCommitted_cur (a := a) (by simp [hcur]), hrd]
    rw [cur_modCur, ictx, itrec, show (cur (bundleOrder s [o] w)).ctx = _ from (congrArg Core.ctx hold :),
      show (cur (bundleOrder s [o] w)).trec = _ from (congrArg Core.trec hold :), hctx, htrec]
    exact (frameHome_congr ((bundleOrder_ctxs ..).trans hctxs) ..).trans ha
  simp only [commit, e1, e2, e4, e5, e6]
  rw [if_pos hany, hissued _ rfl, hmark]
  have hrest : modCur (modCur (wr (modCur (modCur (bundleOrder s [o] w) (issuedM s o n)) markRec) a 8
      (setFld (BitVec.ofNat 64 (rd w a 8)) 41 1 1).toNat) seqPc) tick =
      wr (modCur (bundleOrder s [o] w) (committedM s o n)) a 8 (setFld (BitVec.ofNat 64 (rd w a 8)) 41 1 1).toNat := by
    rw [modCur_wr, modCur_wr, modCur_modCur, modCur_modCur, modCur_modCur]
    rfl
  exact congrArg bump hrest

theorem committed_setCommitted (r : Rec) : (r.setCommitted true).committed = true := by
  rw [Rec.committed, Rec.setCommitted, bit]
  exact (getLsbD_setFld_in r.w0 (b2n true) (show 0 < 1 by omega) (by omega)).trans (by decide)

/-- What that commit leaves of the state it is made in. -/
theorem marked_frame (s w : State) (o : SlotOp) (n a v : Nat) :
    let t := bump (wr (modCur (bundleOrder s [o] w) (committedM s o n)) a 8 v)
    t.mem = (wr w a 8 v).mem ∧ t.clus = w.clus ∧ t.hub = w.hub ∧ t.tiles = w.tiles ∧ (∀ k, k ≠ w.cur → core t k = core w k) ∧
      (cur t).x = (cur w).x ∧ (cur t).trec = (cur w).trec.setCommitted true ∧
      fld (cur t).joincnt 0 16 = (fld (cur w).joincnt 0 16 + n) % 2 ^ 16 ∧ (waitPd (cur w).mwait = 0 → (cur t).mwait = (cur w).mwait) := by
  intro t
  have hcur : cur t = committedM s o n (cur (bundleOrder s [o] w)) := by
    rw [cur_bump, cur_wr, cur_modCur]
  have hold := cur_bundleOrder s [o] w
  have hx : (cur (bundleOrder s [o] w)).x = (cur w).x := (congrArg Core.x hold :)
  have htrec : (cur (bundleOrder s [o] w)).trec = (cur w).trec := (congrArg Core.trec hold :)
  have hjoin : (cur (bundleOrder s [o] w)).joincnt = (cur w).joincnt := (congrArg Core.joincnt hold :)
  have hwait : (cur (bundleOrder s [o] w)).mwait = (cur w).mwait := (congrArg Core.mwait hold :)
  obtain ⟨cx, ctrec, cjoin, cwait⟩ := committedM_fields s o n (cur (bundleOrder s [o] w))
  rw [hx] at cx
  rw [htrec] at ctrec
  rw [hjoin] at cjoin
  rw [hwait] at cwait
  rw [hcur]
  refine ⟨by simp [t, wr], by simp [t], by simp [t], by simp [t], fun k hk => ?_, cx, ctrec, cjoin, cwait⟩
  rw [core_bump, core_wr, core_modCur_ne _ _ (by rw [bundleOrder_cur]; exact hk), core_bundleOrder_ne _ _ hk]

/-- Such an instruction that issues: what the step leaves. -/
theorem issue1_marks {s w : State} {o : SlotOp} {n a : Nat} (hi : Issues s o) (h : Marks s o w n)
    (ha : frameHome s (cur s).ctx (dieOf s.cur) (cur s).trec.w1 = a) :
    ∃ t, issue1 o s = .next t ∧ (∀ b, b < a ∨ a + 8 ≤ b → rdB t b = rdB w b) ∧ t.clus = w.clus ∧ t.hub = w.hub ∧ t.tiles = w.tiles ∧
      (∀ k, k ≠ w.cur → core t k = core w k) ∧ (cur t).x = (cur w).x ∧ (cur t).trec.committed = true ∧
      fld (cur t).joincnt 0 16 = (fld (cur w).joincnt 0 16 + n) % 2 ^ 16 ∧ (waitPd (cur w).mwait = 0 → (cur t).mwait = (cur w).mwait) := by
  refine ⟨_, (issue1_of_issues hi).trans (congrArg _ (commit_marks h ha)), ?_⟩
  obtain ⟨tmem, tclus, thub, ttiles, tcores, tx, ttrec, tjoin, twait⟩ := marked_frame s w o n a (setFld (BitVec.ofNat 64 (rd w a 8)) 41 1 1).toNat
  refine ⟨fun b hb => (rdB_congr tmem b).trans (rdB_wr_out w hb), tclus, thub, ttiles, tcores, tx, ?_, tjoin, twait⟩
  rw [ttrec]
  exact committed_setCommitted _

/-! ## What a task posts is read before it issues (R199, R202) -/

/-- The bytes that an instruction of slot M takes at step 4: those of the core's own scratchpad, or those of the reply. -/
def Fetched (s : State) (a : Word) (n v : Nat) : Prop :=
  (∃ l, (spc a = 1 ∧ chk s a n n false = .ok (.loc l)) ∧ v = rd s l n) ∨
    spc a ≠ 1 ∧ (∃ w, chk s a n n false = .ok w) ∧ ∃ p d, (cur s).prd = some (p, some (.data d)) ∧ v = d.toNat % 2 ^ (8 * n)

theorem postRead_fetched {s : State} {a : Word} {n v : Nat} (h : Fetched s a n v) (he : ∀ f, postRead s a n ≠ .error f) :
    postRead s a n = .ok (some v) := by
  rcases h with ⟨l, ⟨ha, hc⟩, rfl⟩ | ⟨ha, ⟨w, hc⟩, p, d, hp, rfl⟩
  · have hr : postRead s a n = (postData s l n).map some := by simp [postRead, hc, ha]
    cases hd : postData s l n with
    | error f => exact absurd (hr.trans (by rw [hd]; rfl)) (he f)
    | ok v =>
      rw [hr, hd]
      unfold postData at hd
      split at hd
      · cases hd
      · cases hd; rfl
  · unfold postRead
    rw [hc, hp]
    dsimp only
    split
    · next h1 _ => exact absurd ‹_› ha
    · rfl

theorem check_of_issues {s : State} {o : SlotOp} (h : Issues s o) (hon : o.on (cur s) = true) : o.check s (o.issued s) = none := by
  obtain ⟨-, -, -, -, hpass, -⟩ := h
  obtain ⟨-, -, -, hc, -⟩ := hpass hon
  exact hc

/-! ### The access to the own scratchpad (R302) -/

theorem postTouch_only (pre : State) (a : Word) (n : Nat) (s : State) : { postTouch pre a n s with tiles := s.tiles } = s := by
  unfold postTouch
  split
  · exact softTouch_only ..
  · rfl

theorem softTouch_tiles (s : State) (l n : Nat) :
    (softTouch s l n).tiles = s.tiles.map (fun t => if stageHit s l n t then { t with spoilt := true } else t) := by
  unfold softTouch
  split
  · next h => rw [List.isEmpty_iff.mp h]; rfl
  · rfl

/-- An access leaves each word, or leaves it spoilt. -/
theorem postTouch_tiles (pre : State) (a : Word) (n : Nat) (s : State) : (postTouch pre a n s).tiles.length = s.tiles.length ∧
    ∀ (i : Nat) (x : TileW), s.tiles[i]? = some x → (postTouch pre a n s).tiles[i]? = some x ∨
      (postTouch pre a n s).tiles[i]? = some { x with spoilt := true } := by
  unfold postTouch
  split
  · rw [softTouch_tiles]
    refine ⟨List.length_map .., fun i x hx => ?_⟩
    rw [List.getElem?_map, hx, Option.map_some]
    split
    · exact Or.inr rfl
    · exact Or.inl rfl
  · exact ⟨rfl, fun i x hx => Or.inl hx⟩

/-! ## A record becomes live (R26, R29, R37, R50) -/

/-- A record in the slot at a, with the header that its push writes. -/
def framed (s : State) (a : Nat) (tag : BitVec 16) (cx : Nat) (r : Rec) : State := frameHdr (wrRec s a r) a tag cx

theorem framed_only (s : State) (a : Nat) (tag : BitVec 16) (cx : Nat) (r : Rec) : { framed s a tag cx r with mem := s.mem } = s := by
  have h := wrRec_mem_only s a r
  rw [framed]
  generalize wrRec s a r = u at h
  exact h

theorem rdB_frameHdr_out (s : State) {a b : Nat} (tag : BitVec 16) (cx : Nat) (h : b < a + 64 ∨ a + 67 ≤ b) :
    rdB (frameHdr s a tag cx) b = rdB s b := by
  rw [frameHdr, rdB_wr_out _ (by omega), rdB_wr_out _ (by omega)]

theorem rdB_framed_out (s : State) {a b : Nat} (tag : BitVec 16) (cx : Nat) (r : Rec) (h : b < a ∨ a + 67 ≤ b) :
    rdB (framed s a tag cx r) b = rdB s b :=
  (rdB_frameHdr_out _ tag cx (by omega)).trans (rdB_wrRec_out s r (by omega))

theorem rdRec_framed (s : State) (a : Nat) (tag : BitVec 16) (cx : Nat) (r : Rec) : rdRec (framed s a tag cx r) a = r :=
  (rdRec_congr fun _ _ _ => rdB_frameHdr_out _ tag cx (by omega)).trans (rdRec_wrRec s a r)

theorem rd_framed_tag (s : State) (a : Nat) (tag : BitVec 16) (cx : Nat) (r : Rec) : rd (framed s a tag cx r) (a + 64) 2 = tag.toNat := by
  rw [framed, frameHdr, rd_wr_out _ (by omega), rd_wr_self]
  exact Nat.mod_eq_of_lt tag.isLt

theorem rd_framed_ctx (s : State) (a : Nat) (tag : BitVec 16) (cx : Nat) (r : Rec) : rd (framed s a tag cx r) (a + 66) 1 = cx % 256 :=
  rd_wr_self ..

/-- A record that is not live yet: its slot, its header, and one more live record. -/
theorem liveRec_new {s : State} {cx d : Nat} {tag : BitVec 16} {r : Rec} (h : (cx, 16 * d + frClu r.w1, r.w1) ∉ liveAll s) :
    liveRec s cx d tag r =
      liveAdd (framed s (frameHome s cx d r.w1) tag cx r) tag cx (16 * d + frClu r.w1) r.w1 := by
  have hl : (liveAll s).contains (cx, 16 * d + frClu r.w1, r.w1) = false := by simpa using h
  simp only [liveRec, hl, Bool.false_and, Bool.false_eq_true, if_false, framed]

/-- What that leaves: memory outside the slot and its header, and all of the state but memory and the hub. -/
theorem liveRec_new_spec {s : State} {cx d a n : Nat} (tag : BitVec 16) {r : Rec} (ha : frameHome s cx d r.w1 = a) (hn : 16 * d + frClu r.w1 = n)
    (h : (cx, n, r.w1) ∉ liveAll s) :
    let t := liveRec s cx d tag r
    { t with mem := s.mem, hub := s.hub } = s ∧ rdRec t a = r ∧ rd t (a + 64) 2 = tag.toNat ∧ rd t (a + 66) 1 = cx % 256 ∧
      (∀ b, b < a ∨ a + 67 ≤ b → rdB t b = rdB s b) ∧
      t.hub.launches = s.hub.launches.map (fun l => if l.tag = tag then { l with recs := l.recs ++ [(n, r.w1)] } else l) := by
  intro t
  have ht : t = onRecs (framed s a tag cx r) tag cx (fun l => l ++ [(n, r.w1)]) := by
    subst ha hn
    exact liveRec_new h
  rw [ht]
  have hf := framed_only s a tag cx r
  have hhub : (framed s a tag cx r).hub = s.hub := (congrArg State.hub hf :)
  have hrec := rdRec_framed s a tag cx r
  have htag := rd_framed_tag s a tag cx r
  have hctx := rd_framed_ctx s a tag cx r
  have hout := fun b => rdB_framed_out s (a := a) (b := b) tag cx r
  generalize framed s a tag cx r = u at hf hhub hrec htag hctx hout
  have honly := onRecs_hub_only u tag cx (fun l => l ++ [(n, r.w1)])
  have hls := onRecs_launches u tag cx (fun l => l ++ [(n, r.w1)])
  generalize onRecs u tag cx (fun l => l ++ [(n, r.w1)]) = v at honly hls
  have hmem : v.mem = u.mem := (congrArg State.mem honly :)
  refine ⟨?_, ?_, ?_, ?_, fun b hb => ?_, by rw [hls, hhub]⟩
  · rw [← hf, ← honly]
  · exact (rdRec_congr fun b _ _ => rdB_congr hmem b).trans hrec
  · exact (rd_congr fun b _ _ => rdB_congr hmem b).trans htag
  · exact (rd_congr fun b _ _ => rdB_congr hmem b).trans hctx
  · exact (rdB_congr hmem b).trans (hout b hb)

/-! ### A push by a core (R26, R37) -/

/-- The pushing core takes its last turn in the ccy of the push. -/
theorem core_pushOrder_self (s : State) (n key : Nat) :
    { core (pushOrder s n key) key with lastCcy := (core s key).lastCcy } = core s key := by
  unfold pushOrder
  dsimp only
  split_ifs
  · rw [core_modCore_self]
    rfl
  · rfl
  · rfl

/-- With room in its ready queue, a record that is not live yet becomes live, and enters the queue when nothing is owed. -/
theorem pushOk_new {s : State} {cx d a n q : Nat} (key : Nat) {tag : BitVec 16} {r : Rec} (ha : frameHome s cx d r.w1 = a)
    (hn : 16 * d + frClu r.w1 = n) (hq : r.qid % 4 = q) (hnew : (cx, n, r.w1) ∉ liveAll s) (hi : swImage s cx n = none)
    (hg : (ringOf (clu s n) q).cnt = 0) (hl : (rqOf (clu s n) q).length < 32) :
    ∃ w, pushOk s cx d key tag r = .ok w ∧ w.mem = (liveRec s cx d tag r).mem ∧ w.hub = (liveRec s cx d tag r).hub ∧ w.ctxs = s.ctxs ∧
      w.cur = s.cur ∧ (∀ k, k ≠ key → core w k = core s k) ∧ { core w key with lastCcy := (core s key).lastCcy } = core s key ∧
      (∀ m, m ≠ n → clu w m = clu s m) ∧ (∀ j, j ≠ q → rqOf (clu w n) j = rqOf (clu s n) j) ∧
      rqOf (clu w n) q = rqOf (clu s n) q ++ (if r.join = 0 then [r] else []) := by
  obtain ⟨honly, -, -, -, -, -⟩ := liveRec_new_spec tag ha hn hnew
  rw [pushOk, hn]
  generalize liveRec s cx d tag r = u at honly
  have hctxs : u.ctxs = s.ctxs := (congrArg State.ctxs honly :)
  have hcur : u.cur = s.cur := (congrArg State.cur honly :)
  have hcores : ∀ k, core u k = core s k := core_congr (congrArg State.cores honly :)
  have hclus : ∀ m, clu u m = clu s m := clu_congr (congrArg State.clus honly :)
  subst hq
  by_cases hj : r.join = 0
  · refine ⟨_, (if_pos hj).trans (pushRec_room key ((swImage_congr hctxs ..).trans hi) (by rw [hclus]; exact hg) (by rw [hclus]; exact hl)), ?_⟩
    refine ⟨by simp, by simp, by simpa using hctxs, by simpa using hcur, fun k hk => ?_, ?_, fun m hm => ?_, fun j hjq => ?_, ?_⟩
    · rw [core_setClu, core_pushOrder_ne _ hk, hcores]
    · rw [core_setClu, ← hcores]
      exact core_pushOrder_self ..
    · rw [clu_setClu, if_neg hm, clu_congr (pushOrder_clus ..), hclus]
    · rw [clu_setClu_self, rqOf_pushedClu, if_neg hjq, hclus]
    · rw [clu_setClu_self, rqOf_pushedClu, if_pos rfl, if_pos hj, hclus]
  · refine ⟨u, if_neg hj, rfl, rfl, hctxs, hcur, fun k _ => hcores k, by rw [hcores], fun m _ => hclus m, fun j _ => by rw [hclus], ?_⟩
    rw [hclus, if_neg hj, List.append_nil]

/-! ## `qpush` (R26, R199) -/

theorem opQpush_read {s : State} {a : BitVec 6} {g : BitVec 4} (hi : Issues s (opQpush a g)) (hon : (opQpush a g).on (cur s) = true)
    (f : WFail) : postRead s (rx6 s a) 64 ≠ .error f := fun hr => by
  have h := check_of_issues hi hon
  simp [opQpush, hr] at h

theorem postTouch_facts (pre : State) (a : Word) (n : Nat) (s : State) :
    (postTouch pre a n s).ctxs = s.ctxs ∧ (postTouch pre a n s).hub = s.hub ∧ (postTouch pre a n s).cur = s.cur ∧
      (postTouch pre a n s).cores = s.cores ∧ (postTouch pre a n s).clus = s.clus ∧ (postTouch pre a n s).nextId = s.nextId :=
  have h := postTouch_only pre a n s
  ⟨(congrArg State.ctxs h :), (congrArg State.hub h :), (congrArg State.cur h :), (congrArg State.cores h :), (congrArg State.clus h :),
    (congrArg State.nextId h :)⟩

theorem qpush_posts {s : State} {a : BitVec 6} {g : BitVec 4} {v r0 b n q : Nat} {r : Rec} (hv : Fetched s (rx6 s a) 64 v)
    (hi : Issues s (opQpush a g)) (hon : (opQpush a g).on (cur s) = true) (hr : { recOf v with w1 := frameCanon s.cur (recOf v).w1 } = r)
    (hn : 16 * dieOf s.cur + frClu r.w1 = n) (hq : r.qid % 4 = q) (hb : frameHome s (cur s).ctx (dieOf s.cur) r.w1 = b)
    (h0 : frameHome s (cur s).ctx (dieOf s.cur) (cur s).trec.w1 = r0) (hapart : b + 67 ≤ r0 ∨ r0 + 8 ≤ b)
    (hsw : swImage s (cur s).ctx n = none) (hnew : ((cur s).ctx, n, r.w1) ∉ liveAll s) (hg : (ringOf (clu s n) q).cnt = 0)
    (hl : (rqOf (clu s n) q).length < 32) :
    ∃ t, exec (.qpush a g) s = .next t ∧ rdRec t b = r ∧ rd t (b + 64) 2 = (cur s).ltag.toNat ∧ rd t (b + 66) 1 = (cur s).ctx % 256 ∧
      (cur t).trec.committed = true ∧ (∀ x, (x < b ∨ b + 67 ≤ x) → (x < r0 ∨ r0 + 8 ≤ x) → rdB t x = rdB s x) ∧
      (∀ m, m ≠ n → clu t m = clu s m) ∧ (∀ m, m ≠ q → rqOf (clu t n) m = rqOf (clu s n) m) ∧
      rqOf (clu t n) q = rqOf (clu s n) q ++ (if r.join = 0 then [r] else []) ∧
      t.hub.launches = s.hub.launches.map (fun x => if x.tag = (cur s).ltag then { x with recs := x.recs ++ [(n, r.w1)] } else x) ∧
      (cur t).x = (cur s).x ∧ ∀ k, k ≠ s.cur → core t k = core s k := by
  have hread := postRead_fetched hv (opQpush_read hi hon)
  have hpr : pushedRec s (rx6 s a) = r := by rw [← hr, pushedRec, hread]
  obtain ⟨hctxs, hhub, hcur, hcores, hclus, -⟩ := postTouch_facts s (rx6 s a) 64 s
  have hmem := postTouch_mem s (rx6 s a) 64 s
  have heff : ∀ w, pushOk (postTouch s (rx6 s a) 64 s) (cur s).ctx (dieOf s.cur) s.cur (cur s).ltag r = .ok w → (opQpush a g).eff s s = w := fun w hw => by
    simp only [opQpush, hpr, hw]
  generalize postTouch s (rx6 s a) 64 s = u at hctxs hhub hcur hcores hclus hmem heff
  have hlive : liveAll u = liveAll s := by rw [liveAll, liveAll, hhub]
  have hcl := clu_congr hclus n
  obtain ⟨w, hw, wmem, whub, wctxs, wcur, wcores, wcore, wclus, wrqs, wrq⟩ := pushOk_new s.cur (tag := (cur s).ltag) (r := r) ((frameHome_congr hctxs ..).trans hb)
    hn hq (by rw [hlive]; exact hnew) ((swImage_congr hctxs ..).trans hsw) (by rw [hcl]; exact hg) (by rw [hcl]; exact hl)
  obtain ⟨-, lrec, ltag, lctx, lout, llaunch⟩ := liveRec_new_spec (cur s).ltag ((frameHome_congr hctxs ..).trans hb) hn (by rw [hlive]; exact hnew)
  have hself : { core w s.cur with lastCcy := (cur s).lastCcy } = cur s := by rw [core_congr hcores] at wcore; exact wcore
  have hcurw : cur w = core w s.cur := by rw [cur, wcur, hcur]
  have hmarks : Marks s (opQpush a g) w 0 := ⟨hon, heff w hw, fun _ => rfl, fun _ => rfl, rfl, rfl, rfl, rfl, wcur.trans hcur, wctxs.trans hctxs,
    by rw [hcurw]; exact (congrArg Core.ctx hself :), by rw [hcurw]; exact (congrArg Core.trec hself :)⟩
  obtain ⟨t, hexec, tout, tclus, thub, -, tcores, tx, tcommitted, -, -⟩ := issue1_marks hi hmarks h0
  have hout : ∀ x, x < r0 ∨ r0 + 8 ≤ x → rdB t x = rdB (liveRec u (cur s).ctx (dieOf s.cur) (cur s).ltag r) x := fun x hx =>
    (tout x hx).trans (rdB_congr wmem x)
  have hclu : ∀ m, clu t m = clu w m := clu_congr tclus
  refine ⟨t, hexec, (rdRec_congr fun x _ _ => hout x (by omega)).trans lrec, (rd_congr fun x _ _ => hout x (by omega)).trans ltag,
    (rd_congr fun x _ _ => hout x (by omega)).trans lctx, tcommitted,
    fun x hx hx0 => (hout x hx0).trans ((lout x hx).trans (rdB_congr hmem x)), fun m hm => by rw [hclu, wclus m hm, clu_congr hclus],
    fun m hm => by rw [hclu, wrqs m hm, hcl], by rw [hclu, wrq, hcl], by rw [thub, whub, llaunch, hhub], ?_, fun k hk => ?_⟩
  · rw [tx, hcurw]
    exact (congrArg Core.x hself :)
  · rw [tcores k (by rw [wcur, hcur]; exact hk), wcores k hk, core_congr hcores]

/-! ## The read of what a task posts, from another space (R199, R203) -/

theorem roomOk_one {s : State} {o : SlotOp} (hon : o.on (cur s) = true) (hr : o.reqs s = (1, 0)) (h : RoomFor s 0) : roomOk s [o] = true := by
  obtain ⟨hout, hlehr, hacq⟩ := h
  simp [roomOk, reqSum, hon, hr, hout, hacq, show lehrRoom (cur s) ≤ 262144 from hlehr]

/-- An instruction that still needs its read sends it in place of its issue. -/
theorem issue1_pread {s : State} {o : SlotOp} {a : Word} {n : Nat} (hocc : occupied (cur s) o.slot = false) (hon : o.on (cur s) = true)
    (hl : o.legal s = true) (hb : (cur s).busy = []) (hr : roomOk s [o] = true) (had : o.admits s = true) (hp : o.pread s = some (a, n)) :
    issue1 o s = .next (sendPread s a n) := by
  have hres : (o.res s).any (resBusy (cur s) o.mm) = false := by simp [resBusy, hb]
  have hpre : preadOf s [o] = some (a, n) := by simp [preadOf, hon, hp]
  simp [issue1, issue, hocc, hl, hres, hr, had, hpre]

theorem postFar_unasked {s : State} {a : Word} {n : Nat} {w : Where} (ha : spc a ≠ 1) (hc : chk s a n n false = .ok w) (hp : (cur s).prd = none) :
    postFar s a n = some (a, n) := by
  have hr : postRead s a n = .ok none := by
    unfold postRead
    rw [hc, hp]
    dsimp only
    split
    · exact absurd ‹_› ha
    · rfl
  rw [postFar, hr]

theorem sendPread_sends {s : State} (a : Word) (n : Nat) (hp : (cur s).prd = none) :
    ∃ q, q ∈ (sendPread s a n).reqs ∧ q.id = s.nextId ∧ q.kind = .load ∧ q.core = s.cur ∧ q.addr = a ∧ q.n = n ∧ q.slack = rslk s ∧
      q.stage = .out ∧ (cur (sendPread s a n)).prd = some (s.nextId, none) ∧ (cur (sendPread s a n)).pc = (cur s).pc ∧
      (cur (sendPread s a n)).x = (cur s).x ∧ (sendPread s a n).mem = s.mem ∧ ∀ k, k ≠ s.cur → core (sendPread s a n) k = core s k := by
  unfold sendPread
  rw [hp]
  refine ⟨_, List.mem_append_right _ (List.mem_singleton_self _), rfl, rfl, rfl, rfl, rfl, rfl, rfl, ?_, ?_, ?_, rfl, fun k hk => ?_⟩
  · rw [cur_modCur]; rfl
  · rw [cur_modCur]; rfl
  · rw [cur_modCur]; rfl
  · exact core_modCur_ne _ _ hk

/-- What `qpush`, `tpost` and `tix` ask of an issue, in one instruction of slot M. -/
theorem issue1_far {s : State} {o : SlotOp} {a : BitVec 6} {g : BitVec 4} {n : Nat} {w : Where} (hs : o.slot = 3) (hg : o.guard = g)
    (hl : o.legal s = true) (hr : o.reqs s = (1, 0)) (had : o.admits s = postAdmit s (rx6 s a)) (hpr : o.pread s = postFar s (rx6 s a) n)
    (hopen : Open s 3 g) (hroom : RoomFor s 0) (ha : spc (rx6 s a) ≠ 1) (hp : (cur s).prd = none) (hc : chk s (rx6 s a) n n false = .ok w) :
    issue1 o s = .next (sendPread s (rx6 s a) n) := by
  obtain ⟨hocc, hb, hguard, hm⟩ := hopen
  have hon : o.on (cur s) = true := by simp [SlotOp.on, hs, hg, hguard, hm]
  exact issue1_pread (by rw [hs]; exact hocc) hon hl hb (roomOk_one hon hr hroom) (by simp [had, postAdmit, ownFree, ha])
    (hpr.trans (postFar_unasked ha hc hp))

theorem post_asks {s : State} {a : BitVec 6} {g : BitVec 4} {n : Nat} {i : Instr} {w : Where}
    (hi : (n = 64 ∧ i = .qpush a g) ∨ (n = 32 ∧ (i = .tix a g ∨ ∃ e, i = .tpost e a g))) (hopen : Open s 3 g) (hroom : RoomFor s 0)
    (ha : spc (rx6 s a) ≠ 1) (hp : (cur s).prd = none) (hc : chk s (rx6 s a) n n false = .ok w) :
    exec i s = .next (sendPread s (rx6 s a) n) := by
  rcases hi with ⟨rfl, rfl⟩ | ⟨rfl, rfl | ⟨e, rfl⟩⟩
  · exact issue1_far (o := opQpush a g) rfl rfl rfl rfl rfl rfl hopen hroom ha hp hc
  · exact issue1_far (o := opTix a g) rfl rfl rfl rfl rfl rfl hopen hroom ha hp hc
  · exact issue1_far (o := opTpost e a g) rfl rfl rfl rfl rfl rfl hopen hroom ha hp hc

/-! ## Tile words that a task posts (R200, R201) -/

/-- Decode checks fill in the snapshots of a word. -/
theorem tileDecode_only {s : State} {t u : TileW} (h : tileDecode s t = .ok u) :
    { u with desc := t.desc, ents := t.ents, rc := t.rc, grp := t.grp, wire := t.wire, smv := t.smv } = t := by
  unfold tileDecode at h
  dsimp only at h
  repeat' split at h
  all_goals cases h
  all_goals rfl

/-- A word under its number, after a change of all words that keeps their numbers. -/
theorem findTile_map (s : State) (id : Nat) (f : TileW → TileW) (hf : ∀ u, (f u).id = u.id) :
    findTile { s with tiles := s.tiles.map f } id = (findTile s id).map f := by
  have hp : (fun u : TileW => decide (u.id = id)) ∘ f = fun u => decide (u.id = id) := funext fun u => by simp [hf]
  rw [findTile, List.find?_map, hp]
  rfl

theorem id_of_findTile {s : State} {id : Nat} {y : TileW} (h : findTile s id = some y) : y.id = id := by
  simpa using List.find?_some h

/-- A word's own accesses leave it as it is. -/
theorem findTile_wordTouch (s : State) (id : Nat) (ls : List (Nat × Nat)) : findTile (wordTouch s id ls) id = findTile s id := by
  rw [wordTouch, findTile_map _ _ _ (fun u => by split <;> rfl)]
  cases h : findTile s id with
  | none => rfl
  | some y => exact congrArg some (if_neg fun hn => hn.1 (id_of_findTile h))

/-- The end of an epoch of a barrier frees words and lets held arrivals count. -/
theorem findTile_barEpoch {s : State} {id : Nat} {y : TileW} (t : TileW) (h : findTile s id = some y) :
    ∃ y', findTile (barEpoch s t) id = some y' ∧ { y' with freed := y.freed, held := y.held } = y := by
  unfold barEpoch
  dsimp only
  split
  · rw [findTile_map _ _ _ (fun u => by split_ifs <;> rfl), h]
    refine ⟨_, rfl, ?_⟩
    dsimp only
    split_ifs <;> rfl
  · exact ⟨y, h, rfl⟩

theorem findTile_append {s : State} {id : Nat} {y : TileW} (hy : y.id = id) (h : ∀ x ∈ s.tiles, x.id ≠ id) :
    findTile { s with tiles := s.tiles ++ [y] } id = some y := by
  have hn : s.tiles.find? (fun x => decide (x.id = id)) = none := List.find?_eq_none.mpr fun x hx => by simpa using h x hx
  simp [findTile, List.find?_append, hn, hy]

theorem postTouch_ids {pre s : State} {a : Word} {n : Nat} {y : TileW} (h : y ∈ (postTouch pre a n s).tiles) : ∃ x ∈ s.tiles, y.id = x.id := by
  unfold postTouch at h
  split at h
  · rw [softTouch_tiles] at h
    obtain ⟨x, hx, rfl⟩ := List.mem_map.mp h
    exact ⟨x, hx, by split <;> rfl⟩
  · exact ⟨y, h, rfl⟩

theorem barEpoch_only (s : State) (t : TileW) : { barEpoch s t with tiles := s.tiles } = s := by
  unfold barEpoch
  dsimp only
  split <;> rfl

/-! ### `tpost` -/

theorem opTpost_read {s : State} {e a : BitVec 6} {g : BitVec 4} (hi : Issues s (opTpost e a g)) (hon : (opTpost e a g).on (cur s) = true)
    (f : WFail) : postRead s (rx6 s a) 32 ≠ .error f := fun hr => by
  have h := check_of_issues hi hon
  simp only [opTpost, hr] at h
  split at h <;> cases h

theorem tpost_posts {s : State} {e a : BitVec 6} {g : BitVec 4} {v r0 : Nat} (hv : Fetched s (rx6 s a) 32 v) (hi : Issues s (opTpost e a g))
    (hon : (opTpost e a g).on (cur s) = true) (h0 : frameHome s (cur s).ctx (dieOf s.cur) (cur s).trec.w1 = r0) :
    ∃ (t : State) (y : TileW) (old : List TileW), exec (.tpost e a g) s = .next t ∧ t.tiles = old ++ [y] ∧ old.length = s.tiles.length ∧
      (∀ (n : Nat) (x : TileW), s.tiles[n]? = some x → old[n]? = some x ∨ old[n]? = some { x with spoilt := true }) ∧ y.id = s.nextId ∧
      y.word = BitVec.ofNat 256 v ∧ y.stage = .posted ∧ y.core = s.cur ∧ y.ctx = (cur s).ctx ∧ y.ltag = (cur s).ltag ∧ y.seed = rseed s ∧
      y.src = .tpost (slotLoc s (rx6 s e) 8) (cur s).trec.w1 ∧ fld (cur t).joincnt 0 16 = (fld (cur s).joincnt 0 16 + 1) % 2 ^ 16 ∧
      (cur t).trec.committed = true ∧ (cur t).x = (cur s).x ∧ ∀ x, x < r0 ∨ r0 + 8 ≤ x → rdB t x = rdB s x := by
  have hword : postedWord s (rx6 s a) = BitVec.ofNat 256 v := by rw [postedWord, postRead_fetched hv (opTpost_read hi hon)]
  obtain ⟨hctxs, -, hcur, hcores, -, hid⟩ := postTouch_facts s (rx6 s a) 32 s
  obtain ⟨hlen, hold⟩ := postTouch_tiles s (rx6 s a) 32 s
  have hmem := postTouch_mem s (rx6 s a) 32 s
  have heff : (opTpost e a g).eff s s = { postTouch s (rx6 s a) 32 s with
    nextId := (postTouch s (rx6 s a) 32 s).nextId + 1
    tiles := (postTouch s (rx6 s a) 32 s).tiles ++
      [newWord s (postTouch s (rx6 s a) 32 s) (rx6 s a) (.tpost (slotLoc s (rx6 s e) 8) (cur s).trec.w1)] } := by
    dsimp only [opTpost]
  generalize postTouch s (rx6 s a) 32 s = u at hctxs hcur hcores hid hlen hold hmem heff
  have hcu : cur u = cur s := by rw [cur, hcur, core_congr hcores, cur]
  have hmarks : Marks s (opTpost e a g) _ 1 := ⟨hon, heff, fun _ => rfl, fun _ => rfl, rfl, rfl, rfl, rfl, hcur, hctxs, congrArg Core.ctx hcu,
    congrArg Core.trec hcu⟩
  obtain ⟨t, hexec, tout, -, -, ttiles, -, tx, tcommitted, tjoin, -⟩ := issue1_marks hi hmarks h0
  exact ⟨t, newWord s u (rx6 s a) (.tpost (slotLoc s (rx6 s e) 8) (cur s).trec.w1), u.tiles, hexec, ttiles, hlen, hold, hid, hword, rfl, rfl, rfl, rfl,
    rfl, rfl, tjoin.trans (congrArg (fun c : Core => (fld c.joincnt 0 16 + 1) % 2 ^ 16) hcu), tcommitted, tx.trans (congrArg Core.x hcu),
    fun x hx => (tout x hx).trans (rdB_congr hmem x)⟩

/-! ### `tix` -/

theorem opTix_read {s : State} {a : BitVec 6} {g : BitVec 4} (hi : Issues s (opTix a g)) (hon : (opTix a g).on (cur s) = true)
    (f : WFail) : postRead s (rx6 s a) 32 ≠ .error f := fun hr => by
  have h := check_of_issues hi hon
  simp [opTix, hr] at h

/-- A `tix` that issues has a word that passes its decode checks. -/
theorem opTix_decoded {s : State} {a : BitVec 6} {g : BitVec 4} (hi : Issues s (opTix a g)) (hon : (opTix a g).on (cur s) = true) :
    ∃ u, tileDecode s (newWord s s (rx6 s a) .tix) = .ok u := by
  have h := check_of_issues hi hon
  cases hd : tileDecode s (newWord s s (rx6 s a) .tix) with
  | ok u => exact ⟨u, rfl⟩
  | error i =>
    simp only [opTix, hd] at h
    split at h
    · cases h
    · split_ifs at h

/-- The word of a `tix` in slot M, with its snapshots, as it is accepted. -/
def tixWord (s : State) (a : BitVec 6) (u : TileW) : TileW :=
  { u with stage := .accepted, deps := tileDeps s (newWord s s (rx6 s a) .tix), held := barHeld s (newWord s s (rx6 s a) .tix) }

/-- The word is accepted, and the current core waits for it. -/
def tixHeld (s : State) (y : TileW) (id : Nat) (ls : List (Nat × Nat)) : State :=
  modCur (wordTouch { s with nextId := s.nextId + 1, tiles := s.tiles ++ [y] } id ls) (fun c => { c with mwait := .tix id })

/-- Its arrival at a grouped barrier may complete the epoch. -/
def tixState (s : State) (y : TileW) (id : Nat) (ls : List (Nat × Nat)) : State :=
  if sameBar y y then barEpoch (tixHeld s y id ls) y else tixHeld s y id ls

theorem findTile_modCur (s : State) (f : Core → Core) (id : Nat) : findTile (modCur s f) id = findTile s id := rfl

theorem findTile_tixHeld {s : State} {y : TileW} {id : Nat} (ls : List (Nat × Nat)) (hy : y.id = id) (h : ∀ x ∈ s.tiles, x.id ≠ id) :
    findTile (tixHeld s y id ls) id = some y := by
  rw [tixHeld, findTile_modCur, findTile_wordTouch]
  exact findTile_append hy h

theorem cur_tixHeld (s : State) (y : TileW) (id : Nat) (ls : List (Nat × Nat)) : cur (tixHeld s y id ls) = { cur s with mwait := .tix id } := by
  rw [tixHeld, cur_modCur]
  rfl

theorem tixState_spec {s : State} {y : TileW} {id : Nat} (ls : List (Nat × Nat)) (hy : y.id = id) (h : ∀ x ∈ s.tiles, x.id ≠ id) :
    ∃ z, findTile (tixState s y id ls) id = some z ∧ { z with freed := y.freed, held := y.held } = y ∧
      cur (tixState s y id ls) = { cur s with mwait := .tix id } ∧ (tixState s y id ls).cur = s.cur ∧ (tixState s y id ls).ctxs = s.ctxs ∧
      (tixState s y id ls).mem = s.mem := by
  have hfind := findTile_tixHeld ls hy h
  have hcore := cur_tixHeld s y id ls
  have hcur : (tixHeld s y id ls).cur = s.cur := rfl
  have hctxs : (tixHeld s y id ls).ctxs = s.ctxs := rfl
  have hmem : (tixHeld s y id ls).mem = s.mem := rfl
  unfold tixState
  generalize tixHeld s y id ls = u at hfind hcore hcur hctxs hmem
  split
  · obtain ⟨z, hz, hsame⟩ := findTile_barEpoch y hfind
    have honly := barEpoch_only u y
    generalize barEpoch u y = v at hz honly
    have vcur : v.cur = u.cur := (congrArg State.cur honly :)
    refine ⟨z, hz, hsame, ?_, vcur.trans hcur, (congrArg State.ctxs honly :).trans hctxs, (congrArg State.mem honly :).trans hmem⟩
    rw [← hcore, cur, cur, vcur]
    exact core_congr (congrArg State.cores honly :) _
  · exact ⟨y, hfind, rfl, hcore, hcur, hctxs, hmem⟩

/-- The word of a `tix` is accepted at once, and the core waits for it. -/
theorem opTix_eff {s : State} {a : BitVec 6} {g : BitVec 4} {u : TileW} (hu : tileDecode s (newWord s s (rx6 s a) .tix) = .ok u)
    (hnew : ∀ y ∈ s.tiles, y.id ≠ s.nextId) :
    ∃ w y, (opTix a g).eff s s = w ∧ findTile w s.nextId = some y ∧ y.word = postedWord s (rx6 s a) ∧ y.stage = .accepted ∧ y.src = .tix ∧
      y.core = s.cur ∧ cur w = { cur s with mwait := .tix s.nextId } ∧ w.cur = s.cur ∧ w.ctxs = s.ctxs ∧ w.mem = s.mem := by
  obtain ⟨hctxs, -, hcur, hcores, -, hid⟩ := postTouch_facts s (rx6 s a) 32 s
  have hmem := postTouch_mem s (rx6 s a) 32 s
  have hids := fun y => postTouch_ids (pre := s) (s := s) (a := rx6 s a) (n := 32) (y := y)
  have heff : (opTix a g).eff s s = tixState (postTouch s (rx6 s a) 32 s) (tixWord s a u) s.nextId (decRanges s (tixWord s a u)) := by
    have hw : newWord s (postTouch s (rx6 s a) 32 s) (rx6 s a) .tix = newWord s s (rx6 s a) .tix := by
      rw [newWord, newWord, hid]
    have hi : (newWord s s (rx6 s a) .tix).id = s.nextId := rfl
    simp only [opTix, hw, hu]
    rfl
  generalize postTouch s (rx6 s a) 32 s = p at hctxs hcur hcores hmem hids heff
  have ht := tileDecode_only hu
  have hy : (tixWord s a u).id = s.nextId := (congrArg TileW.id ht :)
  obtain ⟨y, hfind, hsame, tcur, tcurn, tctxs, tmem⟩ := tixState_spec (decRanges s (tixWord s a u)) hy fun x hx => by
    obtain ⟨z, hz, hxz⟩ := hids x hx
    rw [hxz]
    exact hnew z hz
  refine ⟨_, y, heff, hfind, ?_, ?_, ?_, ?_, ?_, tcurn.trans hcur, tctxs.trans hctxs, tmem.trans hmem⟩
  · exact (congrArg TileW.word hsame :).trans (congrArg TileW.word ht :)
  · exact (congrArg TileW.stage hsame :)
  · exact (congrArg TileW.src hsame :).trans (congrArg TileW.src ht :)
  · exact (congrArg TileW.core hsame :).trans (congrArg TileW.core ht :)
  · rw [tcur, cur, hcur, core_congr hcores, cur]

theorem tix_posts {s : State} {a : BitVec 6} {g : BitVec 4} {v r0 : Nat} (hv : Fetched s (rx6 s a) 32 v) (hi : Issues s (opTix a g))
    (hon : (opTix a g).on (cur s) = true) (h0 : frameHome s (cur s).ctx (dieOf s.cur) (cur s).trec.w1 = r0) (hnew : ∀ y ∈ s.tiles, y.id ≠ s.nextId) :
    ∃ (t : State) (y : TileW), exec (.tix a g) s = .next t ∧ findTile t s.nextId = some y ∧ y.word = BitVec.ofNat 256 v ∧ y.stage = .accepted ∧ y.src = .tix ∧
      y.core = s.cur ∧ (cur t).mwait = .tix s.nextId ∧ (cur t).trec.committed = true ∧ (cur t).x = (cur s).x ∧
      ∀ x, x < r0 ∨ r0 + 8 ≤ x → rdB t x = rdB s x := by
  have hword : postedWord s (rx6 s a) = BitVec.ofNat 256 v := by rw [postedWord, postRead_fetched hv (opTix_read hi hon)]
  obtain ⟨u, hu⟩ := opTix_decoded hi hon
  obtain ⟨w, y, heff, hfind, hyw, hys, hyf, hyc, wcore, wcur, wctxs, wmem⟩ := opTix_eff (a := a) (g := g) hu hnew
  have hmarks : Marks s (opTix a g) w 0 := ⟨hon, heff, fun _ => rfl, fun _ => rfl, rfl, rfl, rfl, rfl, wcur, wctxs, by rw [wcore], by rw [wcore]⟩
  obtain ⟨t, hexec, tout, -, -, ttiles, -, tx, tcommitted, -, twait⟩ := issue1_marks hi hmarks h0
  refine ⟨t, y, hexec, ?_, hyw.trans hword, hys, hyf, hyc, ?_, tcommitted, by rw [tx, wcore], fun x hx => (tout x hx).trans (rdB_congr wmem x)⟩
  · rw [findTile, ttiles]
    exact hfind
  · rw [wcore] at twait
    exact twait rfl

end Sys2Proof.Machine

open Sys2Proof hiding core
open Sys2Proof.Machine

/-- Settles O46: with the bytes at hand each of the three commits with its one effect; without them it sends its read. -/
theorem taskPosts : Obligations.TaskPosts := by
  intro s a g l c r0 here sent
  have hfetched : ∀ n v, (here n ∧ v = rd s l n) ∨ sent n v → Fetched s (rx6 s a) n v := fun n v h => h.imp (fun h => ⟨l, h⟩) id
  refine ⟨?_, ?_, fun w hw => ⟨?_, ?_⟩⟩
  · intro v hv hi hon q r n b hapart hsw hnew hg hl
    exact qpush_posts (hfetched 64 v hv) hi hon rfl rfl rfl rfl rfl hapart hsw hnew hg hl
  · intro n i hi hopen hroom ha hp w hc
    obtain ⟨q, hq⟩ := sendPread_sends (rx6 s a) n hp
    exact ⟨_, q, post_asks hi hopen hroom ha hp hc, hq⟩
  all_goals
    have hword : ∃ v, Fetched s (rx6 s a) 32 v ∧ w = BitVec.ofNat 256 v := by
      rcases hw with ⟨hh, rfl⟩ | hs
      · exact ⟨_, hfetched 32 _ (Or.inl ⟨hh, rfl⟩), rfl⟩
      · exact ⟨_, hfetched 32 _ (Or.inr hs), by rw [BitVec.ofNat_toNat, BitVec.setWidth_eq]⟩
    obtain ⟨v, hv, rfl⟩ := hword
  · intro e hi hon
    exact tpost_posts hv hi hon rfl
  · intro hi hon hnew
    exact tix_posts hv hi hon rfl hnew

end

section
/-! PROOFS. Tasks come and go: one ccy of a cluster's sequencer, the start of a task, and the save of a pre-empted one. -/
namespace Sys2Proof.Machine

/-! ## The ccy of a dispatch (R34, R44, R47) -/

theorem dispatchCcy_facts (s : State) (n : Nat) :
    (dispatchCcy s n).cores = s.cores ∧ (dispatchCcy s n).ctxs = s.ctxs ∧ (dispatchCcy s n).tiles = s.tiles ∧
      (∀ m, m ≠ n → clu (dispatchCcy s n) m = clu s m) ∧ ∀ j, rqOf (clu (dispatchCcy s n) n) j = rqOf (clu s n) j := by
  unfold dispatchCcy
  dsimp only
  have hcl : ∀ m, clu (if (clu s n).dispCcy = s.ccy ∨ (clu s n).pushCcy = s.ccy then newCcy s else s) m = clu s m := fun m => by split <;> rfl
  refine ⟨by split <;> rfl, by split <;> rfl, by split <;> rfl, fun m hm => ?_, fun j => ?_⟩
  · rw [clu_setClu, if_neg hm, hcl]
  · rw [clu_setClu_self, hcl]
    exact congrArg (tget [] · j) (evView_rq _ _)

/-- The view of the event words at a dispatch, looked at again in its ccy. -/
theorem evView_dispatchCcy (s : State) (n : Nat) {w : Nat} (hw : w < 8) :
    tget 0 (evView (dispatchCcy s n) (clu (dispatchCcy s n) n)).ev w = tget 0 (clu (dispatchCcy s n) n).ev w := by
  unfold dispatchCcy
  dsimp only
  generalize (if (clu s n).dispCcy = s.ccy ∨ (clu s n).pushCcy = s.ccy then newCcy s else s) = u
  rw [clu_setClu_self]
  generalize clu u n = c
  by_cases h : c.evCcy < u.ccy
  · have h2 : ({ evView u c with dispCcy := u.ccy } : Cluster).evCcy < (setClu u n { evView u c with dispCcy := u.ccy }).ccy := by
      rw [evView, if_pos h]
      exact h
    rw [tget_evView_ev h2 hw]
    exact (nextEv_evView hw).trans (tget_evView_ev h hw).symm
  · rw [evView_now (c := c) (Nat.not_lt.mp h)]
    exact congrArg (fun d : Cluster => tget 0 d.ev w) (evView_now (c := { c with dispCcy := u.ccy }) (Nat.not_lt.mp h))

theorem waitw_lt (r : Rec) : r.waitw < 8 := fld_lt _ _ _

theorem evView_only (s : State) (c : Cluster) : { evView s c with ev := c.ev, evS := c.evS, evC := c.evC } = c := by
  unfold evView
  split <;> rfl

theorem popOk_evView {s : State} {c : Cluster} (h : ∀ w, w < 8 → tget 0 (evView s c).ev w = tget 0 c.ev w) (j : Nat) :
    popOk (evView s c) j = popOk c j := by
  have hrq : rqOf (evView s c) j = rqOf c j := congrArg (tget [] · j) (evView_rq s c)
  have hfrz : (evView s c).frz = c.frz := (congrArg Cluster.frz (evView_only s c) :)
  have hready : headReady (evView s c) j = headReady c j := by
    unfold headReady
    rw [hrq]
    split
    · rfl
    · rw [h _ (waitw_lt _)]
  rw [popOk, popOk, hready, hfrz]

/-- With no head aged, the highest queue that may be popped. -/
theorem pickQ_highest {c : Cluster} {q : Nat} (ha : c.aged = []) (hq : q < 4) (hp : popOk c q = true)
    (hh : ∀ j, q < j → j < 4 → popOk c j = false) : pickQ c = some q := by
  have hfind : [3, 2, 1, 0].find? (popOk c) = some q := by
    have h1 := hh 1
    have h2 := hh 2
    have h3 := hh 3
    interval_cases q <;> simp_all
  simp [pickQ, ha, hfind]

theorem resumeBad_fresh (s : State) (cx : Nat) {r : Rec} (h : r.kind ≠ 2) : resumeBad s cx r = none := if_pos h

/-- The cluster once the head of queue q has left it for a core. -/
def popped (c : Cluster) (q : Nat) (rest : List Rec) : Cluster :=
  { c with rq := tset [] c.rq q rest, age := (newHead c q).age, aged := (newHead c q).aged.map (fun a => (a.1, a.2 + 1)) }

theorem ringOf_popped (s : State) (c : Cluster) (q j : Nat) (rest : List Rec) : ringOf (popped (evView s c) q rest) j = ringOf c j := by
  rw [ringOf, show (popped (evView s c) q rest).ring = c.ring from evView_ring s c, ringOf]

/-- The head of the queue that is picked starts on the idle core. -/
theorem dispatchPop_starts {s : State} {n cx k q : Nat} {r : Rec} {rest : List Rec} (hk : idleCore s n = some k)
    (hd : (clu s n).noDisp = false) (ha : (clu s n).aged = []) (hev : ∀ w, w < 8 → tget 0 (evView s (clu s n)).ev w = tget 0 (clu s n).ev w)
    (hq : q < 4) (hr : rqOf (clu s n) q = r :: rest) (hkind : r.kind ≠ 2) (hp : popOk (clu s n) q = true)
    (hh : ∀ j, q < j → j < 4 → popOk (clu s n) j = false) :
    dispatchPop s n cx = startTask (setClu s n (popped (evView s (clu s n)) q rest)) k cx r := by
  have honly := evView_only s (clu s n)
  have hpick : pickQ (evView s (clu s n)) = some q :=
    pickQ_highest ((congrArg Cluster.aged honly :).trans ha) hq ((popOk_evView hev q).trans hp) fun j h1 h2 => (popOk_evView hev j).trans (hh j h1 h2)
  have hnd : (evView s (clu s n)).noDisp = false := (congrArg Cluster.noDisp honly :).trans hd
  have hrq : rqOf (evView s (clu s n)) q = r :: rest := (congrArg (tget [] · q) (evView_rq s (clu s n))).trans hr
  unfold dispatchPop
  dsimp only
  rw [hk, hpick]
  dsimp only
  rw [if_neg (by simp [hnd]), hrq]
  dsimp only
  rw [resumeBad_fresh s cx hkind]
  rfl

/-! ## The start of a task (R31, R35) -/

/-- A record that does not resume: the core starts as Table 5 of chapter 02 says, and the slot says that the task runs. -/
theorem startTask_fresh (s : State) (k cx : Nat) {r : Rec} (h : r.kind ≠ 2) :
    startTask s k cx r = bump (setCore { wrRec s (frLoc (dieOf k) r.w1) ((r.setKind 3).setJoin 0) with vx := tset 0 s.vx k (BitVec.ofNat 3 (startFree s 600)) } k
      (startCore s k cx ((r.setKind 3).setJoin 0) (BitVec.ofNat 16 (rd s (frLoc (dieOf k) r.w1 + 64) 2)))) := if_neg h

theorem startTask_facts (s : State) (k cx : Nat) {r : Rec} (h : r.kind ≠ 2) :
    let t := startTask s k cx r
    core t k = startCore s k cx ((r.setKind 3).setJoin 0) (BitVec.ofNat 16 (rd s (frLoc (dieOf k) r.w1 + 64) 2)) ∧
      (∀ j, j ≠ k → core t j = core s j) ∧ t.clus = s.clus ∧ t.mem = (wrRec s (frLoc (dieOf k) r.w1) ((r.setKind 3).setJoin 0)).mem := by
  intro t
  have ht : t = _ := startTask_fresh s k cx h
  rw [ht]
  have hc := wrRec_cores s (frLoc (dieOf k) r.w1) ((r.setKind 3).setJoin 0)
  have hcl := wrRec_clus s (frLoc (dieOf k) r.w1) ((r.setKind 3).setJoin 0)
  generalize wrRec s (frLoc (dieOf k) r.w1) ((r.setKind 3).setJoin 0) = u at hc hcl
  refine ⟨?_, fun j hj => ?_, hcl, rfl⟩
  · rw [core_bump, core_setCore_self]
  · rw [core_bump, core_setCore_ne _ _ hj]
    exact core_congr hc j

/-- The arguments of a record, in x1 to x4. -/
theorem startCore_x (s : State) (k cx : Nat) (r : Rec) (tag : BitVec 16) (d : Nat) : tget 0 (startCore s k cx r tag).x d =
    if d = 1 then r.w1 else if d = 2 then r.w5 else if d = 3 then r.w6 else if d = 4 then r.w7 else 0 := by
  have h : (startCore s k cx r tag).x = tset 0 (tset 0 (tset 0 (tset 0 [] 1 r.w1) 2 r.w5) 3 r.w6) 4 r.w7 := rfl
  rw [h]
  simp only [tget_tset]
  by_cases h1 : d = 1
  · simp [h1]
  by_cases h2 : d = 2
  · simp [h2]
  by_cases h3 : d = 3
  · simp [h3]
  by_cases h4 : d = 4
  · simp [h4]
  · simp [h1, h2, h3, h4, tget]

theorem startCore_ent (s : State) (k cx : Nat) (r : Rec) (tag : BitVec 16) {j : Nat} (h : j < 32) :
    tget 0 (startCore s k cx r tag).ent j = ctxD s cx j :=
  (tget_foldl_tset (ctxD s cx) (List.range 32) [] j).trans (if_pos (List.mem_range.mpr h))

theorem startCore_slk (s : State) (k cx : Nat) (r : Rec) (tag : BitVec 16) : fld (startCore s k cx r tag).slk 0 12 = r.slack % 2 ^ 12 := by
  have h : (startCore s k cx r tag).slk = BitVec.ofNat 64 r.slack := rfl
  rw [h, fld, BitVec.extractLsb'_toNat, BitVec.toNat_ofNat, Nat.shiftRight_zero, Nat.mod_mod_of_dvd _ (by decide)]

/-! ## The rest of the ccy: refills and ages (R34, R44) -/

theorem refill_empty {s : State} {n : Nat} (cx q : Nat) (h : (ringOf (clu s n) q).cnt = 0) : refill n cx s q = s :=
  if_pos (Or.inr (Or.inr h))

theorem refills_empty {s : State} {n : Nat} (cx : Nat) (h : ∀ j, (ringOf (clu s n) j).cnt = 0) (l : List Nat) : l.foldl (refill n cx) s = s := by
  induction l with
  | nil => rfl
  | cons q l ih => rw [List.foldl_cons, refill_empty cx q (h q), ih]

theorem ageHead_only (c : Cluster) (q : Nat) : { ageHead c q with age := c.age, aged := c.aged } = c := by
  unfold ageHead
  dsimp only
  split_ifs <;> rfl

theorem rq_ageHeads (l : List Nat) : ∀ c : Cluster, (l.foldl ageHead c).rq = c.rq := by
  induction l with
  | nil => intro c; rfl
  | cons q l ih => intro c; exact (ih _).trans (congrArg Cluster.rq (ageHead_only c q) :)

theorem ageHead_age (c : Cluster) (j : Nat) : (ageHead c j).age = tset 0 c.age j (if headReady c j = true then tget 0 c.age j + 1 else 0) := by
  unfold ageHead
  dsimp only
  split_ifs <;> rfl

theorem age_ageHead (c : Cluster) (q j : Nat) : tget 0 (ageHead c j).age q ≤ tget 0 c.age q + if j = q then 1 else 0 := by
  rw [ageHead_age, tget_tset]
  by_cases h : q = j
  · subst h
    rw [if_pos rfl, if_pos rfl]
    split <;> omega
  · rw [if_neg h]
    omega

/-- A head ages by one at most for each time that its queue is looked at. -/
theorem age_ageHeads (q : Nat) (l : List Nat) : ∀ c : Cluster, tget 0 (l.foldl ageHead c).age q ≤ tget 0 c.age q + l.count q := by
  induction l with
  | nil => intro c; exact le_rfl
  | cons j l ih =>
    intro c
    have h1 := ih (ageHead c j)
    have h2 := age_ageHead c q j
    simp only [List.foldl_cons, List.count_cons, beq_iff_eq]
    omega

/-! ## A dispatch (R31 to R35) -/

theorem idleCore_congr {s t : State} (hc : t.cores = s.cores) (ht : t.tiles = s.tiles) (n : Nat) : idleCore t n = idleCore s n := by
  have hf : ∀ k, core t k = core s k := core_congr hc
  have hb : ∀ k, childBusy t k = childBusy s k := fun k => by rw [childBusy, childBusy, ht]
  simp only [idleCore, hf, hb]

theorem dispatch_starts {s : State} {n cx k q : Nat} {r slot : Rec} {rest : List Rec} {a : Nat} (ho : ownerOf s n = some cx) (hk : idleCore s n = some k)
    (hd : (clu (dispatchCcy s n) n).noDisp = false) (hag : (clu (dispatchCcy s n) n).aged = [])
    (hring : ∀ j, (ringOf (clu (dispatchCcy s n) n) j).cnt = 0) (hq : q < 4) (hr : rqOf (clu (dispatchCcy s n) n) q = r :: rest) (hkind : r.kind ≠ 2)
    (hp : popOk (clu (dispatchCcy s n) n) q = true) (hh : ∀ j, q < j → j < 4 → popOk (clu (dispatchCcy s n) n) j = false)
    (ha : frLoc (dieOf k) r.w1 = a) (hs : (r.setKind 3).setJoin 0 = slot) :
    ∃ t u tag, exec (.dispatch n) s = .next t ∧ core u k = core s k ∧ (∀ j, ctxD u cx j = ctxD s cx j) ∧ core t k = startCore u k cx slot tag ∧
      tget 0 (clu t n).age q ≤ 1 ∧ rdRec t a = slot ∧ (∀ b, b < a ∨ a + 64 ≤ b → rdB t b = rdB s b) ∧ rqOf (clu t n) q = rest ∧
      (∀ j, j ≠ q → rqOf (clu t n) j = rqOf (clu s n) j) ∧ (∀ m, m ≠ n → clu t m = clu s m) ∧ ∀ j, j ≠ k → core t j = core s j := by
  obtain ⟨hcores, hctxs, htiles, hclus, hrq⟩ := dispatchCcy_facts s n
  have hmem := dispatchCcy_mem s n
  have hev := fun w hw => evView_dispatchCcy s n (w := w) hw
  have hexec : exec (.dispatch n) s = .next (dispatchStep s n) := rfl
  unfold dispatchStep at hexec
  rw [ho] at hexec
  dsimp only at hexec
  generalize dispatchCcy s n = d at *
  rw [dispatchPop_starts ((idleCore_congr hcores htiles n).trans hk) hd hag hev hq hr hkind hp hh] at hexec
  obtain ⟨tcore, tcores, tclus, tmem⟩ := startTask_facts (setClu d n (popped (evView d (clu d n)) q rest)) k cx hkind
  have hclu : clu (startTask (setClu d n (popped (evView d (clu d n)) q rest)) k cx r) n = popped (evView d (clu d n)) q rest := by
    rw [clu_congr tclus, clu_setClu_self]
  have hrings : ∀ j, (ringOf (clu (startTask (setClu d n (popped (evView d (clu d n)) q rest)) k cx r) n) j).cnt = 0 := fun j => by
    rw [hclu, ringOf_popped]
    exact hring j
  rw [refills_empty cx hrings] at hexec
  generalize startTask (setClu d n (popped (evView d (clu d n)) q rest)) k cx r = v at hexec tcore tcores tclus tmem hclu
  rw [ha, hs] at tmem
  rw [ha, hs] at tcore
  rw [hclu] at hexec
  have hlast : (evView v (popped (evView d (clu d n)) q rest)).age = tset 0 (evView d (clu d n)).age q 0 := (congrArg Cluster.age (evView_only v _) :)
  have hrqs : ([3, 2, 1, 0].foldl ageHead (evView v (popped (evView d (clu d n)) q rest))).rq = tset [] (clu d n).rq q rest := by
    rw [rq_ageHeads, evView_rq]
    exact congrArg (tset [] · q rest) (evView_rq d (clu d n))
  refine ⟨_, setClu d n (popped (evView d (clu d n)) q rest), _, hexec, core_congr hcores k, fun j => ctxD_congr hctxs cx j, tcore, ?_, ?_, fun b hb => ?_, ?_,
    fun j hj => ?_, fun m hm => ?_, fun j hj => ?_⟩
  · rw [clu_setClu_self]
    have h := age_ageHeads q [3, 2, 1, 0] (evView v (popped (evView d (clu d n)) q rest))
    have hc : [3, 2, 1, 0].count q ≤ 1 := List.nodup_iff_count_le_one.mp (by decide) q
    rw [hlast, tget_tset_self] at h
    omega
  · exact (rdRec_congr fun b _ _ => rdB_congr tmem b).trans (rdRec_wrRec ..)
  · exact (rdB_congr tmem b).trans ((rdB_wrRec_out _ slot hb).trans (rdB_congr hmem b))
  · rw [clu_setClu_self, rqOf, hrqs, tget_tset_self]
  · rw [clu_setClu_self, rqOf, hrqs, tget_tset_ne _ _ hj]
    exact hrq j
  · rw [clu_setClu, if_neg hm, clu_congr tclus, clu_setClu, if_neg hm, hclus m hm]
  · exact (tcores j hj).trans (core_congr hcores j)

/-! ## The save of a pre-empted task (R365, R367, R369) -/

/-- The cores of a cluster that are to be saved, when there is one. -/
theorem saving_alone {s : State} {k : Nat} (h : isSaving (core s k) = true) (hj : ∀ j, j ≠ k → cluOf j = cluOf k → isSaving (core s j) = false) :
    ((List.range 8).map (8 * cluOf k + ·)).filter (fun j => isSaving (core s j)) = [k] := by
  have hk : 8 * cluOf k + k % 8 = k := Nat.div_add_mod k 8
  have hcongr : ((List.range 8).map (8 * cluOf k + ·)).filter (fun j => isSaving (core s j)) =
      ((List.range 8).map (8 * cluOf k + ·)).filter (· == k) := List.filter_congr fun j hm => by
    obtain ⟨i, hi, rfl⟩ := List.mem_map.mp hm
    have hi8 := List.mem_range.mp hi
    by_cases hjk : 8 * cluOf k + i = k
    · rw [hjk, h, beq_self_eq_true]
    · rw [hj _ hjk (by simp only [cluOf] at hk ⊢; omega), beq_eq_false_iff_ne.mpr hjk]
  have hmem : k ∈ (List.range 8).map (8 * cluOf k + ·) :=
    List.mem_map.mpr ⟨k % 8, List.mem_range.mpr (Nat.mod_lt _ (by omega)), hk⟩
  have hnodup : ((List.range 8).map (8 * cluOf k + ·)).Nodup := List.nodup_range.map fun _ _ e => Nat.add_left_cancel e
  rw [hcongr, List.filter_beq, List.count_eq_one_of_mem hnodup hmem]
  rfl

theorem satGroups_one (s : State) (k : Nat) : satGroups s [k] = [[k]] := by simp [satGroups]

theorem foldl_mem_only {α : Type} {f : State → α → State} (h : ∀ s e, { f s e with mem := s.mem } = s) (l : List α) :
    ∀ s : State, { l.foldl f s with mem := s.mem } = s := by
  induction l with
  | nil => intro s; rfl
  | cons e l ih => intro s; exact (congrArg (fun u : State => { u with mem := s.mem }) (ih (f s e)) :).trans (h s e)

/-- A block that is written changes memory alone. -/
theorem blkWrite_mem_only (s : State) (cx i : Nat) (l : List (Nat × Nat × Nat)) : { blkWrite s cx i l with mem := s.mem } = s :=
  foldl_mem_only (fun u e => by split <;> rfl) l s

/-- The record of a pre-empted task, of KIND 2 with its save block. -/
def savedRec (c : Core) (i : Nat) (r : Rec) : Rec :=
  let r := (((r.setKind 2).setPc (fld c.resume 0 40)).setJoin 0).setSaveix (i + 1)
  if c.atStep then { r with w0 := setFld r.w0 43 1 1 } else r

theorem savedRec_fields (c : Core) {i : Nat} (r : Rec) (h : i + 1 < 2 ^ 20) : (savedRec c i r).kind = 2 ∧
    (savedRec c i r).pc = c.resume.toNat % 2 ^ 40 ∧ (savedRec c i r).join = 0 ∧ (savedRec c i r).saveix = i + 1 := by
  have hkind : fld (setFld (setFld r.w0 56 8 2) 0 40 (fld c.resume 0 40)) 56 8 = 2 := by
    rw [fld_setFld_apart _ _ (by omega)]
    exact fld_setFld_same _ _ (by omega)
  have hpc : fld (setFld (setFld r.w0 56 8 2) 0 40 (fld c.resume 0 40)) 0 40 = c.resume.toNat % 2 ^ 40 := by
    rw [fld_setFld_same _ _ (by omega), Nat.mod_eq_of_lt (fld_lt _ _ _), fld, BitVec.extractLsb'_toNat, Nat.shiftRight_zero]
  have hw2 : (savedRec c i r).w2 = (((r.setKind 2).setPc (fld c.resume 0 40)).setJoin 0 |>.setSaveix (i + 1)).w2 := by
    unfold savedRec
    dsimp only
    split <;> rfl
  refine ⟨?_, ?_, ?_, ?_⟩
  · unfold savedRec Rec.kind
    dsimp only
    split
    · exact (fld_setFld_apart _ _ (by omega)).trans hkind
    · exact hkind
  · unfold savedRec Rec.pc
    dsimp only
    split
    · exact (fld_setFld_apart _ _ (by omega)).trans hpc
    · exact hpc
  · have hsx := fld_setFld_apart (lo := 44) (len := 20) (lo' := 0) (len' := 16) (((r.setKind 2).setPc (fld c.resume 0 40)).setJoin 0).w2 (i + 1) (by omega)
    rw [Rec.join, hw2]
    exact (congrArg (fun n : Nat => sextI n 16) hsx).trans (join_setJoin ((r.setKind 2).setPc (fld c.resume 0 40)) (by omega) (by omega))
  · rw [Rec.saveix, hw2]
    exact (fld_setFld_same _ _ (by omega)).trans (Nat.mod_eq_of_lt h)

/-- The save block of core k's task, in block i of its context. -/
def blocked (s : State) (k i : Nat) : State := blkWrite s (core s k).ctx i (saveChunks (core s k) (tget 0 s.vx k))

theorem blocked_mem_only (s : State) (k i : Nat) : { blocked s k i with mem := s.mem } = s := by
  rw [blocked]
  exact blkWrite_mem_only ..

theorem fields_of_mem_only {s t : State} (h : { t with mem := s.mem } = s) : t.cores = s.cores ∧ t.ctxs = s.ctxs ∧ t.clus = s.clus :=
  ⟨(congrArg State.cores h :), (congrArg State.ctxs h :), (congrArg State.clus h :)⟩

/-- The core and the context of core k of s once its task is saved in block i: the core is held, and the block is in use. -/
def heldIn (s : State) (k i : Nat) (u : State) : State :=
  let c := core s k
  let x := ctx u c.ctx
  let n := homeClu k c.trec.w1
  modCore (setCtx u c.ctx { x with
    saveUsed := i :: x.saveUsed
    wbStop := if c.run = .stopped then (n, c.trec.w1) :: x.wbStop else x.wbStop
    wbLost := if c.run = .stopped ∧ c.lost = true then (n, c.trec.w1) :: x.wbLost else x.wbLost }) k
    (fun c => { coreFree c with pre := .held, frz := 0 })

/-- A save that finds a block it can reach. -/
theorem saveOne_saves {s : State} {k i a : Nat} {r : Rec} (hf : freeBlock (ctx s (core s k).ctx) = some i)
    (hb : blkFail s (core s k).ctx i true (savePages (core s k).accAl) = none)
    (ha : frameHome (blocked s k i) (core s k).ctx (dieOf k) (core s k).trec.w1 = a)
    (hr : savedRec (core s k) i (rdRec (blocked s k i) a) = r) :
    saveOne s k = (heldIn s k i (wrRec (blocked s k i) a r), [(homeClu k (core s k).trec.w1, r)]) := by
  subst ha hr
  unfold saveOne
  dsimp only
  rw [hf]
  dsimp only
  rw [hb]
  rfl

theorem heldIn_facts {s u : State} (k i : Nat) (hc : u.cores = s.cores) (hx : u.ctxs = s.ctxs) :
    let t := heldIn s k i u
    (core t k).run = .idle ∧ (core t k).pre = .held ∧ (∀ j, j ≠ k → core t j = core s j) ∧ t.clus = u.clus ∧
      (ctx t (core s k).ctx).saveUsed = i :: (ctx s (core s k).ctx).saveUsed := by
  intro t
  have hself : core t k = { coreFree (core u k) with pre := .held, frz := 0 } := core_modCore_self ..
  refine ⟨by rw [hself]; rfl, by rw [hself], fun j hj => ?_, rfl, ?_⟩
  · exact (core_modCore_ne _ _ hj).trans (core_congr hc j)
  · have hctx : (ctx t (core s k).ctx).saveUsed = i :: (ctx u (core s k).ctx).saveUsed := congrArg Ctx.saveUsed (ctx_setCtx_self ..)
    rw [hctx, ctx_congr hx]

/-- The record enters the head of its queue. -/
theorem writeBack_facts (s : State) (n : Nat) (r : Rec) :
    let t := writeBack (n, r) s
    t.cores = s.cores ∧ t.ctxs = s.ctxs ∧ rqOf (clu t n) r.qid = r :: rqOf (clu s n) r.qid ∧
      (∀ q, q ≠ r.qid → rqOf (clu t n) q = rqOf (clu s n) q) ∧ ∀ m, m ≠ n → clu t m = clu s m := by
  intro t
  have hclu : clu t n = { newHead (clu s n) r.qid with
      rq := tset [] (newHead (clu s n) r.qid).rq r.qid (r :: rqOf (newHead (clu s n) r.qid) r.qid), pushCcy := s.ccy, pushKey := 0 } :=
    clu_setClu_self ..
  refine ⟨rfl, rfl, ?_, fun q hq => ?_, fun m hm => ?_⟩
  · rw [hclu, rqOf, tget_tset_self]
    rfl
  · rw [hclu, rqOf, tget_tset_ne _ _ hq]
    rfl
  · exact (clu_setClu ..).trans (if_neg hm)

/-- The task of a core that is saved alone. -/
theorem saveGroup_one {s u : State} {k n : Nat} {r : Rec} (h : saveOne s k = (u, [(n, r)])) : saveGroup s [k] = writeBack (n, r) u := by
  simp [saveGroup, h]


/-- With one core of its cluster to save, a PREEMPT_SAVE saves it, in the present ccy or in a new one. -/
theorem preemptSave_one {s : State} {k : Nat} (h : isSaving (core s k) = true) (hj : ∀ j, j ≠ k → cluOf j = cluOf k → isSaving (core s j) = false) :
    ∃ u, (u = s ∨ u = newCcy s) ∧ preemptSave s k = saveGroup u [k] := by
  unfold preemptSave
  rw [h]
  dsimp only
  rw [if_neg (by decide), saving_alone h hj]
  refine ⟨_, ?_, by rw [satGroups_one]; rfl⟩
  split
  · exact Or.inr rfl
  · exact Or.inl rfl

theorem preemptSave_saves {s : State} {k i n : Nat} (h : isSaving (core s k) = true)
    (hj : ∀ j, j ≠ k → cluOf j = cluOf k → isSaving (core s j) = false) (hi : i + 1 < 2 ^ 20) (hf : freeBlock (ctx s (core s k).ctx) = some i)
    (hb : blkFail s (core s k).ctx i true (savePages (core s k).accAl) = none) (hn : homeClu k (core s k).trec.w1 = n) :
    ∃ t r, exec (.preemptSave k) s = .next t ∧ (core t k).run = .idle ∧ (core t k).pre = .held ∧ (∀ j, j ≠ k → core t j = core s j) ∧
      r.kind = 2 ∧ r.pc = (core s k).resume.toNat % 2 ^ 40 ∧ r.join = 0 ∧ r.saveix = i + 1 ∧ rqOf (clu t n) r.qid = r :: rqOf (clu s n) r.qid ∧
      (∀ q, q ≠ r.qid → rqOf (clu t n) q = rqOf (clu s n) q) ∧ (∀ m, m ≠ n → clu t m = clu s m) ∧
      (ctx t (core s k).ctx).saveUsed = i :: (ctx s (core s k).ctx).saveUsed := by
  obtain ⟨u, hu, hsave⟩ := preemptSave_one h hj
  have hexec : exec (.preemptSave k) s = .next (preemptSave s k) := rfl
  have hcores : u.cores = s.cores := by rcases hu with rfl | rfl <;> rfl
  have hctxs : u.ctxs = s.ctxs := by rcases hu with rfl | rfl <;> rfl
  have hclus : u.clus = s.clus := by rcases hu with rfl | rfl <;> rfl
  have hblk : blkFail u (core s k).ctx i true (savePages (core s k).accAl) = none := by rcases hu with rfl | rfl <;> exact hb
  have hcore : core u k = core s k := core_congr hcores k
  have hone := saveOne_saves (s := u) (k := k) (i := i) (by rw [hcore, ctx_congr hctxs]; exact hf) (by rw [hcore]; exact hblk) rfl rfl
  rw [hcore, hn] at hone
  generalize frameHome (blocked u k i) (core s k).ctx (dieOf k) (core s k).trec.w1 = a at hone
  generalize hr : savedRec (core s k) i (rdRec (blocked u k i) a) = r at hone
  obtain ⟨bcores, bctxs, bclus⟩ := fields_of_mem_only (blocked_mem_only u k i)
  obtain ⟨hrun, hpre, hothers, hcl, hused⟩ := heldIn_facts (s := u) (u := wrRec (blocked u k i) a r) k i (by rw [wrRec_cores, bcores]) (by rw [wrRec_ctxs, bctxs])
  rw [wrRec_clus, bclus] at hcl
  generalize heldIn u k i (wrRec (blocked u k i) a r) = v at hone hrun hpre hothers hcl hused
  obtain ⟨tcores, tctxs, thead, trest, tclus⟩ := writeBack_facts v n r
  rw [hexec, hsave, saveGroup_one hone]
  generalize writeBack (n, r) v = t at tcores tctxs thead trest tclus
  obtain ⟨hkind, hpc, hjoin, hix⟩ := savedRec_fields (core s k) (rdRec (blocked u k i) a) hi
  rw [hr] at hkind hpc hjoin hix
  have hv : ∀ m, clu v m = clu s m := clu_congr (hcl.trans hclus)
  have ht : ∀ j, core t j = core v j := core_congr tcores
  refine ⟨t, r, rfl, by rw [ht, hrun], by rw [ht, hpre], fun j hjk => ?_, hkind, hpc, hjoin, hix, by rw [thead, hv],
    fun q hq => by rw [trest q hq, hv], fun m hm => by rw [tclus m hm, hv], ?_⟩
  · rw [ht, hothers j hjk, core_congr hcores]
  · rw [hcore] at hused
    rw [ctx_congr tctxs, hused, ctx_congr hctxs]

end Sys2Proof.Machine

open Sys2Proof hiding core
open Sys2Proof.Machine

/-- Settles O47: the pop starts the head on the idle core, and nothing else of the ccy touches it; a save of one core is one write-back. -/
theorem taskStartsAndSaves : Obligations.TaskStartsAndSaves := by
  refine ⟨?_, ?_⟩
  · intro s n cx k q r rest ho hk c hd hag hring hq hr hkind hp hh a slot
    obtain ⟨t, u, tag, hexec, hu, hd, hcore, hage, hrec⟩ := dispatch_starts ho hk hd hag hring hq hr hkind hp hh rfl rfl
    refine ⟨t, hexec, ?_⟩
    rw [hcore]
    have hpc : slot.pc = r.pc := fld_setFld_apart _ _ (by omega)
    have hslack : slot.slack = r.slack := fld_setFld_apart _ _ (by omega)
    refine ⟨rfl, congrArg (BitVec.ofNat 64) hpc, rfl, rfl, startCore_x u k cx slot tag, rfl, rfl, (congrArg Core.wtime hu :), rfl, rfl, fun _ => rfl, rfl, rfl, rfl, rfl, rfl,
      (startCore_slk u k cx slot tag).trans (by rw [hslack]), rfl, rfl, rfl, hage, fun j hj => (startCore_ent u k cx slot tag hj).trans (hd j), hrec⟩
  · intro s k i h hj c hi hf hb n
    exact preemptSave_saves h hj hi hf hb rfl

end

section
/-! PROOFS. Launches: the queues, the record that the sequencer takes, launches of task lists and of tile words, and retirement. -/
namespace Sys2Proof.Machine

/-! ## Launch queues (R359, R360) -/

/-- Some bytes of a write, read back. -/
theorem rd_wr_within (s : State) {a n i : Nat} (v : Nat) (k : Nat) (h : i + k ≤ n) : rd (wr s a n v) (a + i) k = v / 256 ^ i % 256 ^ k := by
  induction k generalizing i with
  | zero => rw [Nat.pow_zero, Nat.mod_one]; rfl
  | succ k ih =>
    have hb : (rdB (wr s a n v) (a + i)).toNat = v / 256 ^ i % 256 := by rw [rdB_wr_in s (by omega), BitVec.toNat_ofNat]
    have hr := ih (i := i + 1) (by omega)
    calc rd (wr s a n v) (a + i) (k + 1) = (rdB (wr s a n v) (a + i)).toNat + 256 * rd (wr s a n v) (a + (i + 1)) k := rfl
      _ = v / 256 ^ i % 256 + 256 * (v / 256 ^ i / 256 % 256 ^ k) := by rw [hb, hr, Nat.pow_succ, Nat.div_div_eq_div_mul]
      _ = v / 256 ^ i % 256 ^ (k + 1) := by rw [Nat.pow_succ', Nat.mod_mul]

theorem lqOf_journal (s : State) (k c q cx : Nat) (tag : BitVec 16) (a : Word) (p : Nat) : lqOf (journal s k c q cx tag a) p = lqOf s p := rfl
theorem lqOf_setLq_self (s : State) (q : Nat) (x : LaunchQ) : lqOf (setLq s q x) q = x := tget_tset_self ..

theorem tailWrite_on {s : State} {q l : Nat} (hen : (lqOf s q).en = true)
    (hl : hubLoc s (lqOf s q).sysq (lqOf s q).ctx (lqOf s q).ctl false = .ok l) {x : LaunchQ}
    (hx : { lqOf s q with tail := BitVec.ofNat 32 (rd s l 4) } = x) :
    tailWrite s q = if 2 ^ x.log2n < x.pending then
        journal (setLq (cleanLine s q) q { x with cfg := setFld x.cfg 20 1 0 }) 4 Code.lqovf.num q 0 0 0
      else setLq (cleanLine s q) q x := by
  subst hx
  have hq : lqOf (cleanLine s q) q = lqOf s q := rfl
  have hh : hubLoc (cleanLine s q) (lqOf s q).sysq (lqOf s q).ctx (lqOf s q).ctl false = .ok l := hl
  unfold tailWrite
  dsimp only
  rw [hq, hh, if_neg (by simp [hen])]
  rfl

theorem en_setFld (x : LaunchQ) : ({ x with cfg := setFld x.cfg 20 1 0 } : LaunchQ).en = false := by
  have h : bit (setFld x.cfg 20 1 0) 20 = false := (getLsbD_setFld_in x.cfg 0 (show 0 < 1 by omega) (by omega)).trans (by decide)
  simp [LaunchQ.en, h]

/-! ## The record that the sequencer takes (R360, R411) -/

/-- A choice of the sequencer moves its credits and pointers. -/
theorem serve_only {s t : State} {q : Nat} (h : serve s = some (q, t)) :
    { t with hub := { t.hub with credit := s.hub.credit, ptr := s.hub.ptr } } = s := by
  unfold serve at h
  split at h
  · cases h
  · dsimp only at h
    split at h
    · cases h
    · cases h
      rfl

/-- What taking the head of a queue leaves. -/
theorem takeHead_only (s : State) (q : Nat) (r : Line) :
    { takeHead s q r with mem := s.mem, hub := { (takeHead s q r).hub with lq := s.hub.lq, jseq := s.hub.jseq, journal := s.hub.journal } } = s := by
  unfold takeHead
  dsimp only
  split <;> rfl

theorem takeHead_hub (s : State) (q : Nat) (r : Line) :
    lqOf (takeHead s q r) q = { lqOf s q with head := (lqOf s q).head + 1 } ∧ (takeHead s q r).hub.jseq = s.hub.jseq + 1 := by
  unfold takeHead
  dsimp only
  split <;> exact ⟨tget_tset_self .., rfl⟩

theorem served?_facts {s t : State} {q : Nat} {r : Line} {test : Line → Bool} (h : served? s q test = some (r, t)) :
    (lqOf t q).head = (lqOf s q).head + 1 ∧ test r = true ∧ t.hub.jseq = s.hub.jseq + 1 ∧ t.cores = s.cores ∧ t.clus = s.clus ∧ t.ctxs = s.ctxs ∧
      t.tiles = s.tiles ∧ t.hub.launches = s.hub.launches ∧ t.hub.orphans = s.hub.orphans := by
  unfold served? at h
  split at h
  · next p u hs =>
    split at h
    · next r' hr =>
      split at h
      · next hc =>
        cases h
        have hu := serve_only hs
        have ht := takeHead_only u q r
        obtain ⟨hhead, hseq⟩ := takeHead_hub u q r
        generalize takeHead u q r = v at ht hhead hseq ⊢
        have hlq : lqOf u q = lqOf s q := (congrArg (fun w : State => lqOf w q) hu :)
        refine ⟨by rw [hhead, hlq], hc.2, by rw [hseq]; exact congrArg (· + 1) (congrArg (fun w : State => w.hub.jseq) hu :),
          (congrArg State.cores ht :).trans (congrArg State.cores hu :), (congrArg State.clus ht :).trans (congrArg State.clus hu :),
          (congrArg State.ctxs ht :).trans (congrArg State.ctxs hu :), (congrArg State.tiles ht :).trans (congrArg State.tiles hu :),
          (congrArg (fun w : State => w.hub.launches) ht :).trans (congrArg (fun w : State => w.hub.launches) hu :),
          (congrArg (fun w : State => w.hub.orphans) ht :).trans (congrArg (fun w : State => w.hub.orphans) hu :)⟩
      · cases h
    · cases h
  · cases h

/-! ## A launch in flight (R49, R50, R362) -/

/-- The start of a launch changes its context and the hub. -/
theorem launchIn_only (s : State) (l : Launch) (gs : List (Nat × Bank)) : { launchIn s l gs with hub := s.hub, ctxs := s.ctxs } = s := rfl

theorem launchIn_hub (s : State) (l : Launch) (gs : List (Nat × Bank)) :
    (launchIn s l gs).hub.launches = s.hub.launches ++ [l] ∧ (launchIn s l gs).hub.orphans = s.hub.orphans := by
  unfold launchIn
  dsimp only
  refine ⟨?_, ?_⟩
  · split_ifs <;> rfl
  · split_ifs <;> rfl

theorem launchIn_ctx (s : State) (l : Launch) (gs : List (Nat × Bank)) :
    (ctx (launchIn s l gs) l.ctx).gptr = l.gptr ∧ (ctx (launchIn s l gs) l.ctx).sw = (ctx s l.ctx).sw ∧ (ctx (launchIn s l gs) l.ctx).d = (ctx s l.ctx).d := by
  unfold launchIn
  dsimp only
  rw [ctx_setCtx_self]
  refine ⟨rfl, ?_, ?_⟩
  · split_ifs <;> rfl
  · split_ifs <;> rfl

theorem frameHome_launchIn (s : State) (l : Launch) (gs : List (Nat × Bank)) (d : Nat) (f : Word) :
    frameHome (launchIn s l gs) l.ctx d f = frameHome s l.ctx d f := by
  obtain ⟨-, hsw, hd⟩ := launchIn_ctx s l gs
  have hc : ctxD (launchIn s l gs) l.ctx = ctxD s l.ctx := funext fun j => by rw [ctxD, ctxD, hd]
  simp only [frameHome, swImage, hsw, hc]

/-- A launch that starts without records adds no live record. -/
theorem liveAll_launchIn (s : State) {l : Launch} (gs : List (Nat × Bank)) (h : l.recs = []) : liveAll (launchIn s l gs) = liveAll s := by
  obtain ⟨hl, ho⟩ := launchIn_hub s l gs
  simp [liveAll, hl, ho, h]

/-! ## Task lists (R37, R50, R362) -/

theorem taskList_refused {s t : State} {q : Nat} {r : Line} {c : Code}
    (hv : served? s q (fun r => decide (lKind r = 1) || decide (3 ≤ lKind r) || (decide (lKind r = 2) && !cmdListed (lCmd r))) = some (r, t))
    (hc : lrecFail s q r = some c ∨ (lrecFail s q r = none ∧ lKind r = 1 ∧ launchChecks s (lqOf s q).ctx r = .error c)) :
    exec (.taskListLaunch q) s = .next (bump (refuse t q r c)) := by
  refine congrArg Host.Outcome.next (show taskList s q = _ from ?_)
  unfold taskList
  rw [hv]
  dsimp only
  rcases hc with hf | ⟨hf, hk, hg⟩
  · rw [hf]
  · rw [hf, hg]
    exact if_neg (by omega)

/-- With good checks the launch is in flight, and its records are pushed. -/
theorem taskList_launches {s t : State} {q : Nat} {r : Line} {gs : List (Nat × Bank)} {rs : List Rec}
    (hv : served? s q (fun r => decide (lKind r = 1) || decide (3 ≤ lKind r) || (decide (lKind r = 2) && !cmdListed (lCmd r))) = some (r, t))
    (hf : lrecFail s q r = none) (hk : lKind r = 1) (hg : launchChecks s (lqOf s q).ctx r = .ok gs)
    (hr : listRecs s (lqOf s q).ctx (lDie r) (!(lqOf s q).sysq) (lw r 8) (lCount r) = .ok rs) :
    exec (.taskListLaunch q) s =
      .next (bump (rs.foldl (launchPush (lqOf s q).ctx (lDie r) (newTag s)) (launchIn t (launchFrom s q r) gs))) := by
  refine congrArg Host.Outcome.next (show taskList s q = _ from ?_)
  unfold taskList
  rw [hv]
  dsimp only
  rw [hf, hg]
  dsimp only
  rw [hr, if_neg (by omega)]
  rfl

/-- A list of one record that waits for completions. -/
theorem taskList_one {s t : State} {q a n : Nat} {r : Line} {gs : List (Nat × Bank)} {e : Rec}
    (hv : served? s q (fun r => decide (lKind r = 1) || decide (3 ≤ lKind r) || (decide (lKind r = 2) && !cmdListed (lCmd r))) = some (r, t))
    (hf : lrecFail s q r = none) (hk : lKind r = 1) (hg : launchChecks s (lqOf s q).ctx r = .ok gs)
    (hr : listRecs s (lqOf s q).ctx (lDie r) (!(lqOf s q).sysq) (lw r 8) (lCount r) = .ok [e]) (hj : e.join ≠ 0)
    (htag : ∀ x ∈ s.hub.launches, x.tag ≠ newTag s) (hn : 16 * lDie r + frClu e.w1 = n) (hnew : ((lqOf s q).ctx, n, e.w1) ∉ liveAll s)
    (ha : frameHome s (lqOf s q).ctx (lDie r) e.w1 = a) :
    ∃ u, exec (.taskListLaunch q) s = .next u ∧ u.hub.launches = s.hub.launches ++ [{ launchFrom s q r with recs := [(n, e.w1)] }] ∧
      (ctx u (lqOf s q).ctx).gptr = lw r 1 ∧ rdRec u a = e ∧ u.cores = s.cores ∧ u.clus = s.clus ∧ ∀ b, b < a ∨ a + 67 ≤ b → rdB u b = rdB t b := by
  obtain ⟨-, -, -, hcores, hclus, hctxs, -, hls, hos⟩ := served?_facts hv
  refine ⟨_, taskList_launches hv hf hk hg hr, ?_⟩
  have hpush : [e].foldl (launchPush (lqOf s q).ctx (lDie r) (newTag s)) (launchIn t (launchFrom s q r) gs) =
      liveRec (launchIn t (launchFrom s q r) gs) (lqOf s q).ctx (lDie r) (newTag s) e := if_neg hj
  have hlive : liveAll (launchIn t (launchFrom s q r) gs) = liveAll s := by
    rw [liveAll_launchIn t gs rfl, liveAll, liveAll, hls, hos]
  have hhome : frameHome (launchIn t (launchFrom s q r) gs) (lqOf s q).ctx (lDie r) e.w1 = a :=
    (frameHome_launchIn t (launchFrom s q r) gs _ _).trans ((frameHome_congr hctxs ..).trans ha)
  obtain ⟨uonly, urec, -, -, uout, ulaunch⟩ := liveRec_new_spec (newTag s) hhome hn (by rw [hlive]; exact hnew)
  obtain ⟨hgptr, -, -⟩ := launchIn_ctx t (launchFrom s q r) gs
  rw [(launchIn_hub t (launchFrom s q r) gs).1] at ulaunch
  rw [hpush]
  have hin := launchIn_only t (launchFrom s q r) gs
  generalize launchIn t (launchFrom s q r) gs = v at uonly uout ulaunch hgptr hin hlive hhome urec ⊢
  generalize liveRec v (lqOf s q).ctx (lDie r) (newTag s) e = u at uonly urec uout ulaunch ⊢
  refine ⟨?_, ?_, urec, ?_, ?_, fun b hb => (uout b hb).trans (rdB_congr (congrArg State.mem hin :) b)⟩
  · rw [bump_hub, ulaunch, hls, List.map_append]
    refine congrArg₂ (· ++ ·) ((List.map_congr_left fun x hx => if_neg (htag x hx)).trans (List.map_id' _)) ?_
    simp [launchFrom]
  · exact (congrArg Ctx.gptr (ctx_congr (congrArg State.ctxs uonly :) _)).trans hgptr
  · exact ((congrArg State.cores uonly :).trans (congrArg State.cores hin :)).trans hcores
  · exact ((congrArg State.clus uonly :).trans (congrArg State.clus hin :)).trans hclus

/-! ## Launches of one tile word (R49, R275, R362) -/

/-- A word that is accepted, last, and whose reads spoil the words in whose staging regions they fall. -/
theorem wordTouch_last (s : State) (ls : List (Nat × Nat)) {y : TileW} {id : Nat} {ts : List TileW} (hy : y.id = id) (h : s.tiles = ts ++ [y]) :
    ∃ old, (wordTouch s id ls).tiles = old ++ [y] ∧ old.length = ts.length ∧
      ∀ (n : Nat) (x : TileW), ts[n]? = some x → old[n]? = some x ∨ old[n]? = some { x with spoilt := true } := by
  refine ⟨ts.map (fun u => if u.id ≠ id ∧ ls.any (fun e => stageHit s e.1 e.2 u) = true then { u with spoilt := true } else u), ?_, List.length_map ..,
    fun n x hx => ?_⟩
  · rw [wordTouch, h, List.map_append]
    exact congrArg (_ ++ [·]) (if_neg fun hn => hn.1 hy)
  · rw [List.getElem?_map, hx, Option.map_some]
    split
    · exact Or.inr rfl
    · exact Or.inl rfl

section
variable {s t : State} {q : Nat} {r : Line} (hv : served? s q (fun r => decide (lKind r = 0)) = some (r, t))
include hv

theorem tileLaunch_refused {c : Code} (hc : lrecFail s q r = some c ∨ (lrecFail s q r = none ∧ launchChecks s (lqOf s q).ctx r = .error c)) :
    exec (.tileWordLaunch q) s = .next (bump (refuse t q r c)) := by
  refine congrArg Host.Outcome.next (show tileLaunch s q = _ from ?_)
  unfold tileLaunch
  rw [hv]
  dsimp only
  rcases hc with hf | ⟨hf, hg⟩
  · rw [hf]
  · rw [hf, hg]

variable (hf : lrecFail s q r = none) {gs : List (Nat × Bank)} (hg : launchChecks s (lqOf s q).ctx r = .ok gs) {l : Launch}
  (hl : { launchFrom s q r with word := some t.nextId } = l) {w : TileW} (hw : launchWord t q r (launchFrom s q r).tag = w)
include hf hg hl hw

theorem tileLaunch_misdecoded {i : FaultInfo} (hd : tileDecode (launchIn t l gs) w = .error i) (h4 : twLevel w.word ≠ 4) :
    exec (.tileWordLaunch q) s = .next (bump (refuse t q r i.code)) := by
  subst hl hw
  refine congrArg Host.Outcome.next (show tileLaunch s q = _ from ?_)
  unfold tileLaunch
  rw [hv]
  dsimp only
  rw [hf, hg]
  dsimp only at hd ⊢
  rw [hd]
  exact if_pos h4

theorem tileLaunch_accepted {w' : TileW} (hd : tileDecode (launchIn t l gs) w = .ok w') :
    ∃ u, exec (.tileWordLaunch q) s = .next u ∧ u.hub.launches = s.hub.launches ++ [l] ∧ u.mem = t.mem ∧ u.cores = s.cores ∧
      ∃ old, u.tiles = old ++ [{ w' with stage := .accepted, deps := tileDeps (launchIn t l gs) w }] ∧ old.length = s.tiles.length ∧
        ∀ (n : Nat) (x : TileW), s.tiles[n]? = some x → old[n]? = some x ∨ old[n]? = some { x with spoilt := true } := by
  obtain ⟨-, -, -, hcores, -, -, htiles, hls, -⟩ := served?_facts hv
  have hexec : exec (.tileWordLaunch q) s = .next (bump (wordTouch { launchIn t l gs with
      nextId := (launchIn t l gs).nextId + 1
      tiles := (launchIn t l gs).tiles ++ [{ w' with stage := .accepted, deps := tileDeps (launchIn t l gs) w }] } w.id (decRanges (launchIn t l gs) w'))) := by
    subst hl hw
    refine congrArg Host.Outcome.next (show tileLaunch s q = _ from ?_)
    unfold tileLaunch
    rw [hv]
    dsimp only
    rw [hf, hg]
    dsimp only at hd ⊢
    rw [hd]
  have hin := launchIn_only t l gs
  have hhub := (launchIn_hub t l gs).1
  have hid : w'.id = w.id := (congrArg TileW.id (tileDecode_only hd) :)
  generalize launchIn t l gs = v at hexec hin hhub ⊢
  have hvt : v.tiles = s.tiles := (congrArg State.tiles hin :).trans htiles
  refine ⟨_, hexec, ?_, ?_, ?_, ?_⟩
  · exact hhub.trans (by rw [hls])
  · exact (congrArg State.mem hin :)
  · exact (congrArg State.cores hin :).trans hcores
  · obtain ⟨old, htouch, hlen, hold⟩ := wordTouch_last (y := { w' with stage := .accepted, deps := tileDeps v w }) (s := { v with
      nextId := v.nextId + 1, tiles := v.tiles ++ [{ w' with stage := .accepted, deps := tileDeps v w }] }) (decRanges v w') hid rfl
    exact ⟨old, htouch, by rw [hlen, hvt], by rw [← hvt]; exact hold⟩

end

/-! ## Retirement (R50, R363) -/

/-- The status word without a fault code. -/
theorem status_toNat {result : Nat} (degr : Bool) (tag : BitVec 16) (h : result < 4) :
    (cmpStatus result 0 degr tag).toNat = result + b2n degr * 2 ^ 24 + tag.toNat * 2 ^ 32 := by
  have hd : b2n degr ≤ 1 := by cases degr <;> decide
  have ht := tag.isLt
  rw [cmpStatus, BitVec.toNat_ofNat, Nat.zero_mul, Nat.add_zero]
  exact Nat.mod_eq_of_lt (by omega)

/-- The end of a launch: the journal, then the completion as one write. -/
theorem finish_writes {s : State} {q cx jk result code jcx p : Nat} {sysq degr : Bool} {ca cv : Word} {tag : BitVec 16} (h0 : ca ≠ 0)
    (ha : fld ca 0 4 = 0) (hp : hubLoc s sysq cx ca true = .ok p) :
    finish s q cx sysq ca cv jk result code degr tag jcx =
      wr (journal s jk code q jcx tag (cmpStatus result code degr tag)) p 16 (cv.toNat + (cmpStatus result code degr tag).toNat * 2 ^ 64) := by
  unfold finish
  dsimp only
  rw [if_neg (by rintro (h | h); exacts [h0 h, h ha]), show hubLoc (journal s jk code q jcx tag (cmpStatus result code degr tag)) sysq cx ca true = .ok p from hp]

/-- The completion's two doublewords (R363). -/
theorem rd_completion_val (s : State) (p : Nat) (v w : Word) : rd (wr s p 16 (v.toNat + w.toNat * 2 ^ 64)) p 8 = v.toNat := by
  have h := rd_wr_within s (a := p) (n := 16) (i := 0) (v.toNat + w.toNat * 2 ^ 64) 8 (by omega)
  rw [Nat.add_zero, Nat.pow_zero, Nat.div_one, show 256 ^ 8 = 2 ^ 64 from rfl, Nat.add_mul_mod_self_right, Nat.mod_eq_of_lt v.isLt] at h
  exact h

theorem rd_completion_status (s : State) (p : Nat) (v w : Word) : rd (wr s p 16 (v.toNat + w.toNat * 2 ^ 64)) (p + 8) 8 = w.toNat := by
  have h := rd_wr_within s (a := p) (n := 16) (i := 8) (v.toNat + w.toNat * 2 ^ 64) 8 (by omega)
  rw [show 256 ^ 8 = 2 ^ 64 from rfl, Nat.add_mul_div_right _ _ (by omega), Nat.div_eq_of_lt v.isLt, Nat.zero_add, Nat.mod_eq_of_lt w.isLt] at h
  exact h

/-- A launch is no longer in flight; what is left of its records belongs to its context alone. -/
def launchGone (s : State) (l : Launch) : State :=
  { s with hub := { s.hub with
    launches := s.hub.launches.filter (fun k => decide (k.tag ≠ l.tag)), orphans := s.hub.orphans ++ l.recs.map (fun e => (l.ctx, e)) } }

theorem launchGone_facts (s : State) (l : Launch) (k c q cx : Nat) (tag : BitVec 16) (w : Word) :
    let t := journal (launchGone s l) k c q cx tag w
    t.hub.launches = s.hub.launches.filter (fun k => decide (k.tag ≠ l.tag)) ∧ t.hub.jseq = s.hub.jseq + 1 ∧ t.cores = s.cores ∧ t.clus = s.clus ∧
      t.mem = s.mem := ⟨rfl, rfl, rfl, rfl, rfl⟩

theorem retire_eq {s : State} {l : Launch} (hf : s.hub.launches.find? (fun k => decide (k.tag = l.tag)) = some l) (hr : retired s l = true) :
    retire s l.tag.toNat = finish (launchGone s l) l.q l.ctx l.sysq l.cmpaddr l.cmpval 2 (if l.stopped then 3 else if l.failed.isSome then 1 else 0)
      (l.failed.elim 0 Code.num) l.degr l.tag l.ctx := by
  have hfind : s.hub.launches.find? (fun k => decide (k.tag.toNat = l.tag.toNat)) = some l := by
    rw [← hf]
    exact congrArg (s.hub.launches.find? ·) (funext fun k => decide_eq_decide.mpr BitVec.toNat_inj)
  unfold retire
  rw [hfind]
  dsimp only
  rw [if_neg (by simp [hr])]
  rfl

theorem retire_completes {s : State} {l : Launch} (hf : s.hub.launches.find? (fun k => decide (k.tag = l.tag)) = some l) (hr : retired s l = true)
    (h0 : l.cmpaddr ≠ 0) (ha : fld l.cmpaddr 0 4 = 0) {p : Nat} (hp : hubLoc s l.sysq l.ctx l.cmpaddr true = .ok p) {result : Nat}
    (hres : (if l.stopped then 3 else if l.failed.isSome then 1 else 0) = result) :
    ∃ t, exec (.launchRetire l.tag.toNat) s = .next t ∧ t.hub.launches = s.hub.launches.filter (fun k => decide (k.tag ≠ l.tag)) ∧
      rd t p 8 = l.cmpval.toNat ∧ (l.failed = none → rd t (p + 8) 8 = result + b2n l.degr * 2 ^ 24 + l.tag.toNat * 2 ^ 32) ∧
      t.hub.jseq = s.hub.jseq + 1 ∧ t.cores = s.cores ∧ t.clus = s.clus ∧ ∀ b, b < p ∨ p + 16 ≤ b → rdB t b = rdB s b := by
  have hexec : exec (.launchRetire l.tag.toNat) s = .next (retire s l.tag.toNat) := rfl
  have hgone : hubLoc (launchGone s l) l.sysq l.ctx l.cmpaddr true = .ok p := hp
  have hlt : result < 4 := by rw [← hres]; split_ifs <;> omega
  rw [retire_eq hf hr, hres, finish_writes h0 ha hgone] at hexec
  obtain ⟨hls, hseq, hcores, hclus, hmem⟩ := launchGone_facts s l 2 (l.failed.elim 0 Code.num) l.q l.ctx l.tag
    (cmpStatus result (l.failed.elim 0 Code.num) l.degr l.tag)
  generalize journal (launchGone s l) 2 (l.failed.elim 0 Code.num) l.q l.ctx l.tag (cmpStatus result (l.failed.elim 0 Code.num) l.degr l.tag) = u
    at hexec hls hseq hcores hclus hmem
  have hst := rd_completion_status u p l.cmpval (cmpStatus result (l.failed.elim 0 Code.num) l.degr l.tag)
  exact ⟨_, hexec, hls, rd_completion_val .., fun hn => hst.trans (by rw [hn]; exact status_toNat l.degr l.tag hlt), hseq, hcores, hclus,
    fun b hb => (rdB_wr_out u hb).trans (rdB_congr hmem b)⟩

end Sys2Proof.Machine

open Sys2Proof hiding core
open Sys2Proof.Machine

/-- Settles O55: a launch record is taken by moving HEAD, and what follows from its checks is one case each; a retirement is one write. -/
theorem launches : Obligations.Launches := by
  refine ⟨?_, ?_, ?_, ?_, ?_, ?_⟩
  · intro s q l hen hl x
    have hexec : exec (.launchQueueTailWrite q) s = .next (tailWrite s q) := rfl
    rw [tailWrite_on hen hl rfl] at hexec
    refine ⟨fun h => hexec.trans (congrArg _ (if_neg (Nat.not_lt.mpr h))), fun h => ⟨_, hexec.trans (congrArg _ (if_pos h)), ?_, ?_, rfl, rfl, rfl⟩⟩
    · rw [lqOf_journal, lqOf_setLq_self]
      exact en_setFld x
    · rw [lqOf_journal, lqOf_setLq_self]
  · intro s t q r test h
    obtain ⟨hhead, htest, hseq, hcores, hclus, hctxs, -, -, -⟩ := served?_facts h
    exact ⟨hhead, htest, hseq, hcores, hclus, hctxs⟩
  · intro s t q r gs e hv hf hk hg hr hj htag hnew a
    obtain ⟨u, hexec, hls, hgptr, hrec, hcores, hclus, hout⟩ := taskList_one hv hf hk hg hr hj htag rfl hnew rfl
    exact ⟨u, _, hexec, hls, rfl, rfl, rfl, hk, rfl, rfl, rfl, rfl, rfl, hgptr, hrec, hcores, hclus, hout⟩
  · intro s t q r hv
    refine ⟨fun c hc => tileLaunch_refused hv (Or.inl hc), fun hf => ⟨fun c hc => tileLaunch_refused hv (Or.inr ⟨hf, hc⟩), fun gs hg => ?_⟩⟩
    intro l w
    refine ⟨?_, ?_⟩
    · exact fun i hd h4 => tileLaunch_misdecoded hv hf hg rfl rfl hd h4
    · exact fun w' hd => tileLaunch_accepted hv hf hg rfl rfl hd
  · intro s t q r c hv hc
    exact taskList_refused hv hc
  · intro s l hf hr h0 ha p hp result
    exact retire_completes hf hr h0 ha hp rfl

end

section
/-! PROOFS. What the statements of spec/03_numbers_and_integer_arithmetic.md stand on: bit fields as numbers, results in flight, what the commit
of an instruction leaves of the state that its effects have made, and writes of scale registers. -/
namespace Sys2Proof.Machine

/-! ## Bit fields -/

theorem fld_eq_div {n : Nat} (x : BitVec n) (lo len : Nat) : fld x lo len = x.toNat / 2 ^ lo % 2 ^ len := by
  rw [fld, BitVec.extractLsb'_toNat, Nat.shiftRight_eq_div_pow]

/-- Every bit of a pattern of which one field is written. -/
theorem getLsbD_setFld {n : Nat} (x : BitVec n) {lo len : Nat} (v i : Nat) (hn : lo + len ≤ n) :
    (setFld x lo len v).getLsbD i = if lo ≤ i ∧ i < lo + len then v.testBit (i - lo) else x.getLsbD i := by
  split
  · next h =>
    obtain ⟨j, rfl⟩ := Nat.exists_eq_add_of_le h.1
    rw [getLsbD_setFld_in x v (by omega) hn, Nat.add_sub_cancel_left]
  · next h => exact getLsbD_setFld_out x v (by omega)

/-- A field takes the low bits of what is written. -/
theorem setFld_mod {n : Nat} (x : BitVec n) (lo len v : Nat) : setFld x lo len (v % 2 ^ len) = setFld x lo len v := by
  have h : BitVec.ofNat len (v % 2 ^ len) = BitVec.ofNat len v := by
    apply BitVec.eq_of_toNat_eq
    simp
  rw [setFld, setFld, h]

/-- A field written with its own value. -/
theorem setFld_fld {n : Nat} (x : BitVec n) {lo len : Nat} (hn : lo + len ≤ n) : setFld x lo len (fld x lo len) = x := by
  refine BitVec.eq_of_getLsbD_eq fun i _ => ?_
  rw [getLsbD_setFld x _ i hn]
  split
  · next h =>
    rw [fld_eq_div, Nat.testBit_mod_two_pow, Nat.testBit_div_two_pow, show decide (i - lo < len) = true by simp; omega, Bool.true_and,
      Nat.sub_add_cancel h.1]
    rfl
  · rfl

theorem b2n_bit {n : Nat} (x : BitVec n) (i : Nat) : b2n (bit x i) = fld x i 1 := by
  rw [fld_eq_div, bit, BitVec.getLsbD, Nat.testBit_eq_decide_div_mod_eq, b2n]
  have := Nat.mod_two_eq_zero_or_one (x.toNat / 2 ^ i)
  rcases this with h | h <;> simp [h]

/-! ## Results in flight (R126, R128) -/

/-- A result with a bound above 1 changes nothing but what is in flight. -/
theorem putAt_only (c : Core) {b : Nat} (d : PDst) (hb : 1 < b) : { putAt c b d with pend := c.pend, land := c.land } = c := by
  unfold putAt
  split
  · rw [if_neg (by omega)]
  · rfl

/-- The latest write of a register is the first of those in flight to it. -/
theorem find?_putAt_self (c : Core) {b : Nat} (d : PDst) (hb : 1 < b) :
    ∃ r, (putAt c b d).pend.find? (fun p => p.dst.name = d.name) = some ⟨r, d⟩ := by
  unfold putAt
  split
  · rw [if_neg (by omega)]
    exact ⟨_, List.find?_cons_of_pos (by simp)⟩
  · exact ⟨_, List.find?_cons_of_pos (by simp)⟩

theorem find?_putAt_ne (c : Core) {b : Nat} {d : PDst} {nm : Nat × Nat} (hb : 1 < b) (h : d.name ≠ nm) :
    (putAt c b d).pend.find? (fun p => p.dst.name = nm) = c.pend.find? (fun p => p.dst.name = nm) := by
  unfold putAt
  split
  · rw [if_neg (by omega)]
    exact List.find?_cons_of_neg (by simpa using h)
  · refine (List.find?_cons_of_neg (by simpa using h)).trans ?_
    rw [takeOver, List.find?_filter]
    congr 1
    funext p
    by_cases hp : p.dst.name = nm
    · simp [hp, h.symm]
    · simp [hp]

/-- A write marks landing entries as overtaken and changes nothing else of them. -/
theorem landings_putAt (c : Core) {b : Nat} (d : PDst) (hb : 1 < b) : landings (putAt c b d) = landings c := by
  unfold putAt
  split
  · rw [if_neg (by omega)]
    rfl
  · simp only [landings, takeOver, List.map_map]
    refine List.map_congr_left fun l _ => ?_
    simp only [Function.comp_apply]
    split <;> rfl

theorem scaleLater_congr {c e : Core} {n : Nat} (hp : e.pend.find? (fun p => p.dst.name = (2, n)) = c.pend.find? (fun p => p.dst.name = (2, n)))
    (hs : e.sc = c.sc) : scaleLater e n = scaleLater c n := by
  rw [scaleLater, scaleLater, hp, hs]

theorem vecLater_congr {c e : Core} {n : Nat} (hp : e.pend.find? (fun p => p.dst.name = (1, n)) = c.pend.find? (fun p => p.dst.name = (1, n)))
    (hv : e.v = c.v) : vecLater e n = vecLater c n := by
  rw [vecLater, vecLater, hp, hv]

@[simp] theorem scaleLater_putAt_self (c : Core) {b n : Nat} (r : ScReg) (hb : 1 < b) : scaleLater (putAt c b (.sc n r)) n = r := by
  obtain ⟨t, h⟩ := find?_putAt_self c (.sc n r) hb
  rw [scaleLater, show (2, n) = (PDst.sc n r).name from rfl, h]

theorem scaleLater_putAt_ne (c : Core) {b n : Nat} {d : PDst} (hb : 1 < b) (h : d.name ≠ (2, n)) : scaleLater (putAt c b d) n = scaleLater c n :=
  scaleLater_congr (find?_putAt_ne c hb h) (congrArg Core.sc (putAt_only c d hb) :)

@[simp] theorem vecLater_putAt_self (c : Core) {b n : Nat} (r : VReg) (hb : 1 < b) : vecLater (putAt c b (.v n r)) n = r := by
  obtain ⟨t, h⟩ := find?_putAt_self c (.v n r) hb
  rw [vecLater, show (1, n) = (PDst.v n r).name from rfl, h]

theorem vecLater_putAt_ne (c : Core) {b n : Nat} {d : PDst} (hb : 1 < b) (h : d.name ≠ (1, n)) : vecLater (putAt c b d) n = vecLater c n :=
  vecLater_congr (find?_putAt_ne c hb h) (congrArg Core.v (putAt_only c d hb) :)

theorem putAt_waits (c : Core) {b : Nat} (d : PDst) (hb : 1 < b) : (putAt c b d).wait = c.wait ∧ (putAt c b d).mwait = c.mwait :=
  ⟨(congrArg Core.wait (putAt_only c d hb) :), (congrArg Core.mwait (putAt_only c d hb) :)⟩

/-! ## The issue of an instruction in an open slot (R129 to R131) -/

theorem on_of_open {s : State} {o : SlotOp} (h : Open s o.slot o.guard) : o.on (cur s) = true := by
  obtain ⟨-, -, hg, hm⟩ := h
  simp [SlotOp.on, hg, hm]

/-- The limits of R92 let an instruction issue that makes no request. -/
theorem roomOk_unasked {s : State} {o : SlotOp} (hr : o.reqs s = (0, 0)) : roomOk s [o] = true := by
  by_cases hon : o.on (cur s) = true <;> simp [roomOk, reqSum, hon, hr]

/-- The limits of R92 let an instruction issue that makes one request, whose reply takes n bytes. -/
theorem roomOk_request {s : State} {o : SlotOp} {n : Nat} (hon : o.on (cur s) = true) (hr : o.reqs s = (1, n)) (h : RoomFor s n) :
    roomOk s [o] = true := by
  obtain ⟨hout, hlehr, hacq⟩ := h
  simp [roomOk, reqSum, hon, hr, hout, hlehr, hacq]

/-- An instruction that its slot, the limits of R92 and its own checks let through. -/
theorem issues_of_open {s : State} {o : SlotOp} (h : Open s o.slot o.guard) (hl : o.legal s = true) (hr : roomOk s [o] = true)
    (hadm : o.admits s = true) (hch : o.check s 0 = none) (hp : o.pread s = none) (hpr : o.probe s = 0) (ha : o.cost s = none)
    (hi : o.issued s = 0) : Issues s o := by
  obtain ⟨hocc, hbusy, -, -⟩ := h
  refine ⟨hocc, by simp [hl], by simp [resBusy, hbusy], hr, fun _ => ⟨hadm, hp, by omega, by rw [hi]; exact hch, fun h => by omega⟩, Or.inl ha⟩

/-! ## What the commit leaves of the state that the effects have made (R130, R131) -/

/-- The commit of an instruction without a wait, a charge or a transfer, whose effects lead to `w`. -/
theorem commit_effects {s w : State} {o : SlotOp} (hon : o.on (cur s) = true) (he : effects s [o] s = w) (hl : ∀ t, o.late s t = t)
    (hc : o.ctl s = .seq) (hk : o.commits s = false) (ha : o.cost s = none) (hi : o.issued s = 0)
    (hw : (cur w).wait = (cur s).wait ∧ (cur w).mwait = (cur s).mwait) :
    commit s [o] = retired1 (bundleOrder s [o] w) o.slot (o.occ s) id := by
  have e2 : lates s [o] w = w := by simp [lates, hl]
  have e4 : ctlOf s [o] = .seq := by simp [ctlOf, hon, hc]
  have e5 : issuedOf s [o] = 0 := by simp [issuedOf, hon, hi]
  have e6 : costOf s [o] = none := by simp [costOf, ha]
  have hold := cur_bundleOrder s [o] w
  have e7 := settle_same [o] .seq (p := s) (s := bundleOrder s [o] w) ((congrArg Core.wait hold :).trans hw.1) ((congrArg Core.mwait hold :).trans hw.2)
  simp [commit, he, e2, e4, e5, e6, e7, hon, hk, control, afterCommit, retired1, occupy, leave, modCur]

theorem bundleOrder_unnamed {s w : State} (ops : List SlotOp) (h : w.nextId = s.nextId) : bundleOrder s ops w = w := if_pos h

theorem retired1_modCur (s : State) (slot occ : Nat) (f : Core → Core) : retired1 (modCur s f) slot occ id = retired1 s slot occ f := by
  simp [retired1]

/-- The commit of an instruction whose effects change the current core alone, scale registers among its destinations. -/
theorem commit_core {s : State} {o : SlotOp} {f : Core → Core} (hon : o.on (cur s) = true) (he : effects s [o] s = modCur s f)
    (hl : ∀ t, o.late s t = t) (hc : o.ctl s = .seq) (hk : o.commits s = false) (ha : o.cost s = none) (hi : o.issued s = 0)
    (hw : (f (cur s)).wait = (cur s).wait ∧ (f (cur s)).mwait = (cur s).mwait) : commit s [o] = retired1 s o.slot (o.occ s) f := by
  rw [commit_effects hon he hl hc hk ha hi (by simpa using hw), bundleOrder_unnamed _ (modCur_nextId ..), retired1_modCur]

theorem cur_retired1 (s : State) (slot occ : Nat) (f : Core → Core) : cur (retired1 s slot occ f) = tick (seqPc (leave slot occ (f (cur s)))) := by
  rw [retired1, cur_bump, cur_modCur]

theorem onlyCore_retired1 (s : State) (slot occ : Nat) (f : Core → Core) : OnlyCore s (retired1 s slot occ f) :=
  ⟨rfl, fun _ hk => (core_bump ..).trans (core_modCur_ne _ _ hk)⟩

/-- What a core holds besides the fields that every issue moves. -/
theorem steady_cur_retired1 (s : State) (slot occ : Nat) (f : Core → Core) (c : Core) :
    { steady c (cur (retired1 s slot occ f)) with joincnt := c.joincnt } = { steady c (f (cur s)) with joincnt := c.joincnt } := by
  rw [cur_retired1]
  exact steady_retired slot occ c fun _ => f (cur s)

/-- The registers after an issue, and what is in flight to them. -/
theorem retired1_regs (s : State) (slot occ : Nat) (f : Core → Core) :
    let c := cur (retired1 s slot occ f)
    c.x = (f (cur s)).x ∧ c.v = (f (cur s)).v ∧ c.sc = (f (cur s)).sc ∧ c.pend = (f (cur s)).pend ∧ c.land = (f (cur s)).land := by
  have h := steady_cur_retired1 s slot occ f {}
  exact ⟨(congrArg Core.x h :), (congrArg Core.v h :), (congrArg Core.sc h :), (congrArg Core.pend h :), (congrArg Core.land h :)⟩

theorem scaleLater_retired1 (s : State) (slot occ n : Nat) (f : Core → Core) :
    scaleLater (cur (retired1 s slot occ f)) n = scaleLater (f (cur s)) n := by
  obtain ⟨-, -, hs, hp, -⟩ := retired1_regs s slot occ f
  exact scaleLater_congr (by rw [hp]) hs

theorem vecLater_retired1 (s : State) (slot occ n : Nat) (f : Core → Core) :
    vecLater (cur (retired1 s slot occ f)) n = vecLater (f (cur s)) n := by
  obtain ⟨-, hv, -, hp, -⟩ := retired1_regs s slot occ f
  exact vecLater_congr (by rw [hp]) hv

theorem landings_retired1 (s : State) (slot occ : Nat) (f : Core → Core) : landings (cur (retired1 s slot occ f)) = landings (f (cur s)) := by
  obtain ⟨-, -, -, -, hl⟩ := retired1_regs s slot occ f
  rw [landings, hl, landings]

/-! ## Writes of scale registers (R73) -/

/-- A field of a scale register that an update names takes its value. -/
def setOpt (x : ScReg) (lo len : Nat) : Option Nat → ScReg
  | none => x
  | some v => setFld x lo len v

/-- The census of a scale register and its mark, where an update names them. -/
def setCen (x : ScReg) : Option (Nat × Bool) → ScReg
  | none => x
  | some c => setFld (setFld x 8 6 c.1) 14 1 (b2n c.2)

theorem fld_setOpt_apart (x : ScReg) {lo len lo' len' : Nat} (o : Option Nat) (h : lo' + len' ≤ lo ∨ lo + len ≤ lo') :
    fld (setOpt x lo len o) lo' len' = fld x lo' len' := by
  cases o with
  | none => rfl
  | some v => exact fld_setFld_apart x v h

theorem fld_setCen_apart (x : ScReg) {lo len : Nat} (o : Option (Nat × Bool)) (h : lo + len ≤ 8 ∨ 15 ≤ lo) : fld (setCen x o) lo len = fld x lo len := by
  cases o with
  | none => rfl
  | some c => exact (fld_setFld_apart _ _ (by omega)).trans (fld_setFld_apart _ _ (by omega))

/-- A field that an update may name, in a register where it stands as in `old`. -/
theorem setFld_getD {x old : ScReg} {lo len : Nat} (o : Option Nat) (hn : lo + len ≤ 128) (h : fld x lo len = fld old lo len) :
    setFld x lo len (o.getD (fld old lo len)) = setOpt x lo len o := by
  cases o with
  | none => exact (congrArg (setFld x lo len) h.symm).trans (setFld_fld x hn)
  | some v => rfl

/-- The census that the slots of a bundle leave, with its mark: the smallest valid one, else the last, else the old one. -/
def mergedCen (old : ScReg) (pairs : List (Nat × Bool)) : Nat × Bool :=
  let valid := (pairs.filter (·.2)).map (·.1)
  if pairs = [] then (scCen old, scCenv old)
  else if valid = [] then ((pairs.getLastD (0, false)).1, false)
  else (valid.foldl Nat.min 63, true)

/-- The census that one update may name, in a register where it stands as in `old`. -/
theorem setCen_mergedCen {x old : ScReg} {o : Option (Nat × Bool)} (h : ∀ c ∈ o, c.1 ≤ 63) (h8 : fld x 8 6 = fld old 8 6)
    (h14 : fld x 14 1 = fld old 14 1) :
    setFld (setFld x 8 6 (mergedCen old o.toList).1) 14 1 (b2n (mergedCen old o.toList).2) = setCen x o := by
  rcases o with _ | ⟨v, _ | _⟩
  · change setFld (setFld x 8 6 (fld old 8 6)) 14 1 (b2n (bit old 14)) = x
    rw [← h8, setFld_fld x (by omega), b2n_bit, ← h14, setFld_fld x (by omega)]
  · rfl
  · change setFld (setFld x 8 6 (Nat.min 63 v)) 14 1 1 = _
    rw [show Nat.min 63 v = v from Nat.min_eq_right (h _ rfl)]
    rfl

/-- The merge of one slot's update: the fields that it names, and its counts. -/
theorem scMerge_one (old : ScReg) {u : ScUpd} (h : ∀ c ∈ u.cen, c.1 ≤ 63) : scMerge old [u] =
    setFld (setFld (setOpt (setOpt (setOpt (setCen (setOpt old 0 8 u.exp) u.cen) 15 2 u.marg) 17 5 u.fmt) 64 12 u.tidx)
      32 16 (sat16 (u.satc.getD (scSatc old) + u.addS))) 48 16 (sat16 (u.pois.getD (scPois old) + u.addP)) := by
  have hp : [u].filterMap (·.cen) = u.cen.toList := by cases hc : u.cen <;> simp [hc]
  have hm : scMerge old [u] = setFld (setFld (setFld (setFld (setFld (setFld (setFld (setFld old 0 8 (u.exp.getD (fld old 0 8)))
      8 6 (mergedCen old ([u].filterMap (·.cen))).1) 14 1 (b2n (mergedCen old ([u].filterMap (·.cen))).2))
      15 2 (u.marg.getD (fld old 15 2))) 17 5 (u.fmt.getD (fld old 17 5))) 64 12 (u.tidx.getD (fld old 64 12)))
      32 16 (sat16 (u.satc.getD (scSatc old) + u.addS))) 48 16 (sat16 (u.pois.getD (scPois old) + u.addP)) := rfl
  rw [hm, hp, setFld_getD u.exp (by omega) rfl, setCen_mergedCen h (fld_setOpt_apart _ _ (by omega)) (fld_setOpt_apart _ _ (by omega)),
    setFld_getD u.marg (by omega), setFld_getD u.fmt (by omega), setFld_getD u.tidx (by omega)]
  all_goals simp only [fld_setOpt_apart, fld_setCen_apart, Nat.reduceAdd, Nat.reduceLeDiff, or_true]

/-- A count that an update may set, in a register where it stands as in `old`, and to which the update adds nothing. -/
theorem setFld_sat16 {x old : ScReg} {lo : Nat} {o : Option Nat} (ho : ∀ v ∈ o, v < 2 ^ 16) (hn : lo + 16 ≤ 128) (h : fld x lo 16 = fld old lo 16) :
    setFld x lo 16 (sat16 (o.getD (fld old lo 16) + 0)) = setOpt x lo 16 o := by
  have hle : o.getD (fld old lo 16) ≤ 65535 := by
    cases o with
    | none => exact Nat.le_of_lt_succ (fld_lt old lo 16)
    | some v => exact Nat.le_of_lt_succ (ho v rfl)
  rw [Nat.add_zero, sat16, show Nat.min (o.getD (fld old lo 16)) 65535 = _ from Nat.min_eq_left hle, setFld_getD o hn h]

/-- The merge of one slot's update that adds to no count. -/
theorem scMerge_fields (old : ScReg) {u : ScUpd} (h : ∀ c ∈ u.cen, c.1 ≤ 63) (hs : ∀ v ∈ u.satc, v < 2 ^ 16) (hp : ∀ v ∈ u.pois, v < 2 ^ 16)
    (hadd : u.addS = 0 ∧ u.addP = 0) : scMerge old [u] =
    setOpt (setOpt (setOpt (setOpt (setOpt (setCen (setOpt old 0 8 u.exp) u.cen) 15 2 u.marg) 17 5 u.fmt) 64 12 u.tidx) 32 16 u.satc) 48 16 u.pois := by
  rw [scMerge_one old h, hadd.1, hadd.2, scSatc, scPois, setFld_sat16 hs (by omega), setFld_sat16 hp (by omega)]
  all_goals simp only [fld_setOpt_apart, fld_setCen_apart, Nat.reduceAdd, Nat.reduceLeDiff, or_true, true_or]

/-- The effects of an instruction that writes one scale register. -/
theorem effects_scale {s w : State} {o : SlotOp} {u : ScUpd} (hon : o.on (cur s) = true) (he : o.effu s (o.eff s s) = (w, [u]))
    (hw : w.nextId = s.nextId) (hb : 1 ≤ u.bound) : effects s [o] s = wsc w u.bound u.sc (scMerge (rsc s u.sc) [u]) := by
  have hland : (cur w).land.find? (fun l => decide (s.nextId ≤ l.id) && decide (l.id < w.nextId) && l.dst.names.contains (2, u.sc)) = none := by
    refine List.find?_eq_none.mpr fun l _ => ?_
    have h : ¬ (s.nextId ≤ l.id ∧ l.id < s.nextId) := by omega
    rw [hw, ← Bool.decide_and, decide_eq_false h, Bool.false_and]
    exact Bool.false_ne_true
  have hput : putScale s [u] u.sc w = wsc w (Nat.max 1 u.bound) u.sc (scMerge (rsc s u.sc) [u]) := by
    unfold putScale
    rw [hland]
    simp
  have hd : ([u].map (·.sc)).dedup = [u.sc] := by simp
  rw [effects, effectsGo, if_pos hon, he]
  change putScales s w [u] = _
  rw [putScales, hd, List.foldl_cons, List.foldl_nil, hput, show Nat.max 1 u.bound = u.bound from Nat.max_eq_right hb]

/-- The commit of an instruction that changes the core by `f` and writes one scale register at a bound above 1. -/
theorem commit_scale {s : State} {o : SlotOp} {f : Core → Core} {u : ScUpd} {w : State} (hon : o.on (cur s) = true)
    (he : o.effu s (o.eff s s) = (w, [u])) (hf : ∀ g, modCur w g = modCur s (fun c => g (f c))) (hid : w.nextId = s.nextId) (hb : 1 < u.bound)
    (hl : ∀ t, o.late s t = t) (hc : o.ctl s = .seq) (hk : o.commits s = false) (ha : o.cost s = none) (hi : o.issued s = 0)
    (hw : (f (cur s)).wait = (cur s).wait ∧ (f (cur s)).mwait = (cur s).mwait) :
    commit s [o] = retired1 s o.slot (o.occ s) (fun c => putAt (f c) u.bound (.sc u.sc (scMerge (rsc s u.sc) [u]))) := by
  refine commit_core hon ?_ hl hc hk ha hi ?_
  · rw [effects_scale hon he hid (by omega), wsc, hf]
  · obtain ⟨h1, h2⟩ := putAt_waits (f (cur s)) (.sc u.sc (scMerge (rsc s u.sc) [u])) hb
    exact ⟨h1.trans hw.1, h2.trans hw.2⟩

end Sys2Proof.Machine
end

section
/-! PROOFS. Requests of an instruction that stands alone in its bundle: what it starts, and the stores that it makes at once. -/
namespace Sys2Proof.Machine

/-! ## Requests of the slots behind M (R90 to R99) -/

/-- Nothing of the bundle holds back an instruction that stands alone in it (R101, R103, R105, R106). -/
theorem gate_alone {s w : State} {n : Nat} (h : RoomFor s n) (hcur : w.cur = s.cur) (hm : (cur w).mwait = (cur s).mwait)
    (hr : ∀ r ∈ w.reqs, r ∈ s.reqs ∨ r.acq = false) : gate s w = [] := by
  obtain ⟨-, -, hacq⟩ := h
  have h1 : w.reqs.filter (fun r => decide (s.nextId ≤ r.id) && r.core = w.cur && r.acq && r.stage = .out) = [] := by
    refine List.filter_eq_nil_iff.mpr fun r hrw => ?_
    rcases hr r hrw with hr | hr
    · have := List.any_eq_false.mp hacq r hr
      rw [hcur]
      simp only [Bool.and_eq_true] at this ⊢
      exact fun hh => this ⟨⟨hh.1.1.2, hh.1.2⟩, hh.2⟩
    · simp [hr]
  unfold gate
  rw [h1, hm, List.map_nil, List.append_nil]
  split
  · next hn => rw [hn]
  · rfl

theorem heldOwn_alone {s w : State} {n : Nat} (h : RoomFor s n) (hcur : w.cur = s.cur) (hm : (cur w).mwait = (cur s).mwait) (hr : w.reqs = s.reqs)
    (slot : Nat) : heldOwn s w slot = false := by
  rw [heldOwn, gate_alone h hcur hm fun r hw => Or.inl (hr ▸ hw)]
  simp

theorem storesNow_alone {s : State} {n : Nat} (h : RoomFor s n) (ho : ownHeld s = false) (slot : Nat) : storesNow s s slot = true := by
  have hany : s.reqs.any (fun r => decide (s.nextId ≤ r.id) && r.ownOut s.cur) = false := by
    refine List.any_eq_false.mpr fun r hr => ?_
    have := List.any_eq_false.mp ho r hr
    simp [this]
  simp [storesNow, heldOwn_alone h rfl rfl rfl, hany]

/-- Nothing of the bundle holds back the requests of an instruction that stands alone in it, and it puts no result of bound 1 under a landing entry. -/
theorem cur_bundleOrder_alone {s w : State} {o : SlotOp} (hg : gate s w = []) (hn : o.now = []) : cur (bundleOrder s [o] w) = cur w := by
  have hprog : gateProg s [] = id := by
    funext p
    unfold gateProg
    split
    · simp
    · rfl
  have hover : ∀ c, overtake s [o] c = c := fun c => by
    have : ((([o].filter (·.on (cur s))).map (·.now)).flatten) = [] := by
      by_cases hon : o.on (cur s) = true <;> simp [hon, hn]
    simp [overtake, this]
  unfold bundleOrder
  split
  · rfl
  · rw [cur_modCur, hover, hg, hprog]
    simp
    rfl

theorem mem_bundleOrder_old {s w : State} {r : Req} (ops : List SlotOp) (hr : r ∈ w.reqs) (hid : r.id < s.nextId) : r ∈ (bundleOrder s ops w).reqs := by
  unfold bundleOrder
  split
  · exact hr
  · exact List.mem_map.mpr ⟨r, hr, by simp [Nat.not_le.mpr hid]⟩

/-- The order of a bundle's requests shows in what each of them waits for. -/
theorem mem_bundleOrder {s w : State} {r : Req} (ops : List SlotOp) (hr : r ∈ w.reqs) : ∃ d, { r with deps := d } ∈ (bundleOrder s ops w).reqs := by
  unfold bundleOrder
  split
  · exact ⟨r.deps, hr⟩
  · by_cases h : s.nextId ≤ r.id
    · exact ⟨_, List.mem_map.mpr ⟨r, hr, if_pos (decide_eq_true h)⟩⟩
    · exact ⟨r.deps, List.mem_map.mpr ⟨r, hr, if_neg (by simpa using h)⟩⟩

theorem claim_only (c : Core) (l : Landing) : { claim c l with pend := c.pend, land := c.land } = c := by
  have : ∀ (nms : List (Nat × Nat)) (e : Core) (f : Core → Nat × Nat → Core), (∀ e nm, { f e nm with pend := c.pend, land := c.land } = { e with pend := c.pend, land := c.land }) →
      { nms.foldl f e with pend := c.pend, land := c.land } = { e with pend := c.pend, land := c.land } := by
    intro nms
    induction nms with
    | nil => intros; rfl
    | cons nm t ih => exact fun e f hf => (ih _ f hf).trans (hf e nm)
  refine this _ c _ fun e nm => ?_
  split <;> rfl

/-- What an instruction leaves that makes requests and landing entries. -/
theorem startsOnly_retired {s w : State} {o : SlotOp} (slot occ : Nat) (hmem : w.mem = s.mem) (hcur : w.cur = s.cur)
    (hcores : ∀ k, k ≠ s.cur → core w k = core s k) (hreqs : ∀ r ∈ s.reqs, r ∈ w.reqs)
    (hcore : { cur w with pend := (cur s).pend, land := (cur s).land } = cur s) (hord : cur (bundleOrder s [o] w) = cur w) :
    StartsOnly s (retired1 (bundleOrder s [o] w) slot occ id) := by
  refine ⟨fun a => rdB_congr ((bundleOrder_mem ..).trans hmem) a, fun k hk => ?_, fun r hr hid => mem_bundleOrder_old _ (hreqs r hr) hid, ?_⟩
  · have hk' : k ≠ w.cur := by rw [hcur]; exact hk
    rw [retired1, core_bump, core_modCur_ne _ _ (by rw [bundleOrder_cur]; exact hk'), core_bundleOrder_ne _ _ hk', hcores k hk]
  · have h := steady_cur_retired1 (bundleOrder s [o] w) slot occ id (cur s)
    rw [hord] at h
    generalize cur (retired1 (bundleOrder s [o] w) slot occ id) = c at h
    have h' := congrArg (fun c : Core => { c with pend := (cur s).pend, land := (cur s).land, busy := (cur s).busy, trec := (cur s).trec, mmstat := (cur s).mmstat }) h
    exact h'.trans (congrArg (fun c : Core => { steady (cur s) c with
      pend := (cur s).pend, land := (cur s).land, busy := (cur s).busy, joincnt := (cur s).joincnt, trec := (cur s).trec, mmstat := (cur s).mmstat }) hcore)

/-- What an instruction leaves that makes the landing entry `y`, and requests for it in state `v`. -/
theorem addLand_starts {s v : State} {o : SlotOp} {n : Nat} {rs : List Req} (slot occ : Nat) (y : Landing) (hroom : RoomFor s n) (hnow : o.now = [])
    (hmem : v.mem = s.mem) (hcur : v.cur = s.cur) (hcores : v.cores = s.cores) (hreqs : v.reqs = s.reqs ++ rs) (hacq : ∀ r ∈ rs, r.acq = false) :
    ((cur (addLand v y)).wait = (cur s).wait ∧ (cur (addLand v y)).mwait = (cur s).mwait) ∧
    let t := retired1 (bundleOrder s [o] (addLand v y)) slot occ id
    StartsOnly s t ∧ y ∈ (cur t).land ∧ ∀ r ∈ rs, ∃ d, { r with deps := d } ∈ t.reqs := by
  have hc : cur v = cur s := by rw [cur, hcur, core_congr hcores, cur]
  have hcl : cur (addLand v y) = { claim (cur s) y with land := (claim (cur s) y).land ++ [y] } := by rw [addLand, cur_modCur, hc]
  have honly : { cur (addLand v y) with pend := (cur s).pend, land := (cur s).land } = cur s := by
    rw [hcl]
    exact claim_only (cur s) y
  have hwait : (cur (addLand v y)).mwait = (cur s).mwait := (congrArg Core.mwait honly :)
  have hor : ∀ r ∈ (addLand v y).reqs, r ∈ s.reqs ∨ r.acq = false := fun r hr => by
    have hr' : r ∈ s.reqs ++ rs := hreqs ▸ hr
    exact (List.mem_append.mp hr').imp_right (hacq r)
  have hord := cur_bundleOrder_alone (o := o) (gate_alone hroom (w := addLand v y) hcur hwait hor) hnow
  refine ⟨⟨(congrArg Core.wait honly :), hwait⟩, startsOnly_retired slot occ hmem hcur (fun k hk => ?_) (fun r hr => ?_) honly hord, ?_, fun r hr => ?_⟩
  · rw [addLand, core_modCur_ne _ _ (by rw [hcur]; exact hk), core_congr hcores]
  · exact (hreqs ▸ List.mem_append_left rs hr : r ∈ v.reqs)
  · obtain ⟨-, -, -, -, hland⟩ := retired1_regs (bundleOrder s [o] (addLand v y)) slot occ id
    rw [hland, hord, hcl]
    exact List.mem_append_right _ (List.mem_singleton_self y)
  · exact mem_bundleOrder [o] (hreqs ▸ List.mem_append_right s.reqs hr : r ∈ v.reqs)

/-- What an instruction leaves that makes the request `r`. -/
theorem putReq_starts {s : State} {o : SlotOp} {n : Nat} {r : Req} (slot occ : Nat) (hroom : RoomFor s n) (hnow : o.now = []) (hacq : r.acq = false) :
    let t := retired1 (bundleOrder s [o] (putReq s r)) slot occ id
    StartsOnly s t ∧ (cur t).pend = (cur s).pend ∧ (cur t).land = (cur s).land ∧ ∃ d, { r with deps := d } ∈ t.reqs := by
  have hor : ∀ q ∈ (putReq s r).reqs, q ∈ s.reqs ∨ q.acq = false := fun q hq =>
    (List.mem_append.mp hq).imp_right fun hq => by rw [List.mem_singleton.mp hq, hacq]
  have hord : cur (bundleOrder s [o] (putReq s r)) = cur (putReq s r) := cur_bundleOrder_alone (gate_alone hroom rfl rfl hor) hnow
  obtain ⟨-, -, -, hp, hl⟩ := retired1_regs (bundleOrder s [o] (putReq s r)) slot occ id
  exact ⟨startsOnly_retired slot occ rfl rfl (fun _ _ => rfl) (fun q hq => List.mem_append_left _ hq) rfl hord, hp.trans (congrArg Core.pend hord),
    hl.trans (congrArg Core.land hord), mem_bundleOrder [o] (List.mem_append_right s.reqs (List.mem_singleton_self r))⟩

/-! ## Stores to the own scratchpad (R94, R97) -/

theorem wrList_bytesOf (n : Nat) : ∀ (m : List Host.Cell) (a o v : Nat), wrList m a (bytesOf o n v) = wrMem m (a + o) n v := by
  induction n with
  | zero => intros; rfl
  | succ n ih => exact fun m a o v => ih _ a (o + 1) (v / 256)

theorem length_bytesOf (n : Nat) : ∀ o v : Nat, (bytesOf o n v).length = n := by
  induction n with
  | zero => intros; rfl
  | succ n ih => exact fun o v => congrArg (· + 1) (ih (o + 1) (v / 256))

/-- A store of a number in all its bytes. -/
theorem softWrite_bytesOf (s : State) (l n v : Nat) : softWrite s l n (bytesOf 0 n v) = softDone (errClear (wr s l n v) l n) l n := by
  rw [softWrite, if_pos (length_bytesOf n 0 v), wrList_bytesOf]
  rfl

/-- A view of the state that every step of a fold keeps. -/
theorem foldl_keeps {β γ : Type} {f : State → β → State} (v : State → γ) (hf : ∀ s e, v (f s e) = v s) (l : List β) : ∀ s, v (l.foldl f s) = v s := by
  induction l with
  | nil => intros; rfl
  | cons e t ih => exact fun s => (ih _).trans (hf s e)

/-- What follows a write keeps what the loss of a frame, of a context's promises and of a watch keep. -/
theorem madeDone_keeps {γ : Type} (v : State → γ) (hb : ∀ s e, v (breakFrame s e) = v s) (hc : ∀ s n x, v (setCtx s n x) = v s)
    (hh : ∀ s h, v { s with hub := h } = v s) (s : State) (l n : Nat) : v (madeDone s l n) = v s := by
  unfold madeDone
  dsimp only
  split
  · rw [foldl_keeps v fun _ _ => hc .., foldl_keeps v fun _ _ => hc .., foldl_keeps v hb]
  · rw [hh, foldl_keeps v fun _ _ => hc .., foldl_keeps v fun _ _ => hc .., foldl_keeps v hb]

theorem breakFrame_only (s : State) (e : Nat × Nat × Word) : { breakFrame s e with mem := s.mem, hub := s.hub } = s := by
  unfold breakFrame
  dsimp only
  split <;> rfl

/-- What follows a software write touches no core and gives no name. -/
theorem softDone_cores (s : State) (l n : Nat) : (softDone s l n).cores = s.cores ∧ (softDone s l n).cur = s.cur ∧ (softDone s l n).nextId = s.nextId := by
  have ht := softTouch_only s l n
  exact ⟨(madeDone_keeps State.cores (fun s e => (congrArg State.cores (breakFrame_only s e) :)) (fun _ _ _ => rfl) (fun _ _ => rfl) _ l n).trans
      (congrArg State.cores ht :),
    (madeDone_keeps State.cur (fun s e => (congrArg State.cur (breakFrame_only s e) :)) (fun _ _ _ => rfl) (fun _ _ => rfl) _ l n).trans
      (congrArg State.cur ht :),
    (madeDone_keeps State.nextId (fun s e => (congrArg State.nextId (breakFrame_only s e) :)) (fun _ _ _ => rfl) (fun _ _ => rfl) _ l n).trans
      (congrArg State.nextId ht :)⟩

theorem errClear_only (s : State) (l n : Nat) : { errClear s l n with uecc := s.uecc } = s := by
  unfold errClear
  split <;> rfl

end Sys2Proof.Machine
end

section
/-! PROOFS. Scale registers, seeds, smoothing, engine settings and events: the instructions of slot E, and of slot X for smoothing, in an
open slot. -/
namespace Sys2Proof.Machine

/-! ## `scset` (R259) -/

/-- Two fields side by side that take the bits of a number that stand where they stand are one. -/
theorem setFld_run {n : Nat} (x : BitVec n) {lo len lo' len' : Nat} (v : Nat) (h : lo' = lo + len) (hn : lo' + len' ≤ n) :
    setFld (setFld x lo len (v / 2 ^ lo)) lo' len' (v / 2 ^ lo') = setFld x lo (len + len') (v / 2 ^ lo) := by
  subst h
  refine BitVec.eq_of_getLsbD_eq fun i _ => ?_
  rw [getLsbD_setFld _ _ _ hn, getLsbD_setFld _ _ _ (by omega), getLsbD_setFld _ _ _ (by omega)]
  simp only [Nat.testBit_div_two_pow]
  by_cases h1 : lo + len ≤ i ∧ i < lo + len + len'
  · rw [if_pos h1, if_pos (by omega), show i - (lo + len) + (lo + len) = i - lo + lo by omega]
  · rw [if_neg h1]
    by_cases h2 : lo ≤ i ∧ i < lo + len
    · rw [if_pos h2, if_pos (by omega)]
    · rw [if_neg h2, if_neg (by omega)]

theorem scsetUpd_dest (n f : Nat) (x : Word) : (scsetUpd n f x).sc = n ∧ (scsetUpd n f x).bound = 2 := by
  unfold scsetUpd
  split <;> exact ⟨rfl, rfl⟩

/-- A field of the operand fits the field that it goes to. -/
theorem setFld_operand (y : ScReg) (lo len at_ : Nat) (x : Word) : setFld y lo len (fld x at_ len) = setFld y lo len (x.toNat / 2 ^ at_) := by
  rw [fld_eq_div, setFld_mod]

theorem scsetUpd_small (n f : Nat) (x : Word) : (∀ c ∈ (scsetUpd n f x).cen, c.1 ≤ 63) ∧ (∀ v ∈ (scsetUpd n f x).satc, v < 2 ^ 16) ∧
    (∀ v ∈ (scsetUpd n f x).pois, v < 2 ^ 16) ∧ (scsetUpd n f x).addS = 0 ∧ (scsetUpd n f x).addP = 0 := by
  have h6 (lo) : fld x lo 6 ≤ 63 := Nat.le_of_lt_succ (fld_lt x lo 6)
  have h16 (lo) : fld x lo 16 < 65536 := fld_lt x lo 16
  unfold scsetUpd
  split
  all_goals simp [h6, h16, scCen, scSatc, scPois]

/-- What `scset` makes of a scale register, form by form. -/
theorem scMerge_scsetUpd (sc : ScReg) (n f : Nat) (x : Word) : scMerge sc [scsetUpd n f x] = match f with
    | 0 => setFld sc 0 8 x.toNat
    | 1 => setFld (setFld sc 8 6 x.toNat) 14 1 (bitsAt x 6 1)
    | 2 => setFld sc 15 2 x.toNat
    | 3 => setFld sc 17 5 x.toNat
    | 4 => setFld sc 32 16 x.toNat
    | 5 => setFld sc 48 16 x.toNat
    | 6 => setFld sc 64 12 x.toNat
    | _ => setFld (setFld sc 0 22 x.toNat) 32 32 (x.toNat / 2 ^ 32) := by
  obtain ⟨hcen, hsat, hpois, hadd⟩ := scsetUpd_small n f x
  rw [scMerge_fields sc hcen hsat hpois hadd]
  rcases f with _ | _ | _ | _ | _ | _ | _ | f
  case succ.succ.succ.succ.succ.succ.succ =>
    simp only [scsetUpd, setOpt, setCen, b2n_bit, scCen, scCenv, scMarg, scFmt, scSatc, scPois, setFld_operand]
    rw [setFld_run (lo := 0) sc x.toNat rfl (by omega), setFld_run (lo := 0) sc x.toNat rfl (by omega), setFld_run (lo := 0) sc x.toNat rfl (by omega),
      setFld_run (lo := 0) sc x.toNat rfl (by omega), setFld_run (lo := 32) _ x.toNat rfl (by omega), pow_zero, Nat.div_one]
  case succ.zero => simp only [scsetUpd, setOpt, setCen, b2n_bit, setFld_operand, setFld_mod, pow_zero, Nat.div_one]
  all_goals simp only [scsetUpd, setOpt, setCen, setFld_operand, pow_zero, Nat.div_one]

theorem exec_scset {s : State} {g : BitVec 4} (h : Open s 7 g) (n a : BitVec 6) (f : BitVec 3) (h1 : f = 1 → bitsAt (rx6 s a) 0 6 ≤ 31)
    (h7 : f = 7 → bitsAt (rx6 s a) 22 10 = 0) : exec (.scset n a f g) s = .next (retired1 s 7 1 (fun c =>
      putAt c 2 (.sc n.toNat (scMerge (rsc s n.toNat) [scsetUpd n.toNat f.toNat (rx6 s a)])))) := by
  have hch : ∀ k, (opScset n a f g).check s k = none := fun _ => by
    refine if_neg ?_
    rw [fld_eq_div, fld_eq_div]
    rintro (⟨hf, hx⟩ | ⟨hf, hx⟩)
    · exact absurd (h1 hf) (Nat.not_le.mpr hx)
    · exact hx (h7 hf)
  have hon := on_of_open (o := opScset n a f g) h
  have hi : Issues s (opScset n a f g) := issues_of_open h rfl (roomOk_unasked rfl) rfl (hch 0) rfl rfl rfl rfl
  have hd := scsetUpd_dest n.toNat f.toNat (rx6 s a)
  refine (issue1_of_issues hi).trans (congrArg _ ?_)
  rw [commit_scale (f := id) (u := scsetUpd n.toNat f.toNat (rx6 s a)) (w := s) hon rfl (fun _ => rfl) rfl (by rw [hd.2]; omega) (fun _ => rfl) rfl rfl rfl rfl
    ⟨rfl, rfl⟩, hd.1, hd.2]
  rfl

theorem scset_writes {s : State} {g : BitVec 4} (h : Open s 7 g) (n a : BitVec 6) (f : BitVec 3) (h1 : f = 1 → bitsAt (rx6 s a) 0 6 ≤ 31)
    (h7 : f = 7 → bitsAt (rx6 s a) 22 10 = 0) :
    ∃ t, exec (.scset n a f g) s = .next t ∧ OnlyCore s t ∧ (cur t).x = (cur s).x ∧ (cur t).v = (cur s).v ∧ landings (cur t) = landings (cur s) ∧
      (∀ j, j ≠ n.toNat → scaleLater (cur t) j = scaleLater (cur s) j) ∧
      scaleLater (cur t) n.toNat = scMerge (rsc s n.toNat) [scsetUpd n.toNat f.toNat (rx6 s a)] := by
  have hput := putAt_only (cur s) (.sc n.toNat (scMerge (rsc s n.toNat) [scsetUpd n.toNat f.toNat (rx6 s a)])) (b := 2) (by omega)
  obtain ⟨hx, hv, -⟩ := retired1_regs s 7 1 fun c => putAt c 2 (.sc n.toNat (scMerge (rsc s n.toNat) [scsetUpd n.toNat f.toNat (rx6 s a)]))
  refine ⟨_, exec_scset h n a f h1 h7, onlyCore_retired1 .., hx.trans (congrArg Core.x hput :), hv.trans (congrArg Core.v hput :), ?_, fun j hj => ?_, ?_⟩
  · rw [landings_retired1, landings_putAt _ _ (by omega)]
  · rw [scaleLater_retired1, scaleLater_putAt_ne _ (by omega) (by simpa [PDst.name] using Ne.symm hj)]
  · rw [scaleLater_retired1, scaleLater_putAt_self _ _ (by omega)]

/-! ## `scld` (R258) -/

theorem exec_scld {s : State} {g : BitVec 4} (h : Open s 7 g) (n a : BitVec 6) (k : BitVec 4) (hroom : RoomFor s 16) (hx : bitsAt (rx6 s a) 12 52 = 0)
    {e : Word} (he : sctAddr s (fld (rx6 s a) 0 12) = e) (ho : spc e = 1 → ownHeld s = false) {w : Where} (hc : chk s e 16 16 false = .ok w)
    {u : State} (hu : startLoad s s e w 16 4 16 (.scale n.toNat (BitVec.ofNat 12 (fld (rx6 s a) 0 12))) k.toNat 7 = u)
    (hw : (cur u).wait = (cur s).wait ∧ (cur u).mwait = (cur s).mwait) :
    exec (.scld n a k g) s = .next (retired1 (bundleOrder s [opScld n a k g] u) 7 1 id) := by
  subst he
  have hon := on_of_open (o := opScld n a k g) h
  have hadm : (opScld n a k g).admits s = true := by
    change ownFree s (sctAddr s (fld (rx6 s a) 0 12)) = true
    by_cases h1 : spc (sctAddr s (fld (rx6 s a) 0 12)) = 1 <;> simp [ownFree, h1, ho]
  have hch : (opScld n a k g).check s 0 = none := by
    simp only [opScld, hc]
    exact if_neg (by rw [fld_eq_div]; exact not_not.mpr hx)
  have hi : Issues s (opScld n a k g) := issues_of_open h rfl (roomOk_request hon rfl hroom) hadm hch rfl rfl rfl rfl
  have heff : effects s [opScld n a k g] s = u := by
    rw [← hu]
    simp [effects, effectsGo, hon, putScales]
    simp [opScld, hc]
  refine (issue1_of_issues hi).trans (congrArg _ ?_)
  exact commit_effects hon heff (fun _ => rfl) rfl rfl rfl rfl hw

/-- The landing of an entry of the scale table that `scld` names. -/
def scLanding (s : State) (n a : BitVec 6) (k : BitVec 4) (e : Word) (ps : List Part) (own : Bool) : Landing :=
  { id := s.nextId, dst := .scale n.toNat (BitVec.ofNat 12 (fld (rx6 s a) 0 12)), parts := ps, room := 16, own := own
    at_ := (cur s).ctime + (if spc e = 1 then Nat.max 4 (delayOf s k.toNat) else delayOf s k.toNat) }

/-- An entry in the own scratchpad is read at issue (R91). -/
theorem scld_reads {s : State} {g : BitVec 4} (h : Open s 7 g) (n a : BitVec 6) (k : BitVec 4) (hroom : RoomFor s 16) (hx : bitsAt (rx6 s a) 12 52 = 0)
    {e : Word} (he : sctAddr s (fld (rx6 s a) 0 12) = e) (ho : spc e = 1 → ownHeld s = false) {l : Nat} (hs : spc e = 1)
    (hc : chk s e 16 16 false = .ok (.loc l)) (hok : errIn s l 16 = none) :
    ∃ t, exec (.scld n a k g) s = .next t ∧ StartsOnly s t ∧
      scLanding s n a k e [⟨0, some (BitVec.ofNat 1024 (rd s l 16))⟩] true ∈ (cur t).land := by
  have hu : startLoad s s e (.loc l) 16 4 16 (.scale n.toNat (BitVec.ofNat 12 (fld (rx6 s a) 0 12))) k.toNat 7 =
      addLand (softTouch (newId s).2 l 16) (scLanding s n a k e [⟨0, some (BitVec.ofNat 1024 (rd s l 16))⟩] true) := by
    simp only [startLoad, heldOwn_alone hroom rfl rfl rfl 7, hs, hok, and_self, if_true, scLanding]
    rfl
  have hst := softTouch_only (newId s).2 l 16
  obtain ⟨hw, hstarts, hland, -⟩ := addLand_starts (o := opScld n a k g) (v := softTouch (newId s).2 l 16) (rs := []) 7 1
    (scLanding s n a k e [⟨0, some (BitVec.ofNat 1024 (rd s l 16))⟩] true) hroom rfl (softTouch_mem ..) (congrArg State.cur hst :)
    (congrArg State.cores hst :) ((congrArg State.reqs hst :).trans (List.append_nil _).symm) (by simp)
  exact ⟨_, exec_scld h n a k hroom hx he ho hc hu hw, hstarts, hland⟩

/-- An entry elsewhere, or one with an uncorrectable error, is requested. -/
theorem scld_asks {s : State} {g : BitVec 4} (h : Open s 7 g) (n a : BitVec 6) (k : BitVec 4) (hroom : RoomFor s 16) (hx : bitsAt (rx6 s a) 12 52 = 0)
    {e : Word} (he : sctAddr s (fld (rx6 s a) 0 12) = e) (ho : spc e = 1 → ownHeld s = false) {w : Where} (hc : chk s e 16 16 false = .ok w)
    (hw : spc e ≠ 1 ∨ ∃ l, w = .loc l ∧ errIn s l 16 ≠ none) :
    ∃ t r, exec (.scld n a k g) s = .next t ∧ StartsOnly s t ∧ scLanding s n a k e [⟨r.id, none⟩] false ∈ (cur t).land ∧ r ∈ t.reqs ∧ r.core = s.cur ∧
      r.kind = .load ∧ r.addr = e ∧ r.loc = w.loc? ∧ r.n = 16 ∧ r.dst = .land s.nextId 0 ∧ r.stage = .out := by
  have hu : ∃ slack, let r := { newReq s (newId s).2 .load e w 16 slack 7 with dst := .land s.nextId 0 }
      startLoad s s e w 16 4 16 (.scale n.toNat (BitVec.ofNat 12 (fld (rx6 s a) 0 12))) k.toNat 7 =
        addLand (putReq (newId s).2 r) (scLanding s n a k e [⟨r.id, none⟩] false) := by
    cases w with
    | loc l =>
      have hno : ¬ (spc e = 1 ∧ heldOwn s s 7 = false ∧ errIn s l 16 = none) := by
        rintro ⟨h1, -, h3⟩
        rcases hw with hw | ⟨l', hl, herr⟩
        · exact hw h1
        · cases hl
          exact herr h3
      exact ⟨_, if_neg hno⟩
    | far =>
      have hs : spc e ≠ 1 := hw.resolve_right fun ⟨l, hl, _⟩ => by cases hl
      refine ⟨loadSlack (ltOf s k.toNat) e 0, ?_⟩
      simp only [scLanding, if_neg hs]
      rfl
  obtain ⟨slack, hu⟩ := hu
  obtain ⟨hwait, hstarts, hland, hreqs⟩ := addLand_starts (o := opScld n a k g) 7 1 (v := putReq (newId s).2
      { newReq s (newId s).2 .load e w 16 slack 7 with dst := .land s.nextId 0 }) (scLanding s n a k e [⟨s.nextId + 1, none⟩] false) hroom rfl rfl rfl rfl rfl
      (by simp [newReq])
  obtain ⟨d, hr⟩ := hreqs _ (List.mem_singleton_self _)
  exact ⟨_, _, exec_scld h n a k hroom hx he ho hc hu hwait, hstarts, hland, hr, rfl, rfl, rfl, rfl, rfl, rfl, rfl⟩

/-! ## `scst` (R258) -/

theorem exec_scst {s : State} {g : BitVec 4} (h : Open s 7 g) (n : BitVec 6) (hroom : RoomFor s 0) {e : Word} {v : Nat}
    (he : sctAddr s (fld (rsc s n.toNat) 64 12) = e) (hv : fld (rsc s n.toNat) 0 64 = v) (ho : spc e = 1 → ownHeld s = false) {w : Where}
    (hc : chk s e 16 16 true = .ok w) {u : State} (hu : startStore s s e w 16 v (rslk s) 7 false = u)
    (hw : (cur u).wait = (cur s).wait ∧ (cur u).mwait = (cur s).mwait) :
    exec (.scst n g) s = .next (retired1 (bundleOrder s [opScst n g] u) 7 1 id) := by
  subst he hv
  have hon := on_of_open (o := opScst n g) h
  have hadm : (opScst n g).admits s = true := by
    change ownFree s (sctAddr s (fld (rsc s n.toNat) 64 12)) = true
    by_cases h1 : spc (sctAddr s (fld (rsc s n.toNat) 64 12)) = 1 <;> simp [ownFree, h1, ho]
  have hch : (opScst n g).check s 0 = none := by simp only [opScst, hc]
  have hi : Issues s (opScst n g) := issues_of_open h rfl (roomOk_request hon rfl hroom) hadm hch rfl rfl rfl rfl
  have heff : effects s [opScst n g] s = u := by
    rw [← hu]
    simp [effects, effectsGo, hon, putScales]
    simp [opScst, hc]
  refine (issue1_of_issues hi).trans (congrArg _ ?_)
  exact commit_effects hon heff (fun _ => rfl) rfl rfl rfl rfl hw

/-- An entry in the own scratchpad is written at issue (R97). -/
theorem scst_writes {s : State} {g : BitVec 4} (h : Open s 7 g) (n : BitVec 6) (hroom : RoomFor s 0) {e : Word} {v l : Nat}
    (he : sctAddr s (fld (rsc s n.toNat) 64 12) = e) (hv : fld (rsc s n.toNat) 0 64 = v) (hs : spc e = 1) (ho : ownHeld s = false)
    (hc : chk s e 16 16 true = .ok (.loc l)) :
    exec (.scst n g) s = .next (retired1 (softDone (errClear (wr s l 16 v) l 16) l 16) 7 1 id) := by
  have hu : startStore s s e (.loc l) 16 v (rslk s) 7 false = softDone (errClear (wr s l 16 v) l 16) l 16 :=
    (if_pos ⟨hs, storesNow_alone hroom ho 7⟩).trans (softWrite_bytesOf ..)
  have hclear := errClear_only (wr s l 16 v) l 16
  obtain ⟨hcores, hcur, hid⟩ := softDone_cores (errClear (wr s l 16 v) l 16) l 16
  have hcores' := hcores.trans (show (errClear (wr s l 16 v) l 16).cores = s.cores from (congrArg State.cores hclear :))
  have hcur' := hcur.trans (show (errClear (wr s l 16 v) l 16).cur = s.cur from (congrArg State.cur hclear :))
  have hid' := hid.trans (show (errClear (wr s l 16 v) l 16).nextId = s.nextId from (congrArg State.nextId hclear :))
  have hsame : cur (softDone (errClear (wr s l 16 v) l 16) l 16) = cur s := by rw [cur, hcur', core_congr hcores', cur]
  rw [exec_scst h n hroom he hv (fun _ => ho) hc hu (by rw [hsame]; exact ⟨rfl, rfl⟩), bundleOrder_unnamed _ hid']

/-- An entry elsewhere is written by a request. -/
theorem scst_asks {s : State} {g : BitVec 4} (h : Open s 7 g) (n : BitVec 6) (hroom : RoomFor s 0) {e : Word} {v : Nat}
    (he : sctAddr s (fld (rsc s n.toNat) 64 12) = e) (hv : fld (rsc s n.toNat) 0 64 = v) {w : Where} (hw : GoesOut s e 16 16 true w) :
    ∃ t r, exec (.scst n g) s = .next t ∧ StartsOnly s t ∧ (cur t).pend = (cur s).pend ∧ (cur t).land = (cur s).land ∧ r ∈ t.reqs ∧
      r.core = s.cur ∧ r.kind = .store ∧ r.addr = e ∧ r.loc = w.loc? ∧ r.n = 16 ∧ r.wr = bytesOf 0 16 v ∧ r.dst = .none ∧ r.stage = .out := by
  obtain ⟨hc, hs⟩ := hw
  have hu : startStore s s e w 16 v (rslk s) 7 false = putReq s { newReq s s .store e w 16 (rslk s) 7 with wr := bytesOf 0 16 v } := by
    have hr : storeReq s s e w 16 (rslk s) 7 (bytesOf 0 16 v) = { newReq s s .store e w 16 (rslk s) 7 with wr := bytesOf 0 16 v } := if_neg hs
    cases w with
    | loc l => exact (if_neg fun hh => hs hh.1).trans (by rw [hr]; rfl)
    | far => exact congrArg (putReq s) (by rw [hr]; rfl)
  obtain ⟨hstarts, hpend, hland, d, hr⟩ := putReq_starts (o := opScst n g) 7 1 hroom rfl
    (r := { newReq s s .store e w 16 (rslk s) 7 with wr := bytesOf 0 16 v }) rfl
  exact ⟨_, _, exec_scst h n hroom he hv (fun hh => absurd hh hs) hc hu ⟨rfl, rfl⟩, hstarts, hpend, hland, hr, rfl, rfl, rfl, rfl, rfl, rfl, rfl, rfl⟩

/-! ## Smoothing (R243) -/

theorem softTouch_modCur (s : State) (f : Core → Core) (l n : Nat) : softTouch (modCur s f) l n = modCur (softTouch s l n) f := by
  unfold softTouch
  rw [modCur_tiles]
  split <;> rfl

/-- An address of space 0x1 that has passed its check at some alignment has passed it at none. -/
theorem chk_unaligned {s : State} {a : Word} {n al : Nat} {b : Bool} {w : Where} (h : chk s a n al b = .ok w) : chk s a n 1 b = .ok w := by
  have hrows : ∀ c, addrRows s s.cur (cur s).ctx (entNow s (cur s)) a n al = c → c = none →
      addrRows s s.cur (cur s).ctx (entNow s (cur s)) a n 1 = none := by
    rintro c hc rfl
    unfold addrRows at hc ⊢
    simp only [Nat.mod_one]
    split_ifs at hc ⊢ <;> trivial
  unfold chk addrCheck at h ⊢
  split at h
  · cases h
  · next hn => rw [hrows _ hn rfl]; exact h

theorem smCheck_ok {s : State} {a : Word} {l : Nat} (hs : spc a = 1) (hc : chk s a 64 64 false = .ok (.loc l)) : smCheck s a = .ok (.loc l) := by
  have hsp : spaceOk s (cur s).ctx a ≠ false := fun hn => by
    have : chk s a 64 64 false = .error ⟨.addrspace, 0, 0⟩ := by simp [chk, addrCheck, addrRows, hn]
    rw [this] at hc
    cases hc
  rw [smCheck, if_neg (by rintro (h | h) <;> contradiction), hc]

/-- R243: what `smset` does to the core. -/
def smPut (s : State) (a : BitVec 6) (f : BitVec 5) (l : Nat) (c : Core) : Core :=
  putAt { c with smaddr := rx6 s a, smstat := BitVec.ofNat 64 (f.toNat * 2 ^ 16 + 2 ^ 21) } 4 (.sm (BitVec.ofNat 512 (rd s l 64)))

theorem exec_smset {s : State} {g : BitVec 4} (h : Open s 6 g) {a : BitVec 6} {f : BitVec 5} {l : Nat} (hf : f = 5 ∨ f = 13) (hs : spc (rx6 s a) = 1)
    (ho : ownHeld s = false) (hroom : RoomFor s 0) (hc : chk s (rx6 s a) 64 64 false = .ok (.loc l)) (hok : errIn s l 64 = none) :
    exec (.smset a f g) s = .next (retired1 (softTouch s l 64) 6 1 (smPut s a f l)) := by
  have hon := on_of_open (o := opSmset a f g) h
  have hch : (opSmset a f g).check s 0 = none := by
    simp only [opSmset, smCheck_ok hs hc]
    exact if_pos hf
  have hi : Issues s (opSmset a f g) := issues_of_open h rfl (roomOk_request hon rfl hroom) (by simp [opSmset, ownFree, ho]) hch rfl rfl rfl rfl
  have hl : locOf s (rx6 s a) 64 false = l := by rw [locOf, chk_unaligned hc]
  have heff : (opSmset a f g).eff s s = modCur (softTouch s l 64) (smPut s a f l) := by
    have hheld := heldOwn_alone (s := s) (w := modCur s fun c => { c with smaddr := rx6 s a, smstat := BitVec.ofNat 64 (f.toNat * 2 ^ 16 + 2 ^ 21) })
      hroom rfl (by rw [cur_modCur]) rfl 6
    simp only [opSmset, hl]
    rw [if_pos ⟨hheld, hok⟩, softTouch_modCur, modCur_modCur]
    rfl
  have heffs : effects s [opSmset a f g] s = modCur (softTouch s l 64) (smPut s a f l) := by
    rw [← heff]
    simp [effects, effectsGo, hon, putScales]
    rfl
  have ht := softTouch_only s l 64
  have hsame : cur (softTouch s l 64) = cur s := (congrArg cur ht :)
  have hid : (softTouch s l 64).nextId = s.nextId := (congrArg State.nextId ht :)
  have hw := putAt_waits { cur s with smaddr := rx6 s a, smstat := BitVec.ofNat 64 (f.toNat * 2 ^ 16 + 2 ^ 21) } (.sm (BitVec.ofNat 512 (rd s l 64)))
    (b := 4) (by omega)
  refine (issue1_of_issues hi).trans (congrArg _ ?_)
  rw [commit_effects hon heffs (fun _ => rfl) rfl rfl rfl rfl (by rw [cur_modCur, hsame]; exact hw),
    bundleOrder_unnamed _ ((modCur_nextId ..).trans hid), retired1_modCur]
  rfl

theorem exec_smclr {s : State} {g : BitVec 4} (h : Open s 6 g) :
    exec (.smclr g) s = .next (retired1 s 6 1 (fun c => { c with smstat := setFld c.smstat 21 1 0 })) :=
  open_commits (o := opSmclr g) h rfl rfl rfl rfl rfl (fun _ => rfl) (Or.inl rfl) (fun _ => rfl) (fun _ => rfl) rfl rfl rfl rfl ⟨rfl, rfl⟩

/-! ## Settings and status of slot E (R246, R247, R251, R260, R263) -/

theorem exec_srseed {s : State} {g : BitVec 4} (h : Open s 7 g) (a : BitVec 6) : exec (.srseed a g) s = .next (retired1 s 7 1 (fun c =>
    putAt { c with lseed := (rx6 s a).setWidth 32, lanes := [] } 2 (.seed ((rx6 s a).setWidth 32)))) :=
  open_commits (o := opSrseed a g) h rfl rfl rfl rfl rfl (fun _ => rfl) (Or.inl rfl) (fun _ => rfl) (fun _ => rfl) rfl rfl rfl rfl
    (putAt_waits { cur s with lseed := (rx6 s a).setWidth 32, lanes := [] } (.seed ((rx6 s a).setWidth 32)) (by omega))

theorem exec_ecfg {s : State} {g : BitVec 4} (h : Open s 7 g) {c : BitVec 2} {f a : BitVec 6} (hf : f.toNat ≤ 4 ∨ (8 ≤ f.toNat ∧ f.toNat ≤ 25)) :
    exec (.ecfg c f a g) s = .next (retired1 s 7 1 (fun k =>
      setChan k c.toNat { chanOf (cur s) c.toNat with shadow := tset 0 (chanOf (cur s) c.toNat).shadow f.toNat (rx6 s a) })) := by
  have hl : (opEcfg c f a g).legal s = true := by simpa [opEcfg] using hf
  exact open_commits (o := opEcfg c f a g) h hl rfl rfl rfl rfl (fun _ => rfl) (Or.inl rfl) (fun _ => rfl) (fun _ => rfl) rfl rfl rfl rfl ⟨rfl, rfl⟩

theorem exec_estat {s : State} {g : BitVec 4} (h : Open s 7 g) (d : BitVec 6) (c : BitVec 2) :
    exec (.estat d c g) s = .next (retired1 s 7 1 (scalarPut 2 d.toNat (estatWord (chanOf (cur s) c.toNat)))) :=
  opS_open (v := fun s => estatWord (chanOf (cur s) c.toNat)) h

/-- The status word of `anstat` that its selector names. -/
def anstatOf (x : BitVec 3) (s : State) : Word :=
  match x.toNat with
  | 0 => anstatWord (cur s)
  | 1 => (cur s).ancfg
  | 2 => (cur s).smstat
  | _ => (cur s).mxstat

theorem anstatOf_eq (s : State) {x : BitVec 3} (hx : x.toNat ≤ 3) : anstatOf x s =
    if x = 0 then anstatWord (cur s) else if x = 1 then (cur s).ancfg else if x = 2 then (cur s).smstat else (cur s).mxstat := by
  have hall : ∀ x : BitVec 3, x.toNat ≤ 3 → x = 0 ∨ x = 1 ∨ x = 2 ∨ x = 3 := by decide
  rcases hall x hx with rfl | rfl | rfl | rfl <;> rfl

theorem exec_anstat {s : State} {g : BitVec 4} (h : Open s 7 g) (d : BitVec 6) {x : BitVec 3} (hx : x.toNat ≤ 3) :
    exec (.anstat d x g) s = .next (retired1 s 7 1 (scalarPut 2 d.toNat (anstatOf x s))) := by
  have hop : opAnstat d x g = opS 7 g 2 d.toNat (anstatOf x) := by
    rw [opAnstat, decide_eq_true hx]
    rfl
  exact (congrArg (fun o => issue1 o s) hop).trans (opS_open h)

theorem exec_slk {s : State} {g : BitVec 4} (h : Open s 7 g) (i : BitVec 12) :
    exec (.slk i g) s = .next (retired1 s 7 1 (fun c => putAt c 2 (.slk (i.setWidth 64)))) :=
  open_commits (o := opSlk i g) h rfl rfl rfl rfl rfl (fun _ => rfl) (Or.inl rfl) (fun _ => rfl) (fun _ => rfl) rfl rfl rfl rfl
    (putAt_waits (cur s) (.slk (i.setWidth 64)) (by omega))

theorem exec_slkReg {s : State} {g : BitVec 4} (h : Open s 7 g) (a : BitVec 6) :
    exec (.slkReg a g) s = .next (retired1 s 7 1 (fun c => putAt c 2 (.slk (BitVec.ofNat 64 (Nat.min (rx6 s a).toNat 4095))))) :=
  open_commits (o := opSlkReg a g) h rfl rfl rfl rfl rfl (fun _ => rfl) (Or.inl rfl) (fun _ => rfl) (fun _ => rfl) rfl rfl rfl rfl
    (putAt_waits (cur s) (.slk (BitVec.ofNat 64 (Nat.min (rx6 s a).toNat 4095))) (by omega))

/-! ## Events (R47, R173, R261) -/

theorem clu_evClr (s : State) (n v m : Nat) (x : BitVec 32) : clu (evClr s n v x) m =
    if m = n then { evView s (clu s n) with evCcy := s.ccy, evC := tset 0 (evView s (clu s n)).evC v (tget 0 (evView s (clu s n)).evC v ||| x) }
    else clu s m := clu_setClu ..

/-- Bits that are cleared are gone from the word as the next ccy sees it, but for those that the same ccy sets. -/
theorem nextEv_evClr (s : State) {n v w : Nat} (x : BitVec 32) (h : (clu s n).evCcy ≤ s.ccy) (hw : w < 8) :
    (clu (evClr s n v x) n).nextEv w = if w = v then ((clu s n).nextEv w &&& ~~~x) ||| (if (clu s n).evCcy = s.ccy then tget 0 (clu s n).evS w else 0)
      else (clu s n).nextEv w := by
  have hset : ∀ (p c e x : BitVec 32), (p &&& ~~~(c ||| x)) ||| e = (((p &&& ~~~c) ||| e) &&& ~~~x) ||| e := by
    intro p c e x
    ext i
    simp
    grind
  rw [clu_evClr, if_pos rfl, ← nextEv_evView (s := s) (c := clu s n) hw]
  simp only [Cluster.nextEv, tget_tset]
  split
  · next hv =>
    subst hv
    rw [hset]
    congr 1
    split
    · next he => rw [evView_now (le_of_eq he.symm)]
    · next he => simp [evView, show (clu s n).evCcy < s.ccy by omega, tget]
  · rfl

theorem evWord_evClr {s : State} {n v w : Nat} (x : BitVec 32) (h : (clu s n).evCcy ≤ s.ccy) (hw : w < 8) :
    evWord { evClr s n v x with ccy := s.ccy + 1 } n w = if w = v then (evWord { s with ccy := s.ccy + 1 } n w &&& ~~~x) |||
      (if (clu s n).evCcy = s.ccy then tget 0 (clu s n).evS w else 0) else evWord { s with ccy := s.ccy + 1 } n w := by
  have hn : (clu (evClr s n v x) n).evCcy = s.ccy := by rw [clu_evClr, if_pos rfl]
  rw [evWord_later (s := { s with ccy := s.ccy + 1 }) (Nat.lt_succ_of_le h) hw,
    evWord_later (s := { evClr s n v x with ccy := s.ccy + 1 }) (Nat.lt_succ_of_le (le_of_eq hn)) hw]
  exact nextEv_evClr s x h hw

/-- The record in its slot says that the task has committed. -/
theorem committed_rdRec_wr (s : State) (a : Nat) (w : Word) : (rdRec (wr s a 8 (setFld w 41 1 1).toNat) a).committed = true := by
  rw [rdRec_wr_first, Rec.committed, bit]
  exact (getLsbD_setFld_in w 1 (show 0 < 1 by omega) (by omega)).trans (by decide)

/-- An instruction that changes event words and sets COMMITTED. -/
theorem issue1_event {s w : State} {o : SlotOp} {a : Nat} (hi : Issues s o) (h : Marks s o w 0) (hclu : { w with clus := s.clus } = s)
    (ha : frameHome s (cur s).ctx (dieOf s.cur) (cur s).trec.w1 = a) :
    ∃ t, issue1 o s = .next t ∧ t.clus = w.clus ∧ (cur t).trec.committed = true ∧ (rdRec t a).committed = true ∧
      (∀ b, b < a ∨ a + 8 ≤ b → rdB t b = rdB s b) ∧ (cur t).x = (cur s).x ∧ ∀ k, k ≠ s.cur → core t k = core s k := by
  refine ⟨_, (issue1_of_issues hi).trans (congrArg _ (commit_marks h ha)), ?_⟩
  obtain ⟨tmem, tclus, -, -, tcores, tx, ttrec, -, -⟩ := marked_frame s w o 0 a (setFld (BitVec.ofNat 64 (rd w a 8)) 41 1 1).toNat
  have hmem : w.mem = s.mem := (congrArg State.mem hclu :)
  have hcores : w.cores = s.cores := (congrArg State.cores hclu :)
  have hcur : w.cur = s.cur := (congrArg State.cur hclu :)
  have hsame : cur w = cur s := by rw [cur, hcur, core_congr hcores, cur]
  refine ⟨tclus, ?_, ?_, fun b hb => (rdB_congr tmem b).trans ((rdB_wr_out w hb).trans (rdB_congr hmem b)), by rw [tx, hsame],
    fun k hk => (tcores k (by rw [hcur]; exact hk)).trans (core_congr hcores k)⟩
  · rw [ttrec]
    exact committed_setCommitted _
  · rw [rdRec_congr fun b _ _ => rdB_congr tmem b]
    exact committed_rdRec_wr w a _

/-- What `evset` and `evclr` leave: event word w of the own cluster n as the next ccy sees it, and the marks of the task in its record at r0. -/
def EventLeft (s t : State) (n w r0 : Nat) (v : BitVec 32) : Prop :=
  ((clu s n).evCcy ≤ s.ccy → evWord { t with ccy := s.ccy + 1 } n w = v ∧
    ∀ j, j < 8 → j ≠ w → evWord { t with ccy := s.ccy + 1 } n j = evWord { s with ccy := s.ccy + 1 } n j) ∧
  (∀ m, m ≠ n → clu t m = clu s m) ∧ (cur t).trec.committed = true ∧ (rdRec t r0).committed = true ∧
    (∀ b, b < r0 ∨ r0 + 8 ≤ b → rdB t b = rdB s b) ∧ (cur t).x = (cur s).x ∧ ∀ k, k ≠ s.cur → core t k = core s k

/-- An instruction of slot E whose effect `u` is on the event words of cluster n. -/
theorem event_leaves {s u : State} {g : BitVec 4} (h : Open s 7 g) {f : State → State → State} (hf : f s s = u) (hu : { u with clus := s.clus } = s)
    {n w r0 : Nat} {v : BitVec 32} (hr : frameHome s (cur s).ctx (dieOf s.cur) (cur s).trec.w1 = r0) (hne : ∀ m, m ≠ n → clu u m = clu s m) (hlt : w < 8)
    (hw : (clu s n).evCcy ≤ s.ccy → ∀ j, j < 8 → evWord { u with ccy := s.ccy + 1 } n j = if j = w then v else evWord { s with ccy := s.ccy + 1 } n j) :
    ∃ t, issue1 { slot := 7, guard := g, commits := fun _ => true, eff := f } s = .next t ∧ EventLeft s t n w r0 v := by
  have hi : Issues s { slot := 7, guard := g, commits := fun _ => true, eff := f } := issues_of_open h rfl (roomOk_unasked rfl) rfl rfl rfl rfl rfl rfl
  have hcores : u.cores = s.cores := (congrArg State.cores hu :)
  have hcur : u.cur = s.cur := (congrArg State.cur hu :)
  have hsame : cur u = cur s := by rw [cur, hcur, core_congr hcores, cur]
  have hm : Marks s { slot := 7, guard := g, commits := fun _ => true, eff := f } u 0 := ⟨on_of_open h, hf, fun _ => rfl, fun _ => rfl, rfl, rfl,
    rfl, rfl, hcur, (congrArg State.ctxs hu :), by rw [hsame], by rw [hsame]⟩
  obtain ⟨t, hexec, hclus, hrest⟩ := issue1_event hi hm hu hr
  refine ⟨t, hexec, fun hle => ⟨?_, fun j hj hjw => ?_⟩, fun m hm => (clu_congr hclus m).trans (hne m hm), hrest⟩
  · rw [evWord_congr hclus, hw hle w hlt, if_pos rfl]
  · rw [evWord_congr hclus, hw hle j hj, if_neg hjw]

theorem evset_leaves {s : State} {g : BitVec 4} (h : Open s 7 g) (a : BitVec 6) (w : BitVec 3) {n r0 : Nat} (hn : cluOf s.cur = n)
    (hr : frameHome s (cur s).ctx (dieOf s.cur) (cur s).trec.w1 = r0) : ∃ t, exec (.evset a w g) s = .next t ∧
      EventLeft s t n w.toNat r0 (evWord { s with ccy := s.ccy + 1 } n w.toNat ||| (rx6 s a).setWidth 32) := by
  subst hn
  refine event_leaves (f := (opEvset a w g).eff) h rfl rfl hr (fun m hne => clu_evSet_ne s _ hne) w.isLt fun hle j hj => ?_
  refine (evWord_evSet _ hle hj).trans ?_
  split
  · next hjw => rw [hjw]; rfl
  · exact BitVec.or_zero

theorem evclr_leaves {s : State} {g : BitVec 4} (h : Open s 7 g) (a : BitVec 6) (w : BitVec 3) {n r0 : Nat} (hn : cluOf s.cur = n)
    (hr : frameHome s (cur s).ctx (dieOf s.cur) (cur s).trec.w1 = r0) : ∃ t, exec (.evclr a w g) s = .next t ∧
      EventLeft s t n w.toNat r0 ((evWord { s with ccy := s.ccy + 1 } n w.toNat &&& ~~~(rx6 s a).setWidth 32) |||
        (if (clu s n).evCcy = s.ccy then tget 0 (clu s n).evS w.toNat else 0)) := by
  subst hn
  refine event_leaves (f := (opEvclr a w g).eff) h rfl rfl hr (fun m hne => (clu_evClr ..).trans (if_neg hne)) w.isLt fun hle j hj => ?_
  refine (evWord_evClr _ hle hj).trans ?_
  split
  · next hjw => rw [hjw]; rfl
  · rfl

end Sys2Proof.Machine

open Sys2Proof hiding core
open Sys2Proof.Machine

/-- Settles O44: each instruction in an open slot commits with one effect on the core, one request or landing entry, or one change of the event words. -/
theorem scaleAndEngineSettings : Obligations.ScaleAndEngineSettings := by
  refine ⟨?_, ?_⟩
  · intro s g h
    refine ⟨?_, exec_srseed h, ?_, ?_⟩
    · intro n a f x sc h1 h7
      obtain ⟨t, hexec, honly, hx, hv, hl, hother, hself⟩ := scset_writes h n a f h1 h7
      exact ⟨t, hexec, honly, hx, hv, hl, hother, hself.trans (scMerge_scsetUpd ..)⟩
    · intro n a k hroom hx e lands ho
      have he : sctAddr s (fld (rx6 s a) 0 12) = e := by rw [sctAddr, fld_eq_div]
      refine ⟨fun l hs hc hok => ?_, fun w hc hw => ?_⟩
      · obtain ⟨t, hexec, hstarts, hland⟩ := scld_reads h n a k hroom hx he ho hs hc hok
        refine ⟨t, _, hexec, ⟨hstarts, hland, rfl, ?_, rfl⟩, rfl⟩
        simp only [scLanding, fld_eq_div]
      · obtain ⟨t, r, hexec, hstarts, hland, hr⟩ := scld_asks h n a k hroom hx he ho hc hw
        refine ⟨t, _, r, hexec, ⟨hstarts, hland, rfl, ?_, rfl⟩, rfl, hr⟩
        simp only [scLanding, fld_eq_div]
    · intro n hroom e v
      exact ⟨fun l hs ho hc => scst_writes h n hroom rfl rfl hs ho hc, fun w hw => scst_asks h n hroom rfl rfl hw⟩
  · intro s g
    refine ⟨fun h => ⟨exec_smclr h, fun a f l hf hs ho hroom hc hok => exec_smset h hf hs ho hroom hc hok⟩, fun h => ?_⟩
    refine ⟨fun c f a hf => exec_ecfg h hf, fun d c => exec_estat h d c, fun d x hx => ?_, exec_slk h, exec_slkReg h, ?_⟩
    · rw [exec_anstat h d hx, anstatOf_eq s hx]
      rfl
    · exact fun a w => ⟨evset_leaves h a w rfl rfl, evclr_leaves h a w rfl rfl⟩

end

section
/-! PROOFS. Values written through a scale register. -/
namespace Sys2Proof.Machine

/-! ## Values and patterns (R54, R56, R61) -/

theorem elN_lt (g w i : Nat) : elN g w i < 2 ^ w := Nat.mod_lt _ (Nat.two_pow_pos w)

/-- The value of a pattern, in the model's words and in those of the statements. -/
theorem decE_eq_tval {w c : Nat} (u : Bool) (h : c < 2 ^ w) : decE w u c = tval w u c := by
  have hs : sextI c w = if 2 ^ (w - 1) ≤ c then (c : Int) - 2 ^ w else c := by
    have hmod : (c : Int) % 2 ^ w = c := Int.emod_eq_of_lt (by omega) (by exact_mod_cast h)
    simp only [sextI, hmod, ge_iff_le]
    norm_cast
  simp only [decE, tval, Nat.mod_eq_of_lt h, naiCode, hs]
  cases u with
  | true => simp
  | false =>
    by_cases hn : c = 2 ^ (w - 1)
    · simp [hn]
    · simp only [Bool.false_eq_true, if_false, hn]
      exact congrArg some (if_congr (by omega) rfl rfl)

theorem clampE_eq {w : Nat} (u : Bool) (x : Int) (hw : 1 ≤ w) : clampE w u x =
    if u then Max.max 0 (Min.min (2 ^ w - 2) x) else Max.max (1 - 2 ^ (w - 1)) (Min.min (2 ^ (w - 1) - 1) x) := by
  have h1 : (1 : Int) ≤ 2 ^ (w - 1) := by exact_mod_cast Nat.one_le_two_pow
  have h2 : (2 : Int) ^ w = 2 * 2 ^ (w - 1) := by rw [← pow_succ', Nat.sub_add_cancel hw]
  unfold clampE sat
  rw [h2]
  generalize (2 : Int) ^ (w - 1) = p at h1
  cases u with
  | true =>
    simp only [if_true]
    split_ifs <;> omega
  | false =>
    simp only [Bool.false_eq_true, if_false]
    split_ifs <;> omega

/-- An element that is written: its pattern, whether it was clamped, whether it is NaI. -/
def outE (o : Nat × Bool × Bool) : OutE := ⟨o.1, o.2.1, o.2.2⟩

theorem outE_tput_some {w : Nat} (u : Bool) (x : Int) (hw : 1 ≤ w) :
    outE (tput w u (some x)) = ⟨encE w u (some (clampE w u x)), decide (clampE w u x ≠ x), false⟩ := by
  rw [clampE_eq u x hw]
  rfl

theorem tput_lt {w : Nat} (u : Bool) (o : Option Int) (hw : 1 ≤ w) : (tput w u o).1 < 2 ^ w := by
  have hp := Nat.two_pow_pos w
  cases o with
  | none =>
    have : 2 ^ (w - 1) < 2 ^ w := Nat.pow_lt_pow_right (by omega) (by omega)
    cases u <;> simp only [tput, Bool.false_eq_true, if_false, if_true] <;> omega
  | some x =>
    have hpos : (0 : Int) < 2 ^ w := by exact_mod_cast hp
    have hlt : ∀ c : Int, (c % 2 ^ w).toNat < 2 ^ w := fun c => by
      have h1 := Int.emod_nonneg c (ne_of_gt hpos)
      have h2 := Int.emod_lt_of_pos c hpos
      zify
      rw [Int.toNat_of_nonneg h1]
      exact h2
    exact hlt _

/-! ## Writes through a scale register (R65, R73, R76) -/

/-- Outside SR no lane steps and no draw shows. -/
theorem laneAdv_of_ne {m : Rnd} (hm : m ≠ .sr) (L : Lanes) (i : Nat) : laneAdv m L i = L := if_neg hm

theorem shrG_of_ne {m : Rnd} (hm : m ≠ .sr) (x : Int) (k : Nat) (g : BitVec 32) : shrG x k m g = shrG x k m 0 := by
  cases m with
  | sr => exact absurd rfl hm
  | _ => rfl

/-- The element loop of R76 outside SR: each element for itself. -/
theorem scLoop_eq {w : Nat} {m : Rnd} (s : Nat) (u ovf : Bool) (L : Lanes) (hm : m ≠ .sr) (hw : 1 ≤ w) (vs : List (Nat × Option Int)) :
    scLoop s w u ovf m vs L = (vs.map (fun e => outE (tput w u (if ovf then none else e.2.map (fun x => shrG x s m 0)))), L) := by
  induction vs with
  | nil => rfl
  | cons e t ih =>
    obtain ⟨l, v⟩ := e
    cases v with
    | none =>
      simp only [scLoop, laneAdv_of_ne hm, ih, List.map_cons, Option.map_none, ite_self]
      rfl
    | some x =>
      cases ovf with
      | true =>
        simp only [scLoop, laneAdv_of_ne hm, ih, List.map_cons, if_true]
        rfl
      | false =>
        simp only [scLoop, shrL, laneAdv_of_ne hm, shrG_of_ne hm x s (laneGet L l), ih, List.map_cons, Bool.false_eq_true, if_false, Option.map_some,
          outE_tput_some u _ hw]

theorem census_eq_ownCensus (live : List Int) : census live 32 = ownCensus live := by
  rw [census, ownCensus, List.foldl_map]

theorem ownCensus_le (live : List Int) : ownCensus live ≤ 31 := by
  have h : ∀ (l : List Nat) (a : Nat), l.foldl Nat.min a ≤ a := by
    intro l
    induction l with
    | nil => exact fun _ => le_rfl
    | cons b t ih => exact fun a => (ih _).trans (Nat.min_le_left a b)
  exact h _ 31

/-- EXP that a write leaves: its source's with the shift, 127 where that overflows. -/
def expAfter (src : Int) (k : Int × Bool) : Int := if k.2 then 127 else src + k.1

/-- The pattern that a value takes at a write through a scale register that shifts by `k`, whether it was clamped, whether it is NaI. -/
def throughEl (w : Nat) (u : Bool) (m : Rnd) (k : Int × Bool) (v : Option Int) : Nat × Bool × Bool :=
  tput w u (if k.2 then none else v.map (fun x => shrG x k.1.toNat m 0))

/-- The write of R76 of the values `val` of the elements `acts`, with their own census where the register holds none (R77). -/
theorem scWrite_map (sc : ScReg) {w : Nat} {m : Rnd} (u : Bool) (src : Int) (lane : Nat → Nat) {val : Nat → Option Int} {acts : List Nat} {k : Int × Bool}
    (L : Lanes) (hm : m ≠ .sr) (hw : 1 ≤ w) (hk : scaleShift sc src (ownCensus (acts.filterMap val)) w u = k) :
    scWrite sc w u m src none (acts.map (fun e => (lane e, val e))) L =
      { outs := acts.map (fun e => outE (throughEl w u m k (val e))), exp := expAfter src k
        cen := if acts.filterMap val = [] then none else some (ownCensus (acts.filterMap val)), lanes := L } := by
  have hlive : liveOf (acts.map (fun e => (lane e, val e))) = acts.filterMap val := by
    rw [liveOf, List.filterMap_map]
    rfl
  simp only [scWrite, scLoop_eq _ _ _ L hm hw, hlive, List.map_map]
  rw [← census_eq_ownCensus] at hk ⊢
  rw [← hk]
  rfl

theorem scExp_range {n : Nat} (x : BitVec n) : -128 ≤ scExp x ∧ scExp x ≤ 127 := by
  have h := fld_lt x 0 8
  simp only [scExp, sextI]
  split_ifs <;> omega

/-- EXP as it reads after a write of a value in range. -/
theorem scExp_of_fld {n : Nat} {x : BitVec n} {v : Int} (h : fld x 0 8 = (v % 256).toNat) (hv : -128 ≤ v ∧ v ≤ 127) : scExp x = v := by
  have hz : ((fld x 0 8 : Nat) : Int) = v % 256 := by rw [h]; omega
  simp only [scExp, sextI, hz]
  split_ifs <;> omega

theorem expAfter_range (sc : ScReg) {src : Int} (own w : Nat) (u : Bool) (h : -128 ≤ src ∧ src ≤ 127) :
    -128 ≤ expAfter src (scaleShift sc src own w u) ∧ expAfter src (scaleShift sc src own w u) ≤ 127 := by
  obtain ⟨hlo, hhi⟩ := h
  simp only [expAfter, scaleShift, decide_eq_true_eq]
  generalize (if bit sc 14 = true then fld sc 8 6 else own) = cen
  generalize ((if u = true then 31 - (cen : Int) else 32 - (cen : Int)) + (fld sc 15 2 : Int) - (w : Int)) = need
  split_ifs <;> omega

/-- The update that a write of `outs` through scale register n makes of it. -/
def throughUpd (n b : Nat) (src : Int) (k : Int × Bool) (live : List Int) (outs : List (Nat × Bool × Bool)) : ScUpd :=
  { sc := n, bound := b, exp := some (expAfter src k % 256).toNat, cen := (if live = [] then none else some (ownCensus live)).map (fun c => (c, true))
    addS := outs.countP (fun e => e.2.1), addP := outs.countP (fun e => e.2.2) }

/-- The scale register after a write through it. -/
theorem scaleWritten_merge (sc : ScReg) (n b : Nat) {src : Int} {k : Int × Bool} (live : List Int) (outs : List (Nat × Bool × Bool))
    (hexp : -128 ≤ expAfter src k ∧ expAfter src k ≤ 127) : ScaleWritten sc (scMerge sc [throughUpd n b src k live outs]) src k live outs := by
  have hcen : ∀ c ∈ (throughUpd n b src k live outs).cen, c.1 ≤ 63 := by
    intro c hc
    obtain ⟨v, hv, rfl⟩ := Option.mem_map.mp hc
    split at hv
    · cases hv
    · obtain rfl := Option.some.inj hv
      exact (ownCensus_le live).trans (by omega)
  have hout : ∀ {lo len}, lo + len ≤ 32 ∨ 64 ≤ lo → fld (scMerge sc [throughUpd n b src k live outs]) lo len =
      fld (setCen (setFld sc 0 8 (expAfter src k % 256).toNat) (throughUpd n b src k live outs).cen) lo len := by
    intro lo len h
    rw [scMerge_one sc hcen, fld_setFld_apart _ _ (by omega), fld_setFld_apart _ _ (by omega)]
    rfl
  have hmark : ∀ {x : ScReg} {c : Nat}, fld (setCen x (some (c, true))) 14 1 = 1 := fld_setFld_same _ _ (by omega)
  refine ⟨scExp_of_fld ?_ hexp, fun h => ⟨?_, ?_⟩, fun h => ?_, ?_, ?_, ?_, ?_⟩
  · rw [hout (by omega), fld_setCen_apart _ _ (by omega), fld_setFld_same _ _ (by omega)]
    exact Nat.mod_eq_of_lt (by omega)
  · rw [hout (by omega), throughUpd, if_neg h]
    refine (fld_setFld_apart _ _ (by omega)).trans ((fld_setFld_same _ _ (by omega)).trans (Nat.mod_eq_of_lt ?_))
    exact Nat.lt_of_le_of_lt (ownCensus_le live) (by omega)
  · have : b2n (bit (scMerge sc [throughUpd n b src k live outs]) 14) = 1 := by
      rw [b2n_bit, hout (by omega), throughUpd, if_neg h]
      exact hmark
    exact Bool.of_not_eq_false fun h0 => by simp [h0, b2n] at this
  · rw [hout (by omega), throughUpd, if_pos h]
    exact fld_setFld_apart _ _ (by omega)
  · rw [hout (by omega), fld_setCen_apart _ _ (by omega), fld_setFld_apart _ _ (by omega)]
  · rw [hout (by omega), fld_setCen_apart _ _ (by omega), fld_setFld_apart _ _ (by omega)]
  · rw [scMerge_one sc hcen, fld_setFld_apart _ _ (by omega), fld_setFld_same _ _ (by omega)]
    exact (Nat.mod_eq_of_lt (by simp [sat16])).trans (Nat.min_comm _ _)
  · rw [scMerge_one sc hcen, fld_setFld_same _ _ (by omega)]
    exact (Nat.mod_eq_of_lt (by simp [sat16])).trans (Nat.min_comm _ _)

end Sys2Proof.Machine
end

section
/-! PROOFS. Writes of groups of vector registers, element by element, and the narrowing of vector elements. -/
namespace Sys2Proof.Machine

/-! ## Writes of vector groups (R206, R207) -/

theorem elN_zero (g w : Nat) : elN g w 0 = g % 2 ^ w := by simp [elN, nfld]

theorem elN_succ (g w i : Nat) : elN g w (i + 1) = elN (g / 2 ^ w) w i := by
  rw [elN, elN, nfld, nfld, ← Nat.shiftRight_eq_div_pow, ← Nat.shiftRight_add, Nat.add_mul, Nat.one_mul, Nat.add_comm]

/-- Element k of a destination that takes `f` at the elements `acts`, over its old element `old` (R207). -/
def mergedEl (w vl : Nat) (vma vta : Bool) (acts : List Nat) (f : Nat → Nat) (k old : Nat) : Nat :=
  if k ∈ acts then f k % 2 ^ w else if (if k < vl then vma else vta) then 2 ^ w - 1 else old

theorem mergedEl_lt {w vl : Nat} {vma vta : Bool} {acts : List Nat} {f : Nat → Nat} {k old : Nat} (h : old < 2 ^ w) :
    mergedEl w vl vma vta acts f k old < 2 ^ w := by
  have := Nat.two_pow_pos w
  unfold mergedEl
  split_ifs
  · exact Nat.mod_lt _ this
  · exact Nat.sub_one_lt_of_lt this
  · exact h
  · exact Nat.sub_one_lt_of_lt this
  · exact h

theorem mergedEl_congr {w vl : Nat} {vma vta : Bool} {acts acts' : List Nat} {f : Nat → Nat} {k old : Nat} (h : k ∈ acts' ↔ k ∈ acts) :
    mergedEl w vl vma vta acts' f k old = mergedEl w vl vma vta acts f k old := by
  simp only [mergedEl, h]

/-- One step of the merge: its lowest element, and the merge of those above it. -/
theorem vmergeEl_step (w vl : Nat) (vma vta : Bool) (f : Nat → Nat) (n i old : Nat) {acts : List Nat} (hs : acts.Pairwise (· < ·))
    (hi : ∀ k ∈ acts, i ≤ k) :
    ∃ rest : List Nat, rest.Pairwise (· < ·) ∧ (∀ k ∈ rest, i + 1 ≤ k) ∧ (∀ k, i < k → (k ∈ rest ↔ k ∈ acts)) ∧
      vmergeEl w vl vma vta (n + 1) i old (acts.map (fun k => (k, f k))) =
        mergedEl w vl vma vta acts f i (old % 2 ^ w) + 2 ^ w * vmergeEl w vl vma vta n (i + 1) (old / 2 ^ w) (rest.map (fun k => (k, f k))) := by
  cases acts with
  | nil => exact ⟨[], .nil, by simp, by simp, by simp [vmergeEl, mergedEl]⟩
  | cons a t =>
    obtain ⟨hat, ht⟩ := List.pairwise_cons.mp hs
    by_cases ha : a = i
    · subst ha
      refine ⟨t, ht, hat, fun k hk => ?_, by simp [vmergeEl, mergedEl]⟩
      rw [List.mem_cons, or_iff_right (by omega)]
    · have hlow : ∀ k ∈ a :: t, i + 1 ≤ k := by
        have := hi a List.mem_cons_self
        intro k hk
        rcases List.mem_cons.mp hk with rfl | hk
        · omega
        · have := hat k hk
          omega
      have hni : i ∉ a :: t := fun h => absurd (hlow i h) (by omega)
      exact ⟨a :: t, hs, hlow, fun _ _ => Iff.rfl, by simp [vmergeEl, ha, mergedEl, hni]⟩

/-- Each element of a merged destination. -/
theorem elN_vmergeEl (w vl : Nat) (vma vta : Bool) (f : Nat → Nat) {n e : Nat} (he : e < n) (i old : Nat) {acts : List Nat} (hs : acts.Pairwise (· < ·))
    (hi : ∀ k ∈ acts, i ≤ k) :
    elN (vmergeEl w vl vma vta n i old (acts.map (fun k => (k, f k)))) w e = mergedEl w vl vma vta acts f (i + e) (elN old w e) := by
  induction n generalizing e i old acts with
  | zero => omega
  | succ n ih =>
    obtain ⟨rest, hrs, hri, hmem, hstep⟩ := vmergeEl_step w vl vma vta f n i old hs hi
    have hlt : mergedEl w vl vma vta acts f i (old % 2 ^ w) < 2 ^ w := mergedEl_lt (Nat.mod_lt _ (Nat.two_pow_pos w))
    rw [hstep]
    cases e with
    | zero => rw [elN_zero, elN_zero, Nat.add_mul_mod_self_left, Nat.mod_eq_of_lt hlt, Nat.add_zero]
    | succ e =>
      rw [elN_succ, elN_succ, Nat.add_mul_div_left _ _ (Nat.two_pow_pos w), Nat.div_eq_of_lt hlt, Nat.zero_add, ih (by omega) (i + 1) _ hrs hri,
        show i + 1 + e = i + (e + 1) by omega, mergedEl_congr (hmem _ (by omega))]

/-- A core in which n registers from d on take their parts of a number at bound b. -/
def vputCore (c : Core) (b d n x : Nat) : Core :=
  (List.range n).foldl (fun c j => putAt c b (.v (d + j) (BitVec.ofNat 4096 (x >>> (4096 * j))))) c

theorem vputCore_succ (c : Core) (b d n x : Nat) :
    vputCore c b d (n + 1) x = putAt (vputCore c b d n x) b (.v (d + n) (BitVec.ofNat 4096 (x >>> (4096 * n)))) := by
  rw [vputCore, List.range_succ, List.foldl_append]
  rfl

theorem modCur_vput (s : State) (b d n x : Nat) (f : Core → Core) : modCur (vput s b d n x) f = modCur s (fun c => f (vputCore c b d n x)) := by
  induction n generalizing f with
  | zero => rfl
  | succ n ih =>
    have : vput s b d (n + 1) x = wv (vput s b d n x) b (d + n) (BitVec.ofNat 4096 (x >>> (4096 * n))) := by
      rw [vput, List.range_succ, List.foldl_append]
      rfl
    rw [this, wv, modCur_modCur, ih]
    simp only [vputCore_succ]

theorem vput_nextId (s : State) (b d n x : Nat) : (vput s b d n x).nextId = s.nextId :=
  foldl_keeps (f := fun s j => wv s b (d + j) (BitVec.ofNat 4096 (x >>> (4096 * j)))) (fun s => s.nextId) (fun _ _ => rfl) (List.range n) s

/-- Registers in flight change nothing else of a core. -/
theorem vputCore_only (c : Core) {b : Nat} (d n x : Nat) (hb : 1 < b) : { vputCore c b d n x with pend := c.pend, land := c.land } = c := by
  induction n with
  | zero => rfl
  | succ n ih =>
    rw [vputCore_succ]
    refine Eq.trans ?_ ih
    exact congrArg (fun e : Core => { e with pend := c.pend, land := c.land }) (putAt_only (vputCore c b d n x) (.v (d + n) _) hb)

theorem vecLater_vputCore (c : Core) {b j n : Nat} (d x : Nat) (hb : 1 < b) (hj : j < n) :
    vecLater (vputCore c b d n x) (d + j) = BitVec.ofNat 4096 (x >>> (4096 * j)) := by
  induction n with
  | zero => omega
  | succ n ih =>
    rw [vputCore_succ]
    by_cases h : j = n
    · rw [h, vecLater_putAt_self _ _ hb]
    · rw [vecLater_putAt_ne _ hb (by simp [PDst.name]; omega), ih (by omega)]

/-- A part of a number's low bits is that part of the number. -/
theorem part_of_ofNat {n r w : Nat} (y : Nat) (h : r + w ≤ n) : (BitVec.ofNat n y).toNat / 2 ^ r % 2 ^ w = y >>> r % 2 ^ w := by
  refine Nat.eq_of_testBit_eq fun i => ?_
  rw [BitVec.toNat_ofNat, Nat.testBit_mod_two_pow, Nat.testBit_mod_two_pow, Nat.testBit_div_two_pow, Nat.testBit_mod_two_pow, Nat.testBit_shiftRight,
    Nat.add_comm r]
  by_cases hi : i < w
  · rw [decide_eq_true (by omega : i + r < n), Bool.true_and]
  · rw [decide_eq_false hi, Bool.false_and, Bool.false_and]

/-- An element of a group lies in one of its registers. -/
theorem elN_register {w : Nat} (x e : Nat) (hw : w ∣ 4096) :
    (BitVec.ofNat 4096 (x >>> (4096 * (e * w / 4096)))).toNat / 2 ^ (e * w % 4096) % 2 ^ w = elN x w e := by
  have hle : e * w % 4096 + w ≤ 4096 := by
    obtain ⟨m, hm⟩ := hw
    have hpos : 0 < m := Nat.pos_of_mul_pos_left (by omega : 0 < w * m)
    rw [hm, Nat.mul_comm e w, Nat.mul_mod_mul_left, ← Nat.mul_succ]
    exact Nat.mul_le_mul_left w (Nat.mod_lt e hpos)
  rw [part_of_ofNat _ hle, ← Nat.shiftRight_add, Nat.div_add_mod, elN, nfld]

/-- Element e of a group in flight. -/
theorem elemLater_vputCore (c : Core) {b n w e : Nat} (d x : Nat) (hb : 1 < b) (hw : w ∣ 4096) (he : e < 4096 * n / w) :
    elemLater (vputCore c b d n x) d w e = elN x w e := by
  have hpos : 0 < w := Nat.pos_of_dvd_of_pos hw (by omega)
  have hj : e * w / 4096 < n := Nat.div_lt_of_lt_mul ((Nat.lt_div_iff_mul_lt_of_dvd hpos.ne' (Dvd.dvd.mul_right hw n)).mp he)
  rw [elemLater, elemLater.bitsOfReg, vecLater_vputCore c d x hb hj]
  exact elN_register x e hw

theorem elemLater_congr {c c' : Core} (d w e : Nat) (h : ∀ r, vecLater c' r = vecLater c r) : elemLater c' d w e = elemLater c d w e := by
  rw [elemLater, elemLater, h]

/-- The destination of `vwrite` in flight, element by element. -/
theorem elemLater_written {c : Core} {v : VCfg} {b w e : Nat} (d old : Nat) (f : Nat → Nat) {acts : List Nat} (hb : 1 < b) (hw : w ∣ 4096)
    (hs : acts.Pairwise (· < ·)) (he : e < v.ne w) :
    elemLater (vputCore c b d (v.regs w) (vmergeEl w v.vl v.vma v.vta (v.ne w) 0 old (acts.map (fun k => (k, f k))))) d w e =
      mergedEl w v.vl v.vma v.vta acts f e (elN old w e) := by
  rw [elemLater_vputCore c d _ hb hw he, elN_vmergeEl w v.vl v.vma v.vta f he 0 old hs (fun k _ => Nat.zero_le k), Nat.zero_add]

/-- A core in which a group is in flight; its lane states stand. -/
def groupCore (b d n x : Nat) (L : Lanes) (c : Core) : Core := { vputCore c b d n x with lanes := L.tab }

theorem groupCore_only (c : Core) {b : Nat} (d n x : Nat) (L : Lanes) (hb : 1 < b) :
    { groupCore b d n x L c with pend := c.pend, land := c.land, lanes := c.lanes } = c :=
  congrArg (fun e : Core => { e with lanes := c.lanes }) (vputCore_only c d n x hb)

/-- An instruction that writes a group of vector registers and one scale register: both are in flight, and no scalar register changes. -/
theorem issue1_group {s : State} {o : SlotOp} {b d n x : Nat} {L : Lanes} {u : ScUpd} (hiss : Issues s o) (hon : o.on (cur s) = true)
    (he : o.effu s (o.eff s s) = (putLanes (vput s b d n x) (some L), [u])) (hb : 1 < b) (hu : u.bound = b)
    (hl : ∀ t, o.late s t = t) (hc : o.ctl s = .seq) (hk : o.commits s = false) (ha : o.cost s = none) (hi : o.issued s = 0) :
    ∃ t, issue1 o s = .next t ∧ OnlyCore s t ∧ (cur t).x = (cur s).x ∧ scaleLater (cur t) u.sc = scMerge (rsc s u.sc) [u] ∧
      ∀ i, vecLater (cur t) i = vecLater (vputCore (cur s) b d n x) i := by
  subst hu
  have honly := groupCore_only (cur s) d n x L hb
  have hcommit := commit_scale (f := groupCore u.bound d n x L) hon he (fun g => (modCur_modCur ..).trans (modCur_vput ..)) (vput_nextId ..) hb hl hc hk
    ha hi ⟨(congrArg Core.wait honly :), (congrArg Core.mwait honly :)⟩
  refine ⟨_, (issue1_of_issues hiss).trans (congrArg Host.Outcome.next hcommit), onlyCore_retired1 .., ?_, ?_, fun i => ?_⟩
  · obtain ⟨hx, -⟩ := retired1_regs s o.slot (o.occ s) (fun c => putAt (groupCore u.bound d n x L c) u.bound (.sc u.sc (scMerge (rsc s u.sc) [u])))
    exact hx.trans ((congrArg Core.x (putAt_only _ _ hb) :).trans (congrArg Core.x honly :))
  · exact (scaleLater_retired1 ..).trans (scaleLater_putAt_self _ _ hb)
  · exact (vecLater_retired1 ..).trans (vecLater_putAt_ne _ hb (by simp [PDst.name]))

/-! ## `vnclip` (R216) -/

theorem sew_dvd (c : Core) : (vcfg c).sew ∣ 4096 := by
  have h : fld c.vtype 0 2 < 4 := fld_lt c.vtype 0 2
  change 8 * 2 ^ fld c.vtype 0 2 ∣ 4096
  interval_cases fld c.vtype 0 2 <;> decide

theorem sew_pos (c : Core) : 0 < (vcfg c).sew := Nat.pos_of_dvd_of_pos (sew_dvd c) (by omega)

theorem clipW_eq (q : BitVec 1) (v : VCfg) : clipW q v = if q = 1 then 4 * v.sew else 2 * v.sew := ite_mul ..

theorem actives_eq (s : State) (v : VCfg) (m : BitVec 1) :
    actives s v (m = 1) = (List.range v.vl).filter (fun e => decide (m = 0) || (rv s 0).getLsbD e) := by
  have h : (!decide (m = 1)) = decide (m = 0) := by revert m; decide
  rw [actives, h]
  rfl

theorem rndOf_ne_sr {r : BitVec 2} (h : r ≠ 3) : rndOf r.toNat ≠ .sr := by
  revert r
  decide

/-- The effects of the slot by the result `z` of its write through the scale register. -/
theorem effu_vnclip_of {s : State} {d a p : BitVec 5} {r : BitVec 2} {m u q : BitVec 1} {g : BitVec 4} {z : ScRes} (hvl : (vcfg (cur s)).vl ≠ 0)
    (hacts : actives s (vcfg (cur s)) (m = 1) ≠ [])
    (hz : scWrite (rsc s (2 * p.toNat)) (vcfg (cur s)).sew (u = 1) (rndOf r.toNat) (scExp (rsc s (2 * p.toNat + 1))) none
      ((actives s (vcfg (cur s)) (m = 1)).map (fun i => (i % 128, decE (clipW q (vcfg (cur s))) false
        (elN (vgrp s (vcfg (cur s)) a.toNat (clipW q (vcfg (cur s)))) (clipW q (vcfg (cur s))) i)))) (rlanes s) = z) :
    let v := vcfg (cur s)
    ∃ b, 1 < b ∧ (opVnclip 4 d a p r m u q g).effu s s =
      (putLanes (vwrite s s v b d.toNat v.sew { els := (actives s v (m = 1)).zip (z.outs.map (·.code)), vl := v.vl }) (some z.lanes),
        [{ sc := 2 * p.toNat, bound := b, exp := some (z.exp % 256).toNat, cen := z.cen.map (fun c => (c, true))
           addS := z.outs.countP (·.clamped), addP := z.outs.countP (·.nai) }]) := by
  subst hz
  refine ⟨2 * vOcc (vcfg (cur s)) [⟨d.toNat, (vcfg (cur s)).sew, 1⟩, ⟨a.toNat, clipW q (vcfg (cur s)), 1⟩] + 4, by omega, ?_⟩
  simp only [opVnclip, if_neg hvl, if_neg hacts]

/-- The slot's effects: the destination written, the lane states as they were, and one update of the scale register. -/
theorem effu_vnclip {s : State} {d a p : BitVec 5} {r : BitVec 2} {m u q : BitVec 1} {g : BitVec 4} {v : VCfg} {wide : Nat} {acts : List Nat}
    (hr : r ≠ 3) (hv : vcfg (cur s) = v) (hvl : v.vl ≠ 0) (hwide : clipW q v = wide) (hacts : actives s v (m = 1) = acts) (hne : acts ≠ []) :
    let val := fun (e : Nat) => tval wide false (elN (vgrp s v a.toNat wide) wide e)
    let src := scExp (rsc s (2 * p.toNat + 1))
    let k := scaleShift (rsc s (2 * p.toNat)) src (ownCensus (acts.filterMap val)) v.sew (u = 1)
    let out := fun (e : Nat) => throughEl v.sew (u = 1) (rndOf r.toNat) k (val e)
    ∃ b, 1 < b ∧ (opVnclip 4 d a p r m u q g).effu s s =
      (putLanes (vwrite s s v b d.toNat v.sew { els := acts.map (fun e => (e, (out e).1)), vl := v.vl }) (some (rlanes s)),
        [throughUpd (2 * p.toNat) b src k (acts.filterMap val) (acts.map out)]) := by
  subst hv hwide hacts
  intro val src k out
  have hvs : (fun i => (i % 128, decE (clipW q (vcfg (cur s))) false (elN (vgrp s (vcfg (cur s)) a.toNat (clipW q (vcfg (cur s))))
      (clipW q (vcfg (cur s))) i))) = fun i => (i % 128, val i) := by simp only [val, decE_eq_tval false (elN_lt ..)]
  have hz := scWrite_map (rsc s (2 * p.toNat)) (u = 1) src (· % 128) (rlanes s) (rndOf_ne_sr hr) (sew_pos (cur s)) (rfl : _ = k)
  rw [← hvs] at hz
  obtain ⟨b, hb, heff⟩ := effu_vnclip_of hvl hne hz
  refine ⟨b, hb, heff.trans ?_⟩
  simp only [List.map_map, List.countP_map, List.map_prod_left_eq_zip (f := fun e => (out e).1), throughUpd]
  rfl

end Sys2Proof.Machine

open Sys2Proof hiding core
open Sys2Proof.Machine

/-- Settles O39: the commit leaves the destination group and the scale register in flight, the one merged element by element, the other by one update. -/
theorem narrowingThroughScale : Obligations.NarrowingThroughScale := by
  intro s d a p r m u q g hiss hon hr hvl v w wide acts val live sc src k out hne
  obtain ⟨b, hb, heff⟩ : ∃ b, 1 < b ∧ (opVnclip 4 d a p r m u q g).effu s s =
      (putLanes (vwrite s s v b d.toNat w { els := acts.map (fun e => (e, (out e).1)), vl := v.vl }) (some (rlanes s)),
        [throughUpd (2 * p.toNat) b src k live (acts.map out)]) := effu_vnclip hr rfl hvl (clipW_eq q v) (actives_eq s v m) hne
  obtain ⟨t, hnext, honly, hx, hsc, hvec⟩ := issue1_group hiss hon heff hb rfl (fun _ => rfl) rfl rfl rfl rfl
  refine ⟨t, hnext, honly, hx, fun e he => ?_, ?_⟩
  · have hasc : acts.Pairwise (· < ·) := List.Pairwise.filter _ List.pairwise_lt_range
    have hlt : (out e).1 < 2 ^ w := tput_lt _ _ (sew_pos (cur s))
    refine (elemLater_congr _ _ _ hvec).trans ((elemLater_written d.toNat _ _ hb (sew_dvd (cur s)) hasc he).trans ?_)
    rw [mergedEl, Nat.mod_eq_of_lt hlt]
  · rw [show scaleLater (cur t) (2 * p.toNat) = _ from hsc]
    exact scaleWritten_merge sc (2 * p.toNat) b live (acts.map out) (expAfter_range sc _ _ _ (scExp_range _))

end

section
/-! PROOFS. The statements of spec/05_bundle_formats_and_assembler.md on words: what `encode` writes, `decodeWord` reads, and the
other way round. A slot word is its fixed bits, a sum of fields and the guard; a word of SVI is its RISC-V fields. -/
namespace Sys2Proof

/-! ## Bits of a word -/

theorem toNat_extractLsb' (w : Word32) (p len : Nat) : (w.extractLsb' p len).toNat = w.toNat / 2 ^ p % 2 ^ len := by
  rw [BitVec.extractLsb'_toNat, Nat.shiftRight_eq_div_pow]

theorem extractLsb'_eq_iff {w : Word32} {p len : Nat} {x : BitVec len} :
    w.extractLsb' p len = x ↔ w.toNat / 2 ^ p % 2 ^ len = x.toNat := by
  rw [← BitVec.toNat_inj, toNat_extractLsb']

theorem ofNat_eq_iff {w : Word32} {n : Nat} : BitVec.ofNat 32 n = w ↔ n % 4294967296 = w.toNat := by
  rw [← BitVec.toNat_inj, BitVec.toNat_ofNat]

theorem extractLsb'_ofNat {n p len : Nat} (h : p + len ≤ 32) :
    (BitVec.ofNat 32 n).extractLsb' p len = BitVec.ofNat len (n / 2 ^ p) := by
  apply BitVec.eq_of_toNat_eq
  obtain ⟨k, hk⟩ := Nat.exists_eq_add_of_le h
  rw [BitVec.extractLsb'_toNat, BitVec.toNat_ofNat, BitVec.toNat_ofNat, Nat.shiftRight_eq_div_pow, hk, Nat.pow_add, Nat.pow_add, Nat.mul_assoc,
    Nat.mod_mul_right_div_self, Nat.mod_mul_right_mod]

/-- What stands above a field does not show in it. -/
theorem extractLsb'_add_of_dvd {n r p len : Nat} (hn : n % 2 ^ (p + len) = 0) (h : p + len ≤ 32) :
    (BitVec.ofNat 32 (n + r)).extractLsb' p len = (BitVec.ofNat 32 r).extractLsb' p len := by
  obtain ⟨k, rfl⟩ := Nat.dvd_of_mod_eq_zero hn
  rw [extractLsb'_ofNat h, extractLsb'_ofNat h, Nat.pow_add, Nat.mul_assoc, Nat.mul_add_div (Nat.two_pow_pos p)]
  apply BitVec.eq_of_toNat_eq
  simp

theorem extractLsb'_mul_add {x c r p len : Nat} (hc : c % 2 ^ (p + len) = 0) (h : p + len ≤ 32) :
    (BitVec.ofNat 32 (x * c + r)).extractLsb' p len = (BitVec.ofNat 32 r).extractLsb' p len :=
  extractLsb'_add_of_dvd (by rw [Nat.mul_mod, hc, Nat.mul_zero, Nat.zero_mod]) h

/-- A field that stands at its place is read. -/
theorem extractLsb'_field {c r p len : Nat} {f : BitVec len} (hc : c = 2 ^ p) (hr : r < c) (h : p + len ≤ 32) :
    (BitVec.ofNat 32 (f.toNat * c + r)).extractLsb' p len = f := by
  subst hc
  rw [extractLsb'_ofNat h, Nat.mul_comm, Nat.mul_add_div (Nat.two_pow_pos p), Nat.div_eq_of_lt hr, Nat.add_zero, BitVec.ofNat_toNat,
    BitVec.setWidth_eq]

theorem extractLsb'_last {len : Nat} {f : BitVec len} (h : len ≤ 32) :
    (BitVec.ofNat 32 f.toNat).extractLsb' 0 len = f := by
  rw [extractLsb'_ofNat (by omega), Nat.pow_zero, Nat.div_one, BitVec.ofNat_toNat, BitVec.setWidth_eq]

/-- A field above everything that stands in the word is zero. -/
theorem extractLsb'_zero {r p len : Nat} (hr : r < 2 ^ p) (h : p + len ≤ 32) :
    (BitVec.ofNat 32 r).extractLsb' p len = BitVec.ofNat len 0 := by
  rw [extractLsb'_ofNat h, Nat.div_eq_of_lt hr]
/-- Fields that end below a bound make a number below it. -/
theorem field_add_lt {c r b len : Nat} {f : BitVec len} (hr : r < c) (hb : c * 2 ^ len ≤ b) : f.toNat * c + r < b :=
  calc f.toNat * c + r < f.toNat * c + c := Nat.add_lt_add_left hr _
    _ = (f.toNat + 1) * c := (Nat.succ_mul ..).symm
    _ ≤ 2 ^ len * c := Nat.mul_le_mul_right c f.isLt
    _ ≤ b := Nat.mul_comm c _ ▸ hb

theorem opcode_ofNat {K r : Nat} (hr : r < 33554432 - K % 33554432) (hK : K < 4294967296) :
    (BitVec.ofNat 32 (K + r)).toNat / 33554432 = K / 33554432 := by
  rw [BitVec.toNat_ofNat]; omega

/-! ## Slot words from their fields (R121 to R125) -/

/-- The fields of a slot word above its guard, the highest first: the weight of a field's lowest bit, and its width. -/
abbrev Layout := List (Nat × Nat)

/-- What stands in the fields of a layout. -/
inductive Fields : Layout → Type
  | nil : Fields []
  | cons {c n : Nat} {l : Layout} (f : BitVec n) (v : Fields l) : Fields ((c, n) :: l)

/-- What the guard and the fields of a slot word add to its fixed bits. -/
def slotSum (g : BitVec 4) {l : Layout} : Fields l → Nat
  | .nil => g.toNat
  | .cons (c := c) f v => f.toNat * c + slotSum g v

/-- A slot word with fixed bits `K` (R121). -/
def fieldWord (K : Nat) (g : BitVec 4) {l : Layout} (v : Fields l) : Word32 := BitVec.ofNat 32 (K + slotSum g v)

theorem slotSum_single {n c : Nat} (f : BitVec n) (g : BitVec 4) :
    f.toNat * c + g.toNat = slotSum g (l := [(c, n)]) (.cons f .nil) := rfl
theorem slotSum_cons {n c : Nat} (f : BitVec n) (g : BitVec 4) {l : Layout} (v : Fields l) :
    f.toNat * c + slotSum g v = slotSum g (l := (c, n) :: l) (.cons f v) := rfl
theorem ofNat_add_slotSum (K : Nat) (g : BitVec 4) {l : Layout} (v : Fields l) :
    BitVec.ofNat 32 (K + slotSum g v) = fieldWord K g v := rfl
theorem ofNat_add_guard (K : Nat) (g : BitVec 4) : BitVec.ofNat 32 (K + g.toNat) = fieldWord K g .nil := rfl

/-- Whether the fields, and the guard below them, end below a weight. -/
def endsBelow : Layout → Nat → Bool
  | [], b => Nat.ble 16 b
  | (c, n) :: l, b => Nat.ble (c * 2 ^ n) b && endsBelow l c

/-- What the fields show in the bits `p` to `p + len - 1` of their word, where these are the bits of one field or of none. -/
def readFields (g : BitVec 4) (p len : Nat) {l : Layout} : Fields l → Option (BitVec len)
  | .nil => bif Nat.beq p 0 && Nat.beq len 4 then some (g.setWidth len) else bif Nat.ble 4 p then some 0 else none
  | .cons (c := c) (n := n) (l := l) f v =>
    bif Nat.beq (c % 2 ^ (p + len)) 0 then readFields g p len v
    else bif Nat.beq c (2 ^ p) && Nat.beq n len && endsBelow l c then some (f.setWidth len)
    else bif endsBelow ((c, n) :: l) (2 ^ p) then some 0 else none

theorem slotSum_lt {g : BitVec 4} {l : Layout} {v : Fields l} {b : Nat} (h : endsBelow l b = true) : slotSum g v < b := by
  induction v generalizing b with
  | nil => exact Nat.lt_of_lt_of_le g.isLt (Nat.le_of_ble_eq_true h)
  | cons f v ih =>
    obtain ⟨hb, hl⟩ := Bool.and_eq_true_iff.mp h
    exact field_add_lt (ih hl) (Nat.le_of_ble_eq_true hb)

theorem extractLsb'_slotSum {g : BitVec 4} {p len : Nat} {l : Layout} {v : Fields l} {x : BitVec len} (hp : p + len ≤ 32)
    (h : readFields g p len v = some x) : (BitVec.ofNat 32 (slotSum g v)).extractLsb' p len = x := by
  induction v with
  | nil =>
    simp only [readFields, Bool.cond_eq_ite, Bool.and_eq_true, Nat.beq_eq, Nat.ble_eq] at h
    split at h
    · next hg =>
      obtain ⟨rfl, rfl⟩ := hg
      cases h
      rw [BitVec.setWidth_eq]
      exact extractLsb'_last hp
    · split at h
      · next hg =>
        cases h
        exact extractLsb'_zero (Nat.lt_of_lt_of_le g.isLt (Nat.pow_le_pow_right (by decide) hg)) hp
      · cases h
  | cons f v ih =>
    simp only [readFields, Bool.cond_eq_ite, Bool.and_eq_true, Nat.beq_eq] at h
    split at h
    · next hc => exact (extractLsb'_mul_add hc hp).trans (ih h)
    · split at h
      · next hc =>
        obtain ⟨⟨rfl, rfl⟩, hl⟩ := hc
        cases h
        rw [BitVec.setWidth_eq]
        exact extractLsb'_field rfl (slotSum_lt hl) hp
      · split at h
        · next hb =>
          cases h
          exact extractLsb'_zero (slotSum_lt hb) hp
        · cases h

/-- The bits `p` to `p + len - 1` of a slot word by its fields, where its fixed bits stand above them. -/
def readWord (K : Nat) (g : BitVec 4) {l : Layout} (v : Fields l) (p len : Nat) : BitVec len :=
  match Nat.ble (p + len) 32 && Nat.beq (K % 2 ^ (p + len)) 0, readFields g p len v with
  | true, some x => x
  | _, _ => (fieldWord K g v).extractLsb' p len

theorem extractLsb'_of_fieldWord {K : Nat} {g : BitVec 4} {l : Layout} {v : Fields l} {w : Word32} (hw : fieldWord K g v = w) (p len : Nat) :
    w.extractLsb' p len = readWord K g v p len := by
  subst hw
  unfold readWord
  split
  · next x hK hv =>
    obtain ⟨hp, hK⟩ := Bool.and_eq_true_iff.mp hK
    exact (extractLsb'_add_of_dvd (Nat.eq_of_beq_eq_true hK) (Nat.le_of_ble_eq_true hp)).trans
      (extractLsb'_slotSum (Nat.le_of_ble_eq_true hp) hv)
  · rfl

/-- The opcode of a slot word is that of its fixed bits, where its fields end below it. -/
theorem opcode_of_fieldWord {K : Nat} {g : BitVec 4} {l : Layout} {v : Fields l} {w : Word32} (hw : fieldWord K g v = w)
    (h : (endsBelow l (33554432 - K % 33554432) && Nat.ble K 4294967295) = true) : w.toNat / 33554432 = K / 33554432 := by
  subst hw
  obtain ⟨hl, hK⟩ := Bool.and_eq_true_iff.mp h
  exact opcode_ofNat (slotSum_lt hl) (Nat.lt_of_le_of_lt (Nat.le_of_ble_eq_true hK) (by decide))

/-! ## Slot words as they are read -/

/-- A field and the bits below it are the bits up to its end. -/
theorem extractLsb'_mul_add_low {w : Word32} {p len c : Nat} (hc : c = 2 ^ p) :
    (w.extractLsb' p len).toNat * c + (w.extractLsb' 0 p).toNat = (w.extractLsb' 0 (p + len)).toNat := by
  simp only [toNat_extractLsb', hc, Nat.pow_zero, Nat.div_one, Nat.pow_add, Nat.mod_mul]
  rw [Nat.mul_comm, Nat.add_comm]

/-- Reserved bits that are zero add nothing to the bits below them. -/
theorem extractLsb'_eq_zero_iff {w : Word32} {p len : Nat} :
    w.extractLsb' p len = 0 ↔ (w.extractLsb' 0 p).toNat = (w.extractLsb' 0 (p + len)).toNat := by
  have := Nat.two_pow_pos p
  rw [← extractLsb'_mul_add_low rfl, ← BitVec.toNat_inj, BitVec.ofNat_eq_ofNat, BitVec.toNat_ofNat, Nat.zero_mod, Nat.right_eq_add,
    Nat.mul_eq_zero]
  omega

/-- A word is its opcode and the bits below it. -/
theorem ofNat_opcode_add {w : Word32} {k K : Nat} (hw : w.toNat / 33554432 = k) (hK : K = k * 33554432) :
    BitVec.ofNat 32 (K + (w.extractLsb' 0 25).toNat) = w := by
  apply BitVec.eq_of_toNat_eq
  rw [toNat_extractLsb', BitVec.toNat_ofNat, hK]
  omega

/-- The form of a decoder's row that has no reserved bits: like the others, a condition and the instruction. -/
theorem some_eq_some_iff {α : Type} {x y : α} : some x = some y ↔ True ∧ x = y := by
  rw [Option.some.injEq, true_and]

/-! ## What a slot decoder gives encodes to its word

The rows of two or three forms under one opcode are settled by their bits; in every other row the operands and the reserved bits make
up the word. -/

theorem encode_of_rawDecC {i : Instr} {w : Word32} (h : rawDecC w = some i) :
    (i = .nop ∨ clsOf i = some .c) ∧ encode i = some w := by
  unfold rawDecC at h
  split at h
  case h_1 =>
    obtain ⟨rfl, h⟩ := Option.ite_none_right_eq_some.mp h
    cases h
    exact ⟨.inl rfl, rfl⟩
  all_goals
    simp only [Option.ite_none_right_eq_some, some_eq_some_iff, reduceCtorEq, ← and_assoc, extractLsb'_eq_zero_iff, Nat.reduceAdd] at h
  all_goals
    obtain ⟨h, rfl⟩ := h
    refine ⟨.inr rfl, congrArg some ?_⟩
    simp only [Nat.add_assoc, h, extractLsb'_mul_add_low, Nat.reducePow, Nat.reduceAdd]
    exact ofNat_opcode_add ‹_› rfl

theorem encode_of_rawDecS {i : Instr} {w : Word32} (h : rawDecS w = some i) :
    (i = .nop ∨ clsOf i = some .s) ∧ encode i = some w := by
  unfold rawDecS at h
  split at h
  case h_1 =>
    obtain ⟨rfl, h⟩ := Option.ite_none_right_eq_some.mp h
    cases h
    exact ⟨.inl rfl, rfl⟩
  case h_43 hop =>
    split_ifs at h <;> cases h <;> refine ⟨.inr rfl, congrArg some (ofNat_eq_iff.mpr ?_)⟩ <;>
      simp only [extractLsb'_eq_iff, toNat_extractLsb', BitVec.ofNat_eq_ofNat, BitVec.toNat_ofNat] at * <;> omega
  all_goals
    simp only [Option.ite_none_right_eq_some, some_eq_some_iff, reduceCtorEq, ← and_assoc, extractLsb'_eq_zero_iff, Nat.reduceAdd] at h
  all_goals
    obtain ⟨h, rfl⟩ := h
    refine ⟨.inr rfl, congrArg some ?_⟩
    simp only [Nat.add_assoc, h, extractLsb'_mul_add_low, Nat.reducePow, Nat.reduceAdd]
    exact ofNat_opcode_add ‹_› rfl

theorem encode_of_rawDecM {i : Instr} {w : Word32} (h : rawDecM w = some i) :
    (i = .nop ∨ clsOf i = some .m) ∧ encode i = some w := by
  unfold rawDecM at h
  split at h
  case h_1 =>
    obtain ⟨rfl, h⟩ := Option.ite_none_right_eq_some.mp h
    cases h
    exact ⟨.inl rfl, rfl⟩
  all_goals
    simp only [Option.ite_none_right_eq_some, some_eq_some_iff, reduceCtorEq, ← and_assoc, extractLsb'_eq_zero_iff, Nat.reduceAdd] at h
  all_goals
    obtain ⟨h, rfl⟩ := h
    refine ⟨.inr rfl, congrArg some ?_⟩
    simp only [Nat.add_assoc, h, extractLsb'_mul_add_low, Nat.reducePow, Nat.reduceAdd]
    exact ofNat_opcode_add ‹_› rfl

theorem encode_of_rawDecV {i : Instr} {w : Word32} (h : rawDecV w = some i) :
    (i = .nop ∨ clsOf i = some .v) ∧ encode i = some w := by
  unfold rawDecV at h
  split at h
  case h_1 =>
    obtain ⟨rfl, h⟩ := Option.ite_none_right_eq_some.mp h
    cases h
    exact ⟨.inl rfl, rfl⟩
  case h_2 hop =>
    split_ifs at h <;> cases h <;> refine ⟨.inr rfl, congrArg some (ofNat_eq_iff.mpr ?_)⟩ <;>
      simp only [extractLsb'_eq_iff, toNat_extractLsb', BitVec.ofNat_eq_ofNat, BitVec.toNat_ofNat] at * <;> omega
  all_goals
    simp only [Option.ite_none_right_eq_some, some_eq_some_iff, reduceCtorEq, ← and_assoc, extractLsb'_eq_zero_iff, Nat.reduceAdd] at h
  all_goals
    obtain ⟨h, rfl⟩ := h
    refine ⟨.inr rfl, congrArg some ?_⟩
    simp only [Nat.add_assoc, h, extractLsb'_mul_add_low, Nat.reducePow, Nat.reduceAdd]
    exact ofNat_opcode_add ‹_› rfl

theorem encode_of_rawDecX {i : Instr} {w : Word32} (h : rawDecX w = some i) :
    (i = .nop ∨ clsOf i = some .x) ∧ encode i = some w := by
  unfold rawDecX at h
  split at h
  case h_1 =>
    obtain ⟨rfl, h⟩ := Option.ite_none_right_eq_some.mp h
    cases h
    exact ⟨.inl rfl, rfl⟩
  all_goals
    simp only [Option.ite_none_right_eq_some, some_eq_some_iff, reduceCtorEq, ← and_assoc, extractLsb'_eq_zero_iff, Nat.reduceAdd] at h
  all_goals
    obtain ⟨h, rfl⟩ := h
    refine ⟨.inr rfl, congrArg some ?_⟩
    simp only [Nat.add_assoc, h, extractLsb'_mul_add_low, Nat.reducePow, Nat.reduceAdd]
    exact ofNat_opcode_add ‹_› rfl

theorem encode_of_rawDecE {i : Instr} {w : Word32} (h : rawDecE w = some i) :
    (i = .nop ∨ clsOf i = some .e) ∧ encode i = some w := by
  unfold rawDecE at h
  split at h
  case h_1 =>
    obtain ⟨rfl, h⟩ := Option.ite_none_right_eq_some.mp h
    cases h
    exact ⟨.inl rfl, rfl⟩
  case h_5 hop | h_7 hop | h_17 hop =>
    split_ifs at h <;> cases h <;> refine ⟨.inr rfl, congrArg some (ofNat_eq_iff.mpr ?_)⟩ <;>
      simp only [extractLsb'_eq_iff, toNat_extractLsb', BitVec.ofNat_eq_ofNat, BitVec.toNat_ofNat] at * <;> omega
  all_goals
    simp only [Option.ite_none_right_eq_some, some_eq_some_iff, reduceCtorEq, ← and_assoc, extractLsb'_eq_zero_iff, Nat.reduceAdd] at h
  all_goals
    obtain ⟨h, rfl⟩ := h
    refine ⟨.inr rfl, congrArg some ?_⟩
    simp only [Nat.add_assoc, h, extractLsb'_mul_add_low, Nat.reducePow, Nat.reduceAdd]
    exact ofNat_opcode_add ‹_› rfl

/-! ## The word of a slot instruction is read back -/

theorem rawDecC_encode {i : Instr} {w : Word32} (hc : clsOf i = some .c) (hw : encode i = some w) : rawDecC w = some i := by
  cases i <;> cases hc <;> injection hw with hw
  case nop =>
    subst hw
    rfl
  all_goals
    simp only [Nat.add_assoc, slotSum_single, slotSum_cons, ofNat_add_slotSum, ofNat_add_guard] at hw
    simp only [rawDecC, opcode_of_fieldWord hw rfl, Nat.reduceDiv, extractLsb'_of_fieldWord hw]
    rfl

theorem rawDecS_encode {i : Instr} {w : Word32} (hc : clsOf i = some .s) (hw : encode i = some w) : rawDecS w = some i := by
  cases i <;> cases hc <;> injection hw with hw
  case movFromPall =>
    rw [ofNat_eq_iff] at hw
    simp only [rawDecS, show w.toNat / 33554432 = 42 by omega, extractLsb'_eq_iff, BitVec.ofNat_eq_ofNat, BitVec.toNat_ofNat]
    rw [if_neg (by omega), if_pos (by omega), Option.some.injEq, Instr.movFromPall.injEq]
    simp only [extractLsb'_eq_iff]
    omega
  case movToPall =>
    rw [ofNat_eq_iff] at hw
    simp only [rawDecS, show w.toNat / 33554432 = 42 by omega, extractLsb'_eq_iff, BitVec.ofNat_eq_ofNat, BitVec.toNat_ofNat]
    rw [if_neg (by omega), if_neg (by omega), if_pos (by omega), Option.some.injEq, Instr.movToPall.injEq]
    simp only [extractLsb'_eq_iff]
    omega
  all_goals
    simp only [Nat.add_assoc, slotSum_single, slotSum_cons, ofNat_add_slotSum] at hw
    simp only [rawDecS, opcode_of_fieldWord hw rfl, Nat.reduceDiv, extractLsb'_of_fieldWord hw]
    rfl

theorem rawDecM_encode {i : Instr} {w : Word32} (hc : clsOf i = some .m) (hw : encode i = some w) : rawDecM w = some i := by
  cases i <;> cases hc <;> injection hw with hw
  all_goals
    simp only [Nat.add_assoc, slotSum_single, slotSum_cons, ofNat_add_slotSum, ofNat_add_guard] at hw
    simp only [rawDecM, opcode_of_fieldWord hw rfl, Nat.reduceDiv, extractLsb'_of_fieldWord hw]
    rfl

theorem rawDecV_encode {i : Instr} {w : Word32} (hc : clsOf i = some .v) (hw : encode i = some w) : rawDecV w = some i := by
  cases i <;> cases hc <;> injection hw with hw
  case vsetvlRead =>
    rw [ofNat_eq_iff] at hw
    simp only [rawDecV, show w.toNat / 33554432 = 1 by omega, extractLsb'_eq_iff, BitVec.ofNat_eq_ofNat, BitVec.toNat_ofNat]
    rw [if_neg (by omega), if_pos (by omega), Option.some.injEq, Instr.vsetvlRead.injEq]
    simp only [extractLsb'_eq_iff]
    omega
  all_goals
    simp only [Nat.add_assoc, slotSum_single, slotSum_cons, ofNat_add_slotSum] at hw
    simp only [rawDecV, opcode_of_fieldWord hw rfl, Nat.reduceDiv, extractLsb'_of_fieldWord hw]
    rfl

theorem rawDecX_encode {i : Instr} {w : Word32} (hc : clsOf i = some .x) (hw : encode i = some w) : rawDecX w = some i := by
  cases i <;> cases hc <;> injection hw with hw
  all_goals
    simp only [Nat.add_assoc, slotSum_single, slotSum_cons, ofNat_add_slotSum, ofNat_add_guard] at hw
    simp only [rawDecX, opcode_of_fieldWord hw rfl, Nat.reduceDiv, extractLsb'_of_fieldWord hw]
    rfl

theorem rawDecE_encode {i : Instr} {w : Word32} (hc : clsOf i = some .e) (hw : encode i = some w) : rawDecE w = some i := by
  cases i <;> cases hc <;> injection hw with hw
  case qcfgSnk =>
    rw [ofNat_eq_iff] at hw
    simp only [rawDecE, show w.toNat / 33554432 = 4 by omega, extractLsb'_eq_iff, BitVec.ofNat_eq_ofNat, BitVec.toNat_ofNat]
    rw [if_neg (by omega), if_pos (by omega), Option.some.injEq, Instr.qcfgSnk.injEq]
    simp only [extractLsb'_eq_iff]
    omega
  case qdeqTile =>
    rw [ofNat_eq_iff] at hw
    simp only [rawDecE, show w.toNat / 33554432 = 6 by omega, extractLsb'_eq_iff, BitVec.ofNat_eq_ofNat, BitVec.toNat_ofNat]
    rw [if_neg (by omega), if_pos (by omega), Option.some.injEq, Instr.qdeqTile.injEq]
    simp only [extractLsb'_eq_iff]
    omega
  case slkReg =>
    rw [ofNat_eq_iff] at hw
    simp only [rawDecE, show w.toNat / 33554432 = 16 by omega, extractLsb'_eq_iff, BitVec.ofNat_eq_ofNat, BitVec.toNat_ofNat]
    rw [if_neg (by omega), if_pos (by omega), Option.some.injEq, Instr.slkReg.injEq]
    simp only [extractLsb'_eq_iff]
    omega
  all_goals
    simp only [Nat.add_assoc, slotSum_single, slotSum_cons, ofNat_add_slotSum] at hw
    simp only [rawDecE, opcode_of_fieldWord hw rfl, Nat.reduceDiv, extractLsb'_of_fieldWord hw]
    rfl

/-! ## SVI words (R307 to R317) -/

theorem toNat_append_eq {m n : Nat} (x : BitVec m) (y : BitVec n) : (x ++ y).toNat = x.toNat * 2 ^ n + y.toNat := by
  rw [BitVec.toNat_append, ← Nat.shiftLeft_add_eq_or_of_lt y.isLt, Nat.shiftLeft_eq]

/-- A word is its RISC-V fields. -/
theorem rvWord_fields {w : Word32} {op rd f3 rs1 up : Nat} (hop : w.toNat % 128 = op) (hrd : rd = (svRd w).toNat) (hf : f3 = (svF3 w).toNat)
    (hrs : rs1 = (svRs1 w).toNat) (hup : up = w.toNat / 1048576) : rvWord op rd f3 rs1 up = w := by
  subst hrd hf hrs hup hop
  rw [rvWord, ofNat_eq_iff, toNat_extractLsb', toNat_extractLsb', toNat_extractLsb']
  omega

/-- The RISC-V fields of a word made of them. -/
theorem fields_rvWord {w : Word32} {op f3 up : Nat} {rd rs1 : Nat} (hw : rvWord op rd f3 rs1 up = w) (hop : op < 128) (hrd : rd < 32) (hf : f3 < 8)
    (hrs : rs1 < 32) (hup : up < 4096) :
    w.toNat % 128 = op ∧ w.toNat / 128 % 32 = rd ∧ w.toNat / 4096 % 8 = f3 ∧ w.toNat / 32768 % 32 = rs1 ∧ w.toNat / 1048576 = up := by
  rw [rvWord, ofNat_eq_iff] at hw
  omega

theorem aluF3_sviAluOf (f : BitVec 3) (alt : Bool) : aluF3 (sviAluOf f alt) = f.toNat := by
  revert f alt; decide
theorem aluAlt_sviAluOf (f : BitVec 3) : aluAlt (sviAluOf f false) = 0 := by
  revert f; decide
theorem mulF3_sviMulOf (f : BitVec 3) : mulF3 (sviMulOf f) = f.toNat := by
  revert f; decide
theorem condF3_of_sviCondOf {f : BitVec 3} {k : SviCond} : sviCondOf f = some k → condF3 k = f.toNat := by
  revert f k; decide

/-- A shift's immediate is its amount and the bit that selects `sra`. -/
theorem shiftImm_split (i : BitVec 12) : (i &&& 0xBFF#12).toNat + (i.getLsbD 10).toNat * 1024 = i.toNat := by
  have hd : (i &&& 0xBFF#12) &&& (i &&& BitVec.twoPow 12 10) = 0#12 := by
    rw [BitVec.and_assoc, ← BitVec.and_assoc _ i, BitVec.and_comm _ i, BitVec.and_assoc i, show 0xBFF#12 &&& BitVec.twoPow 12 10 = 0#12 by decide,
      BitVec.and_zero, BitVec.and_zero]
  have hs : (i &&& 0xBFF#12) + (i &&& BitVec.twoPow 12 10) = i := by
    rw [BitVec.add_eq_or_of_and_eq_zero _ _ hd, ← BitVec.and_or_distrib_left, show 0xBFF#12 ||| BitVec.twoPow 12 10 = BitVec.allOnes 12 by decide,
      BitVec.and_allOnes]
  have ht := BitVec.toNat_add_of_and_eq_zero hd
  rw [hs, BitVec.and_twoPow] at ht
  rw [ht]
  cases i.getLsbD 10 <;> rfl

theorem load_funct3 (w : Word32) : (w.extractLsb' 12 2).toNat + (if w.getLsbD 14 then 4 else 0) = (svF3 w).toNat := by
  have h := Nat.toNat_testBit w.toNat 14
  rw [toNat_extractLsb', toNat_extractLsb', BitVec.getLsbD]
  cases hb : w.toNat.testBit 14 <;> simp [hb] at h ⊢ <;> omega

/-- The bit that selects `sra` where funct3 is that of a shift. -/
theorem aluAlt_shift {f : BitVec 3} {alt : Bool} : f = 1 ∨ f = 5 → ¬(f = 1 ∧ alt = true) → aluAlt (sviAluOf f alt) = alt.toNat := by
  revert f alt; decide

theorem encode_of_decOpImm {b : Bool} {i : Instr} {w : Word32} (hop : w.toNat % 128 = if b then 0x1B else 0x13) (h : decOpImm b w = some i) :
    clsOf i = some .svi ∧ encode i = some w := by
  simp only [decOpImm] at h
  split_ifs at h with hf ha
  · cases h
    refine ⟨rfl, congrArg some (rvWord_fields hop rfl (aluF3_sviAluOf ..) rfl ?_)⟩
    rw [aluAlt_shift hf ha, shiftImm_split, toNat_extractLsb']
    omega
  · cases h
    refine ⟨rfl, congrArg some (rvWord_fields hop rfl (aluF3_sviAluOf ..) rfl ?_)⟩
    rw [aluAlt_sviAluOf, toNat_extractLsb']
    omega

theorem encode_of_decOpReg {b : Bool} {i : Instr} {w : Word32} (hop : w.toNat % 128 = if b then 0x3B else 0x33) (h : decOpReg b w = some i) :
    clsOf i = some .svi ∧ encode i = some w := by
  simp only [decOpReg] at h
  split_ifs at h with h1 h0 h32 <;> cases h
  · refine ⟨rfl, congrArg some (rvWord_fields hop rfl (mulF3_sviMulOf ..) rfl ?_)⟩
    rw [extractLsb'_eq_iff] at h1
    rw [toNat_extractLsb']
    simp at *
    omega
  · refine ⟨rfl, congrArg some (rvWord_fields hop rfl (aluF3_sviAluOf ..) rfl ?_)⟩
    rw [extractLsb'_eq_iff] at h0
    rw [toNat_extractLsb', aluAlt_sviAluOf]
    simp at *
    omega
  · obtain ⟨h32, hf⟩ := h32
    refine ⟨rfl, congrArg some (rvWord_fields hop rfl (aluF3_sviAluOf ..) rfl ?_)⟩
    rw [extractLsb'_eq_iff] at h32
    rcases hf with hf | hf <;> rw [hf, toNat_extractLsb'] <;> simp [sviAluOf, aluAlt] at * <;> omega

theorem encode_of_decSystem {i : Instr} {w : Word32} (hop : w.toNat % 128 = 0x73) (h : decSystem w = some i) :
    clsOf i = some .svi ∧ encode i = some w := by
  simp only [decSystem] at h
  split at h
  case h_1 =>
    split_ifs at h with h1 h2 <;> cases h
    · exact ⟨rfl, congrArg some h1.symm⟩
    · exact ⟨rfl, congrArg some h2.symm⟩
  case h_8 => cases h
  all_goals
    next hf =>
    cases h
    refine ⟨rfl, congrArg some (rvWord_fields hop rfl hf.symm rfl ?_)⟩
    rw [toNat_extractLsb']
    omega

theorem encode_of_decOpV {i : Instr} {w : Word32} (hop : w.toNat % 128 = 0x57) (h : decOpV w = some i) :
    clsOf i = some .svi ∧ encode i = some w := by
  simp only [decOpV] at h
  split_ifs at h with hf h1 h2 h3 <;> cases h
  · refine ⟨rfl, congrArg some (rvWord_fields hop rfl (by rw [hf]; rfl) rfl ?_)⟩
    rw [extractLsb'_eq_iff] at h1
    rw [toNat_extractLsb']
    simp at *
    omega
  · refine ⟨rfl, congrArg some (rvWord_fields hop rfl (by rw [hf]; rfl) rfl ?_)⟩
    rw [extractLsb'_eq_iff] at h1 h2
    rw [toNat_extractLsb']
    simp at *
    omega
  · refine ⟨rfl, congrArg some (rvWord_fields hop rfl (by rw [hf]; rfl) rfl ?_)⟩
    rw [extractLsb'_eq_iff] at h1 h2 h3
    rw [toNat_extractLsb']
    simp at *
    omega
  · refine ⟨rfl, congrArg some (rvWord_fields hop rfl rfl rfl ?_)⟩
    simp only [toNat_extractLsb']
    omega

theorem encode_of_decVMem {b : Bool} {i : Instr} {w : Word32} (hop : w.toNat % 128 = if b then 0x27 else 0x07) (h : decVMem b w = some i) :
    clsOf i = some .svi ∧ encode i = some w := by
  cases h
  refine ⟨rfl, congrArg some (rvWord_fields hop rfl rfl rfl ?_)⟩
  simp only [toNat_extractLsb']
  omega

theorem of_ite_some {α : Type} {c : Prop} [Decidable c] {x i : α} {e : Option α} (h : (if c then some x else e) = some i) :
    (c ∧ x = i) ∨ e = some i := by
  split at h
  · next hc => exact .inl ⟨hc, Option.some.inj h⟩
  · exact .inr h

theorem encode_of_rawDecAg {i : Instr} {w : Word32} (h : rawDecAg w = some i) : clsOf i = some .svi ∧ encode i = some w := by
  unfold rawDecAg at h
  repeat' (replace h := of_ite_some h; obtain ⟨h, rfl⟩ | h := h)
  case inr => cases h
  all_goals
    refine ⟨rfl, congrArg some (ofNat_eq_iff.mpr ?_)⟩
    simp only [extractLsb'_eq_iff, toNat_extractLsb', BitVec.ofNat_eq_ofNat, BitVec.toNat_ofNat] at h ⊢
    omega

theorem encode_of_rawDecSvi {i : Instr} {w : Word32} (h : rawDecSvi w = some i) : clsOf i = some .svi ∧ encode i = some w := by
  unfold rawDecSvi at h
  split at h
  case h_3 hop => exact encode_of_decOpImm (b := false) hop h
  case h_4 hop => exact encode_of_decOpImm (b := true) hop h
  case h_5 hop => exact encode_of_decOpReg (b := false) hop h
  case h_6 hop => exact encode_of_decOpReg (b := true) hop h
  case h_13 hop => exact encode_of_decSystem hop h
  case h_14 hop => exact encode_of_decOpV hop h
  case h_15 hop => exact encode_of_decVMem (b := false) hop h
  case h_16 hop => exact encode_of_decVMem (b := true) hop h
  case h_17 hop | h_18 hop => exact encode_of_rawDecAg h
  case h_19 => cases h
  case h_1 hop | h_2 hop =>
    cases h
    refine ⟨rfl, congrArg some (ofNat_eq_iff.mpr ?_)⟩
    simp only [toNat_extractLsb']
    omega
  case h_7 hop =>
    cases h
    refine ⟨rfl, congrArg some (ofNat_eq_iff.mpr ?_)⟩
    have hoff : (jalOff w).toNat = _ := toNat_append_eq ..
    rw [toNat_append_eq, toNat_append_eq] at hoff
    have h31 := (w.extractLsb' 31 1).isLt
    have h12 := (w.extractLsb' 12 8).isLt
    have h20 := (w.extractLsb' 20 1).isLt
    have h21 := (w.extractLsb' 21 10).isLt
    rw [show (jalOff w).toNat / 2048 % 256 = (w.extractLsb' 12 8).toNat by omega,
      show (jalOff w).toNat / 1024 % 2 = (w.extractLsb' 20 1).toNat by omega,
      show (jalOff w).toNat % 1024 = (w.extractLsb' 21 10).toNat by omega, show (jalOff w).toNat / 524288 = (w.extractLsb' 31 1).toNat by omega]
    simp only [toNat_extractLsb']
    omega
  case h_8 hop =>
    split_ifs at h with hf
    cases h
    refine ⟨rfl, congrArg some (rvWord_fields hop rfl (by rw [hf]; rfl) rfl ?_)⟩
    rw [toNat_extractLsb']
    omega
  case h_9 hop =>
    obtain ⟨k, hk, rfl⟩ := Option.map_eq_some_iff.mp h
    refine ⟨rfl, congrArg some (ofNat_eq_iff.mpr ?_)⟩
    have hoff : (brOff w).toNat = _ := toNat_append_eq ..
    rw [toNat_append_eq, toNat_append_eq] at hoff
    have h31 := (w.extractLsb' 31 1).isLt
    have h7 := (w.extractLsb' 7 1).isLt
    have h25 := (w.extractLsb' 25 6).isLt
    have h8 := (w.extractLsb' 8 4).isLt
    rw [condF3_of_sviCondOf hk, show (brOff w).toNat / 1024 % 2 = (w.extractLsb' 7 1).toNat by omega,
      show (brOff w).toNat % 16 = (w.extractLsb' 8 4).toNat by omega,
      show (brOff w).toNat / 16 % 64 = (w.extractLsb' 25 6).toNat by omega, show (brOff w).toNat / 2048 = (w.extractLsb' 31 1).toNat by omega]
    simp only [toNat_extractLsb']
    omega
  case h_10 hop =>
    cases h
    refine ⟨rfl, congrArg some (rvWord_fields hop rfl ?_ rfl ?_)⟩
    · exact load_funct3 w
    · rw [toNat_extractLsb']
      omega
  case h_11 hop =>
    split_ifs at h with hf
    cases h
    refine ⟨rfl, congrArg some (rvWord_fields hop ?_ ?_ rfl ?_)⟩
    · rw [toNat_append_eq, toNat_extractLsb', toNat_extractLsb']
      omega
    · have := load_funct3 w
      rwa [if_neg hf] at this
    · rw [toNat_append_eq]
      simp only [toNat_extractLsb']
      omega
  case h_12 hop =>
    split_ifs at h with hf
    cases h
    refine ⟨rfl, congrArg some (rvWord_fields hop rfl (by rw [hf]; rfl) rfl ?_)⟩
    simp only [toNat_extractLsb']
    omega

theorem aluF3_lt (f : SviAlu) : aluF3 f < 8 := by
  cases f <;> decide
theorem aluAlt_le (f : SviAlu) : aluAlt f ≤ 1 := by
  cases f <;> decide
theorem sviAluOf_aluF3 (f : SviAlu) : sviAluOf (BitVec.ofNat 3 (aluF3 f)) (decide (aluAlt f = 1)) = f := by
  cases f <;> rfl
theorem sviAluOf_aluF3_false {f : SviAlu} (h : aluAlt f = 0) : sviAluOf (BitVec.ofNat 3 (aluF3 f)) false = f := by
  simpa [h] using sviAluOf_aluF3 f
theorem sviAluOf_aluF3_true {f : SviAlu} (h : aluAlt f = 1) : sviAluOf (BitVec.ofNat 3 (aluF3 f)) true = f := by
  simpa [h] using sviAluOf_aluF3 f
theorem svF3_eq_of {w : Word32} {n : Nat} (h : w.toNat / 4096 % 8 = n) : svF3 w = BitVec.ofNat 3 n := by
  rw [extractLsb'_eq_iff, BitVec.toNat_ofNat]
  omega
theorem shift_lt_of_ok {f : SviAlu} {b : Bool} {rd rs1 : BitVec 5} {imm : BitVec 12} (hs : f = .sll ∨ f = .srl ∨ f = .sra)
    (h : sviIntOk (.opImm f b rd rs1 imm) = true) : imm.toNat < 64 := by
  rcases hs with rfl | rfl | rfl <;> cases b <;> simp [sviIntOk] at h <;> omega
theorem aluAlt_of_ok {f : SviAlu} {b : Bool} {rd rs1 : BitVec 5} {imm : BitVec 12} (hs : ¬(f = .sll ∨ f = .srl ∨ f = .sra))
    (h : sviIntOk (.opImm f b rd rs1 imm) = true) : aluAlt f = 0 := by
  cases f <;> simp_all [sviIntOk, aluAlt]
theorem opImm_up_lt {f : SviAlu} {b : Bool} {rd rs1 : BitVec 5} {imm : BitVec 12}
    (h : sviIntOk (.opImm f b rd rs1 imm) = true) : imm.toNat + aluAlt f * 1024 < 4096 := by
  by_cases hs : f = .sll ∨ f = .srl ∨ f = .sra
  · have := shift_lt_of_ok hs h
    have := aluAlt_le f
    omega
  · rw [aluAlt_of_ok hs h]
    omega

theorem rawDecSvi_encInt {o : SviInt} {w : Word32} (hwf : sviIntOk o = true) (hw : encInt o = w) : rawDecSvi w = some (.sviIntegerOp o) := by
  cases o with
  | lui rd imm =>
    rw [encInt, ofNat_eq_iff] at hw
    simp only [rawDecSvi, show w.toNat % 128 = 0x37 by omega, Option.some.injEq, Instr.sviIntegerOp.injEq, SviInt.lui.injEq, extractLsb'_eq_iff]
    omega
  | auipc rd imm =>
    rw [encInt, ofNat_eq_iff] at hw
    simp only [rawDecSvi, show w.toNat % 128 = 0x17 by omega, Option.some.injEq, Instr.sviIntegerOp.injEq, SviInt.auipc.injEq, extractLsb'_eq_iff]
    omega
  | opImm f b rd rs1 imm =>
    obtain ⟨hop, hrd, hf3, hrs, hup⟩ := fields_rvWord hw (by split <;> decide) rd.isLt (aluF3_lt f) rs1.isLt (opImm_up_lt hwf)
    have hdec : rawDecSvi w = decOpImm b w := by
      cases b <;> (simp only [rawDecSvi, hop]; rfl)
    have hi : (svImm w).toNat = imm.toNat + aluAlt f * 1024 := by
      rw [toNat_extractLsb']
      omega
    rw [hdec, decOpImm, svF3_eq_of hf3]
    by_cases hs : f = .sll ∨ f = .srl ∨ f = .sra
    · have himm := shift_lt_of_ok hs hwf
      have halt : (svImm w).getLsbD 10 = decide (aluAlt f = 1) := by
        rw [BitVec.getLsbD, Nat.testBit_eq_decide_div_mod_eq, decide_eq_decide, hi]
        have := aluAlt_le f
        omega
      have hsh : svImm w &&& 0xBFF#12 = imm := by
        have h := shiftImm_split (svImm w)
        rw [halt, hi] at h
        apply BitVec.eq_of_toNat_eq
        rcases hs with rfl | rfl | rfl <;> simpa [aluAlt] using h
      simp only [halt, hsh]
      rcases hs with rfl | rfl | rfl <;> simp [aluF3, aluAlt, sviAluOf, extractLsb'_eq_iff, hrd, hrs]
    · have halt : aluAlt f = 0 := aluAlt_of_ok hs hwf
      have himm : svImm w = imm := BitVec.eq_of_toNat_eq (by rw [hi, halt, Nat.zero_mul, Nat.add_zero])
      rw [himm, if_neg (by cases f <;> simp_all [aluF3]), sviAluOf_aluF3_false halt]
      simp only [Option.some.injEq, Instr.sviIntegerOp.injEq, SviInt.opImm.injEq, extractLsb'_eq_iff, true_and, and_true]
      exact ⟨hrd, hrs⟩
  | opReg f b rd rs1 rs2 =>
    obtain ⟨hop, hrd, hf3, hrs, hup⟩ := fields_rvWord hw (by split <;> decide) rd.isLt (aluF3_lt f) rs1.isLt
      (by have := aluAlt_le f; omega)
    have hdec : rawDecSvi w = decOpReg b w := by
      cases b <;> (simp only [rawDecSvi, hop]; rfl)
    rw [hdec, decOpReg, svF3_eq_of hf3]
    simp only [extractLsb'_eq_iff, BitVec.ofNat_eq_ofNat, BitVec.toNat_ofNat]
    have := aluAlt_le f
    rw [if_neg (by omega)]
    rcases (show aluAlt f = 0 ∨ aluAlt f = 1 by omega) with h | h
    · rw [if_pos (by omega), sviAluOf_aluF3_false h]
      simp only [Option.some.injEq, Instr.sviIntegerOp.injEq, SviInt.opReg.injEq, extractLsb'_eq_iff, true_and]
      omega
    · rw [if_neg (by omega), if_pos ⟨by omega, by cases f <;> simp_all [aluF3, aluAlt]⟩, sviAluOf_aluF3_true h]
      simp only [Option.some.injEq, Instr.sviIntegerOp.injEq, SviInt.opReg.injEq, extractLsb'_eq_iff, true_and]
      omega

theorem jalOff_eq_iff {w : Word32} {x : BitVec 20} : jalOff w = x ↔
    ((w.toNat / 2147483648 % 2 * 256 + w.toNat / 4096 % 256) * 2 + w.toNat / 1048576 % 2) * 1024 + w.toNat / 2097152 % 1024 = x.toNat := by
  rw [← BitVec.toNat_inj, jalOff, toNat_append_eq, toNat_append_eq, toNat_append_eq, toNat_extractLsb', toNat_extractLsb', toNat_extractLsb',
    toNat_extractLsb']
  rfl

theorem brOff_eq_iff {w : Word32} {x : BitVec 12} : brOff w = x ↔
    ((w.toNat / 2147483648 % 2 * 2 + w.toNat / 128 % 2) * 64 + w.toNat / 33554432 % 64) * 16 + w.toNat / 256 % 16 = x.toNat := by
  rw [← BitVec.toNat_inj, brOff, toNat_append_eq, toNat_append_eq, toNat_append_eq, toNat_extractLsb', toNat_extractLsb', toNat_extractLsb',
    toNat_extractLsb']
  rfl

theorem storeOff_eq_iff {w : Word32} {x : BitVec 12} : svF7 w ++ svRd w = x ↔
    w.toNat / 33554432 % 128 * 32 + w.toNat / 128 % 32 = x.toNat := by
  rw [← BitVec.toNat_inj, toNat_append_eq, toNat_extractLsb', toNat_extractLsb']
  rfl

theorem jalOff_parts {n : Nat} {rd : BitVec 5} {off : BitVec 20}
    (hw : (0x6F + rd.toNat * 128 + off.toNat / 2048 % 256 * 4096 + off.toNat / 1024 % 2 * 1048576 + off.toNat % 1024 * 2097152 +
      off.toNat / 524288 * 2147483648) % 4294967296 = n) :
    n % 128 = 0x6F ∧ n / 128 % 32 = rd.toNat ∧ n / 4096 % 256 = off.toNat / 2048 % 256 ∧ n / 1048576 % 2 = off.toNat / 1024 % 2 ∧
      n / 2097152 % 1024 = off.toNat % 1024 ∧ n / 2147483648 = off.toNat / 524288 := by
  have h12 := Nat.mod_lt (off.toNat / 2048) (show 256 > 0 by decide)
  have h20 := Nat.mod_lt (off.toNat / 1024) (show 2 > 0 by decide)
  have h21 := Nat.mod_lt off.toNat (show 1024 > 0 by decide)
  have h31 : off.toNat / 524288 < 2 := by omega
  generalize off.toNat / 2048 % 256 = b at *
  generalize off.toNat / 1024 % 2 = c at *
  generalize off.toNat % 1024 = d at *
  generalize off.toNat / 524288 = a at *
  omega

theorem brOff_parts {n f3 : Nat} {rs1 rs2 : BitVec 5} {off : BitVec 12} (hf : f3 < 8)
    (hw : (0x63 + off.toNat / 1024 % 2 * 128 + off.toNat % 16 * 256 + f3 * 4096 + rs1.toNat * 32768 +
      rs2.toNat * 1048576 + off.toNat / 16 % 64 * 33554432 + off.toNat / 2048 * 2147483648) % 4294967296 = n) :
    n % 128 = 0x63 ∧ n / 128 % 2 = off.toNat / 1024 % 2 ∧ n / 256 % 16 = off.toNat % 16 ∧ n / 4096 % 8 = f3 ∧ n / 32768 % 32 = rs1.toNat ∧
      n / 1048576 % 32 = rs2.toNat ∧ n / 33554432 % 64 = off.toNat / 16 % 64 ∧ n / 2147483648 = off.toNat / 2048 := by
  have h7 := Nat.mod_lt (off.toNat / 1024) (show 2 > 0 by decide)
  have h8 := Nat.mod_lt off.toNat (show 16 > 0 by decide)
  have h25 := Nat.mod_lt (off.toNat / 16) (show 64 > 0 by decide)
  have h31 : off.toNat / 2048 < 2 := by omega
  generalize off.toNat / 1024 % 2 = a at *
  generalize off.toNat % 16 = b at *
  generalize off.toNat / 16 % 64 = c at *
  generalize off.toNat / 2048 = d at *
  omega

theorem rawDecSvi_encJump {o : SviJump} {w : Word32} (hw : encJump o = w) : rawDecSvi w = some (.sviTransfer o) := by
  cases o with
  | jal rd off =>
    rw [encJump, ofNat_eq_iff] at hw
    obtain ⟨hop, hrd, h12, h20, h21, h31⟩ := jalOff_parts hw
    simp only [rawDecSvi, hop, Option.some.injEq, Instr.sviTransfer.injEq, SviJump.jal.injEq, extractLsb'_eq_iff, jalOff_eq_iff]
    rw [h31, h12, h20, h21]
    exact ⟨hrd, by clear * -; omega⟩
  | jalr rd rs1 imm =>
    obtain ⟨hop, hrd, hf3, hrs, hup⟩ := fields_rvWord hw (by decide) rd.isLt (by decide) rs1.isLt imm.isLt
    simp only [rawDecSvi, hop, extractLsb'_eq_iff, BitVec.ofNat_eq_ofNat, BitVec.toNat_ofNat]
    rw [if_pos (by omega), Option.some.injEq, Instr.sviTransfer.injEq, SviJump.jalr.injEq]
    simp only [extractLsb'_eq_iff]
    omega
  | branch c rs1 rs2 off =>
    rw [encJump, ofNat_eq_iff] at hw
    obtain ⟨hop, h7, h8, hf3, hrs1, hrs2, h25, h31⟩ := brOff_parts (by cases c <;> decide) hw
    have hk : sviCondOf (svF3 w) = some c := by
      rw [svF3_eq_of hf3]
      cases c <;> rfl
    simp only [rawDecSvi, hop, hk, Option.map_some, Option.some.injEq, Instr.sviTransfer.injEq, SviJump.branch.injEq,
      extractLsb'_eq_iff, brOff_eq_iff, true_and]
    rw [h31, h7, h25, h8]
    exact ⟨hrs1, hrs2, by clear * -; omega⟩

theorem rawDecSvi_encMem {o : SviMem} {w : Word32} (hw : encMem o = w) : rawDecSvi w = some (.sviLoadStore o) := by
  cases o with
  | load z u rd rs1 imm =>
    have hz := z.isLt
    obtain ⟨hop, hrd, hf3, hrs, hup⟩ := fields_rvWord hw (by decide) rd.isLt (by split <;> omega) rs1.isLt imm.isLt
    simp only [rawDecSvi, hop, Option.some.injEq, Instr.sviLoadStore.injEq, SviMem.load.injEq, extractLsb'_eq_iff]
    refine ⟨?_, ?_, by omega, by omega, by omega⟩
    · split at hf3 <;> omega
    · rw [BitVec.getLsbD, Nat.testBit_eq_decide_div_mod_eq]
      cases u <;> simp at hf3 ⊢ <;> omega
  | store z rs1 rs2 imm =>
    have hz := z.isLt
    have h2 := rs2.isLt
    have hi := imm.isLt
    obtain ⟨hop, hrd, hf3, hrs, hup⟩ := fields_rvWord hw (by decide) (by omega) (by omega) rs1.isLt (by omega)
    have h14 : w.getLsbD 14 = false := by
      rw [BitVec.getLsbD, Nat.testBit_eq_decide_div_mod_eq]
      simp
      omega
    simp only [rawDecSvi, hop, h14, Option.some.injEq, Instr.sviLoadStore.injEq, SviMem.store.injEq, extractLsb'_eq_iff, storeOff_eq_iff,
      Bool.false_eq_true,
      if_false]
    have hdiv : w.toNat / 33554432 = imm.toNat / 32 := by
      rw [← Nat.div_div_eq_div_mul w.toNat 1048576 32, hup]
      omega
    rw [hdiv]
    omega

theorem rawDecSvi_encVec {o : SviVec} {w : Word32} (hwf : sviVecOk o = true) (hw : encVec o = w) : rawDecSvi w = some (.sviVectorOp o) := by
  cases o with
  | vsetvli rd rs1 z =>
    obtain ⟨hop, hrd, hf3, hrs, hup⟩ := fields_rvWord hw (by decide) rd.isLt (by decide) rs1.isLt (by omega)
    simp only [rawDecSvi, hop, decOpV, extractLsb'_eq_iff, BitVec.ofNat_eq_ofNat, BitVec.toNat_ofNat]
    rw [if_pos (by omega), if_pos (by omega), Option.some.injEq, Instr.sviVectorOp.injEq, SviVec.vsetvli.injEq]
    simp only [extractLsb'_eq_iff]
    omega
  | vsetivli rd u z =>
    obtain ⟨hop, hrd, hf3, hrs, hup⟩ := fields_rvWord hw (by decide) rd.isLt (by decide) u.isLt (by omega)
    simp only [rawDecSvi, hop, decOpV, extractLsb'_eq_iff, BitVec.ofNat_eq_ofNat, BitVec.toNat_ofNat]
    rw [if_pos (by omega), if_neg (by omega), if_pos (by omega), Option.some.injEq, Instr.sviVectorOp.injEq, SviVec.vsetivli.injEq]
    simp only [extractLsb'_eq_iff]
    omega
  | vsetvl rd rs1 rs2 =>
    obtain ⟨hop, hrd, hf3, hrs, hup⟩ := fields_rvWord hw (by decide) rd.isLt (by decide) rs1.isLt (by omega)
    simp only [rawDecSvi, hop, decOpV, extractLsb'_eq_iff, BitVec.ofNat_eq_ofNat, BitVec.toNat_ofNat]
    rw [if_pos (by omega), if_neg (by omega), if_neg (by omega), if_pos (by omega), Option.some.injEq, Instr.sviVectorOp.injEq, SviVec.vsetvl.injEq]
    simp only [extractLsb'_eq_iff]
    omega
  | arith f6 vm vs2 vs1 f3 vd =>
    have h3 : f3.toNat ≠ 7 := by
      intro h
      simp [sviVecOk, h] at hwf
    obtain ⟨hop, hrd, hf3, hrs, hup⟩ := fields_rvWord hw (by decide) vd.isLt f3.isLt vs1.isLt (by omega)
    simp only [rawDecSvi, hop, decOpV, extractLsb'_eq_iff, BitVec.ofNat_eq_ofNat, BitVec.toNat_ofNat]
    rw [if_neg (by omega), Option.some.injEq, Instr.sviVectorOp.injEq, SviVec.arith.injEq]
    simp only [extractLsb'_eq_iff]
    omega
  | mem st nf mew mop vm rs2 rs1 width vd =>
    obtain ⟨hop, hrd, hf3, hrs, hup⟩ := fields_rvWord hw (by split <;> decide) vd.isLt width.isLt rs1.isLt (by omega)
    have hdec : rawDecSvi w = decVMem st w := by
      cases st <;> (simp only [rawDecSvi, hop]; rfl)
    rw [hdec, decVMem, Option.some.injEq, Instr.sviVectorOp.injEq, SviVec.mem.injEq]
    simp only [extractLsb'_eq_iff, true_and]
    omega

theorem rawDecSvi_sviMul {o : SviMul} {w : Word32}
    (hw : rvWord (if o.w then 0x3B else 0x33) o.rd.toNat (mulF3 o.f) o.rs1.toNat (o.rs2.toNat + 32) = w) : rawDecSvi w = some (.sviMOp o) := by
  obtain ⟨f, b, rd, rs1, rs2⟩ := o
  obtain ⟨hop, hrd, hf3, hrs, hup⟩ := fields_rvWord hw (by split <;> decide) rd.isLt (show mulF3 f < 8 by cases f <;> decide) rs1.isLt
    (by omega)
  have hdec : rawDecSvi w = decOpReg b w := by
    cases b <;> (simp only [rawDecSvi, hop]; rfl)
  have hf : sviMulOf (svF3 w) = f := by
    rw [svF3_eq_of hf3]
    cases f <;> rfl
  simp only at hup hrs hrd
  simp only [hdec, decOpReg, hf]
  rw [if_pos (extractLsb'_eq_iff.mpr (by simp only [BitVec.ofNat_eq_ofNat, BitVec.toNat_ofNat]; omega)), Option.some.injEq, Instr.sviMOp.injEq,
    SviMul.mk.injEq]
  simp only [extractLsb'_eq_iff, true_and]
  omega

theorem rawDecSvi_encCsr {o : SviCsr} {w : Word32} (hw : encCsr o = w) : rawDecSvi w = some (.sviCsrAccess o) := by
  obtain ⟨f, imm, csr, rd, src⟩ := o
  obtain ⟨hop, hrd, hf3, hrs, hup⟩ := fields_rvWord hw (by decide) rd.isLt (by cases f <;> simp only <;> split <;> decide) src.isLt
    csr.isLt
  simp only at hup hrs hrd
  have hfields : svImm w = csr ∧ svRd w = rd ∧ svRs1 w = src := by
    simp only [extractLsb'_eq_iff]
    omega
  obtain ⟨hcsr, hrd, hsrc⟩ := hfields
  simp only [rawDecSvi, hop, decSystem, hcsr, hrd, hsrc]
  rw [svF3_eq_of hf3]
  cases f <;> cases imm <;> rfl

theorem rawDecSvi_sviFence {o : SviFence} {w : Word32}
    (hw : rvWord 0x0F o.rd.toNat 0 o.rs1.toNat (o.succ.toNat + o.pred.toNat * 16 + o.fm.toNat * 256) = w) : rawDecSvi w = some (.sviFence o) := by
  obtain ⟨fm, pred, succ, rs1, rd⟩ := o
  obtain ⟨hop, hrd, hf3, hrs, hup⟩ := fields_rvWord hw (by decide) rd.isLt (by decide) rs1.isLt (by omega)
  simp only at hup hrs hrd
  have hf : svF3 w = 0 := svF3_eq_of hf3
  simp only [rawDecSvi, hop, hf, if_true]
  rw [Option.some.injEq, Instr.sviFence.injEq, SviFence.mk.injEq]
  simp only [extractLsb'_eq_iff]
  omega

theorem rawDecSvi_encode {i : Instr} {w : Word32} (hwf : wellFormed i = true) (hc : clsOf i = some .svi) (hw : encode i = some w)
    (hne : ∀ x, i ≠ .sviill x) : rawDecSvi w = some i := by
  cases i <;> cases hc <;> injection hw with hw
  case sviIntegerOp => exact rawDecSvi_encInt hwf hw
  case sviTransfer => exact rawDecSvi_encJump hw
  case sviLoadStore => exact rawDecSvi_encMem hw
  case sviFence => exact rawDecSvi_sviFence hw
  case ecall | ebreak => subst hw; rfl
  case sviMOp => exact rawDecSvi_sviMul hw
  case sviCsrAccess => exact rawDecSvi_encCsr hw
  case sviVectorOp => exact rawDecSvi_encVec hwf hw
  case sviill x => exact absurd rfl (hne x)
  case agDrainR | agExit => subst hw; rfl
  all_goals rw [ofNat_eq_iff] at hw
  case agDrainScope f =>
    have hf : f.toNat ≠ 0 := of_decide_eq_true (Bool.and_eq_true_iff.mp hwf).1
    simp only [rawDecSvi, show w.toNat % 128 = 0x0B by omega, rawDecAg, extractLsb'_eq_iff, BitVec.ofNat_eq_ofNat, BitVec.toNat_ofNat]
    repeat rw [if_neg (by omega)]
    rw [if_pos (by omega)]
    exact congrArg (some ∘ Instr.agDrainScope) (extractLsb'_eq_iff.mpr (by omega))
  case agCont j =>
    have hj : j.toNat ≠ 0 := fun h => of_decide_eq_true hwf (BitVec.eq_of_toNat_eq h)
    simp only [rawDecSvi, show w.toNat % 128 = 0x2B by omega, rawDecAg, extractLsb'_eq_iff, BitVec.ofNat_eq_ofNat, BitVec.toNat_ofNat]
    repeat rw [if_neg (by omega)]
    rw [if_pos (by omega)]
    exact congrArg (some ∘ Instr.agCont) (extractLsb'_eq_iff.mpr (by omega))
  all_goals
    simp only [rawDecSvi, show w.toNat % 128 = 0x0B by omega, rawDecAg, extractLsb'_eq_iff, BitVec.ofNat_eq_ofNat, BitVec.toNat_ofNat]
    repeat rw [if_neg (by omega)]
    rw [if_pos (by omega)]
    congr
  all_goals
    rw [extractLsb'_eq_iff]
    omega

end Sys2Proof

open Sys2Proof hiding core
open Sys2Proof.Machine

/-- Settles O7, class by class: the fields of the word that `encode` writes are the operands, and its other bits are the ones that the
decoder's row wants. -/
theorem decodeEncode : Obligations.DecodeEncode := by
  intro i k w hwf hc hw hne
  have hfilter {o : Option Instr} (h : o = some i) : o.filter wellFormed = some i := by
    rw [h, Option.filter_some, if_pos hwf]
  cases k with
  | c => exact hfilter (rawDecC_encode hc hw)
  | s => exact hfilter (rawDecS_encode hc hw)
  | m => exact hfilter (rawDecM_encode hc hw)
  | v => exact hfilter (rawDecV_encode hc hw)
  | x => exact hfilter (rawDecX_encode hc hw)
  | e => exact hfilter (rawDecE_encode hc hw)
  | svi => exact congrArg some (congrArg (·.getD (.sviill w)) (hfilter (rawDecSvi_encode hwf hc hw hne)))

/-- Settles O8, class by class: the operands that a decoder's row reads, with the bits that it wants, make up the word; an SVI word without
a reading is held whole. -/
theorem decodeLosesNothing : Obligations.DecodeLosesNothing := by
  intro k w i h
  have hfilter {o : Option Instr} {P : Prop} (ho : o = some i → P) (h : o.filter wellFormed = some i) : wellFormed i = true ∧ P := by
    obtain ⟨h, hwf⟩ := Option.filter_eq_some_iff.mp h
    exact ⟨hwf, ho h⟩
  cases k with
  | c => exact hfilter encode_of_rawDecC h
  | s => exact hfilter encode_of_rawDecS h
  | m => exact hfilter encode_of_rawDecM h
  | v => exact hfilter encode_of_rawDecV h
  | x => exact hfilter encode_of_rawDecX h
  | e => exact hfilter encode_of_rawDecE h
  | svi =>
    cases ho : (rawDecSvi w).filter wellFormed with
    | none =>
      have hi : i = .sviill w := by
        rw [← Option.some.inj h, decSvi, ho, Option.getD_none]
      subst hi
      exact ⟨rfl, .inr rfl, rfl⟩
    | some j =>
      have hi : j = i := by
        rw [← Option.some.inj h, decSvi, ho, Option.getD_some]
      subst hi
      exact hfilter (fun hj => ⟨.inr (encode_of_rawDecSvi hj).1, (encode_of_rawDecSvi hj).2⟩) ho

end

section
/-! PROOFS. The statements of spec/05_bundle_formats_and_assembler.md on results and slots: when a scalar result stands in its register,
what a predicate instruction writes, and what a slot instruction comes to that commits, is nullified, finds its slot occupied, or faults. -/
namespace Sys2Proof.Machine

/-! ## Results and their latency bounds (R126, R128) -/

@[simp] theorem putNow_pend (c : Core) (d : PDst) : (putNow c d).pend = c.pend := by
  unfold putNow
  repeat' split
  all_goals rfl

theorem putNow_x_ne (c : Core) {d : PDst} {n : Nat} (h : d.name ≠ (0, n)) : tget 0 (putNow c d).x n = tget 0 c.x n := by
  cases d with
  | x e v =>
    by_cases he : e = 0
    · simp [putNow, he]
    · have hn : n ≠ e := fun h' => h (by rw [PDst.name, h'])
      simp [putNow, he, tget_tset_ne _ _ hn]
  | _ => rfl

theorem putNow_x_self (c : Core) {d : Nat} (v : Word) (h : d ≠ 0) : tget 0 (putNow c (.x d v)).x d = v := by simp [putNow, h]

/-- What a list of due results makes of a core. -/
def putAll (c : Core) (l : List Pend) : Core := l.foldl (fun c p => putNow c p.dst) c

theorem expire_eq (c : Core) : expire c =
    putAll { c with pend := c.pend.filter (fun p => ¬ p.ready ≤ c.ctime) } (c.pend.filter (fun p => p.ready ≤ c.ctime)).reverse := rfl

@[simp] theorem putAll_pend (l : List Pend) : ∀ c : Core, (putAll c l).pend = c.pend := by
  induction l with
  | nil => intro c; rfl
  | cons p l ih => intro c; exact (ih _).trans (putNow_pend c p.dst)

theorem putAll_x_apart {l : List Pend} {n : Nat} : ∀ c : Core, (∀ p ∈ l, p.dst.name ≠ (0, n)) → tget 0 (putAll c l).x n = tget 0 c.x n := by
  induction l with
  | nil => intro c _; rfl
  | cons p l ih =>
    intro c h
    exact (ih _ fun q hq => h q (by simp [hq])).trans (putNow_x_ne c (h p (by simp)))

/-- The result issued last is put last, over whatever came before it. -/
theorem putAll_x_newest (c : Core) (l : List Pend) {p : Pend} {d : Nat} {v : Word} (hp : p.dst = .x d v) (h : d ≠ 0) :
    tget 0 (putAll c (p :: l).reverse).x d = v := by
  rw [List.reverse_cons, putAll, List.foldl_append, List.foldl_cons, List.foldl_nil, hp]
  exact putNow_x_self _ v h

theorem pend_expire (c : Core) : (expire c).pend = c.pend.filter (fun p => ¬ p.ready ≤ c.ctime) := by rw [expire_eq, putAll_pend]

/-- Once everything has come due, nothing is in flight and every result has been put. -/
theorem expire_all {c : Core} (h : ∀ p ∈ c.pend, p.ready ≤ c.ctime) : expire c = putAll { c with pend := [] } c.pend.reverse := by
  rw [expire_eq, List.filter_eq_nil_iff.mpr (by simpa using h), List.filter_eq_self.mpr (by simpa using h)]

theorem pendX_eq_false {c : Core} (d : Nat) (h : ∀ p ∈ c.pend, p.dst.name ≠ (0, d)) : pendX c d = false := by
  rw [pendX, List.any_eq_false]
  intro p hp
  cases hd : p.dst with
  | x e v =>
    have : e ≠ d := fun he => h p hp (by rw [hd, PDst.name, he])
    simpa using this
  | _ => simp

theorem pendX_of_mem {c : Core} {p : Pend} {d : Nat} {v : Word} (hp : p ∈ c.pend) (hd : p.dst = .x d v) : pendX c d = true := by
  rw [pendX, List.any_eq_true]
  exact ⟨p, hp, by rw [hd]; simp⟩

theorem foldl_max_ne_none (l : List Nat) : ∀ n, l.foldl (fun (m : Option Nat) r => some (Nat.max r (m.getD 0))) (some n) ≠ none := by
  induction l with
  | nil => intro n; exact Option.some_ne_none n
  | cons r l ih => intro n; exact ih _

/-- With no write of a register in flight, no pending result goes to it. -/
theorem pend_of_inflight_none {c : Core} {nm : Nat × Nat} (h : inflight c nm = none) : ∀ p ∈ c.pend, p.dst.name ≠ nm := by
  intro p hp hn
  have hmem : p.ready ∈ (c.pend.filter (fun p => p.dst.name = nm)).map (·.ready) ++
      (c.land.filter (fun l => l.dst.names.contains nm && !l.dead.contains nm.2)).map (·.at_) :=
    List.mem_append_left _ (List.mem_map.mpr ⟨p, List.mem_filter.mpr ⟨hp, by simpa using hn⟩, rfl⟩)
  unfold inflight at h
  dsimp only at h
  revert h hmem
  generalize (c.pend.filter (fun p => p.dst.name = nm)).map (·.ready) ++ _ = l
  intro h hmem
  cases l with
  | nil => simp at hmem
  | cons r l => exact foldl_max_ne_none l _ h

theorem scalarPut_now {c : Core} {b d : Nat} (v : Word) (hd : d ≠ 0) (hb : b ≤ 1) (hi : inflight c (0, d) = none) :
    scalarPut b d v c = putNow c (.x d v) := by
  rw [scalarPut, if_neg hd, putAt, show inflight c (PDst.name (.x d v)) = none from hi]
  exact if_pos hb

/-- A result of a longer bound, or one behind an earlier write in flight, is the newest pending one. -/
theorem scalarPut_later {c : Core} {b d : Nat} (v : Word) (hd : d ≠ 0) (h : 1 < b ∨ inflight c (0, d) ≠ none) :
    ∃ p l, (scalarPut b d v c).pend = p :: l ∧ p.dst = .x d v ∧ c.ctime + b ≤ p.ready := by
  rw [scalarPut, if_neg hd, putAt]
  cases hi : inflight c (PDst.name (.x d v)) with
  | none =>
    have hb : ¬ b ≤ 1 := by have := h.resolve_right (fun hn => hn hi); omega
    simp only [if_neg hb]
    exact ⟨_, _, rfl, rfl, Nat.le_refl _⟩
  | some r => exact ⟨_, _, rfl, rfl, Nat.le_max_left _ _⟩

/-! ## The relations of `cmp` (R165) -/

theorem cmpRel_of_rel {c : BitVec 3} {x y : Word} {v : Bool} (h : predRow.rel c x y = some v) : cmpRel c x y = v ∧ c ≠ 7 := by
  have hc : ∀ n, n < 7 → c.toNat = n → c ≠ 7 := fun n h7 hn he => by
    rw [he] at hn
    exact absurd h7 (by rw [← hn]; decide)
  unfold predRow.rel at h
  unfold cmpRel
  split at h
  case h_8 => cases h
  all_goals
    rename_i hn
    rw [← Option.some.inj h]
    refine ⟨?_, hc _ (by decide) hn⟩
    simp only [hn, BitVec.slt, BitVec.ult, ← Int.not_lt, ← Nat.not_lt, decide_not, ge_iff_le]

theorem rp_eq (s : State) (j : BitVec 3) : rp (cur s) j.toNat = predRow.pr s j := by
  simp only [rp, predRow.pr, bit, ← BitVec.toNat_inj]
  rfl

/-- A predicate instruction in an open slot, under the decode check that it makes. -/
theorem predicate_open {s : State} {g : BitVec 4} {d : BitVec 3} {f : State → Bool} {l : State → Bool} {v : Bool} (h : Open s 1 g)
    (hl : l s = true) (hv : f s = v) : issue1 { opP 1 g d.toNat f with legal := l } s =
      .next (retired1 s 1 1 (fun c => if d = 0 then c else { c with p := setFld c.p d.toNat 1 (b2n v) })) := by
  have hd : d.toNat = 0 ↔ d = 0 := by rw [← BitVec.toNat_inj]; rfl
  subst hv
  refine open_commits (o := { opP 1 g d.toNat f with legal := l }) h hl rfl rfl rfl rfl (fun _ => rfl) ?_ (fun _ => rfl) (fun _ => rfl) rfl rfl rfl rfl
    (by split <;> exact ⟨rfl, rfl⟩)
  by_cases h0 : d = 0
  · exact .inr ⟨if_pos (hd.mpr h0), if_pos h0⟩
  · refine .inl (Eq.trans (b := modCur s (fun c => { c with p := setFld c.p d.toNat 1 (b2n (f s)) })) (if_neg (mt hd.mp h0)) ?_)
    simp only [h0, if_false]

/-! ## Nullified and occupied slots (R129 to R133) -/

/-- The commit of a matrix instruction whose guard is off: it still charges the Annealer. -/
theorem commit_off_charged {s : State} {o : SlotOp} {n : Nat × Nat} (hon : o.on (cur s) = false) (ha : o.cost s = some n) :
    commit s [o] = retired1 s o.slot (o.occ s) (fun c => { c with debt := c.debt + n.1, gang := n.2, denied := false }) := by
  have e1 : effects s [o] s = s := by simp [effects, effectsGo, hon, putScales]
  have e2 : lates s [o] s = s := by simp [lates, hon]
  have e3 : bundleOrder s [o] s = s := by simp [bundleOrder]
  have e4 : ctlOf s [o] = .seq := by simp [ctlOf, hon]
  have e5 : issuedOf s [o] = 0 := by simp [issuedOf, hon]
  have e6 : costOf s [o] = some n := by simp [costOf, ha]
  have e7 := settle_same [o] .seq (p := s) (s := s) rfl rfl
  simp [commit, e1, e2, e3, e4, e5, e6, e7, hon, control, afterCommit, retired1, occupy, leave, modCur]

/-- A nullified instruction that reaches step 5 passes its checks. -/
theorem issues_of_nullified {s : State} {o : SlotOp} (h : Reaches s o) (hon : o.on (cur s) = false)
    (ha : o.cost s = none ∨ (cur s).debt < (cur s).al) : Issues s o := by
  obtain ⟨hocc, hleg, hres, hroom, -⟩ := h
  exact ⟨hocc, hleg, hres, hroom, fun h => by simp [hon] at h, ha⟩

theorem on_of_guard_off {s : State} {o : SlotOp} (h : guardOn (cur s) o.guard = false) : o.on (cur s) = false := by simp [SlotOp.on, h]

theorem issue_occupied {s : State} {o : SlotOp} (h : occupied (cur s) o.slot = true) : issue [o] s = setCur s (frzBusy (cur s)) := by
  simp [issue, h]

/-- A saturating count, up to the highest value of its field. -/
theorem fld_satAdd_same {n : Nat} (x : BitVec n) {lo len : Nat} (hn : lo + len ≤ n) :
    fld (satAdd x lo len) lo len = Nat.min (fld x lo len + 1) (2 ^ len - 1) := by
  have hlt := fld_lt x lo len
  unfold satAdd
  split
  · rename_i h
    rw [fld_setFld_same x _ hn, Nat.mod_eq_of_lt h]
    exact (Nat.min_eq_left (by omega)).symm
  · exact (show fld x lo len = 2 ^ len - 1 by omega).trans (Nat.min_eq_right (by omega)).symm

theorem fld_satAdd_apart {n : Nat} (x : BitVec n) {lo len lo' len' : Nat} (h : lo' + len' ≤ lo ∨ lo + len ≤ lo') :
    fld (satAdd x lo len) lo' len' = fld x lo' len' := by
  unfold satAdd
  split
  · exact fld_setFld_apart x _ h
  · rfl

/-! ## Faults of steps 1 and 5 (R122, R130, R132, R137, R355) -/

theorem setFld_one_bit {j : Nat} (h : j < 8) : setFld (0 : BitVec 8) j 1 1 = BitVec.ofNat 8 (2 ^ j) := by
  interval_cases j <;> rfl

theorem first_bit_one_bit {j : Nat} (h : j < 8) : (List.range 8).find? (fun k => bit (BitVec.ofNat 8 (2 ^ j)) k) = some j := by
  interval_cases j <;> rfl

/-- A lone word that fails step 1. -/
theorem issue_undef {s : State} {o : SlotOp} (hocc : (cur s).oclk ≥ tget 0 (cur s).occ o.slot) (hslot : o.slot < 8)
    (hm : masked (cur s) o.slot = false) (hl : o.legal s = false) : issue [o] s = undefAt s (BitVec.ofNat 8 (2 ^ o.slot)) := by
  have ho : occupied (cur s) o.slot = false := by simpa [occupied] using hocc
  have hbad : [o].filter (fun o => !masked (cur s) o.slot && !o.legal s) = [o] := by simp [hm, hl]
  unfold issue
  simp only [List.any_cons, List.any_nil, Bool.or_false, ho, hbad, Bool.false_eq_true, if_false, ne_eq, List.cons_ne_nil, not_false_eq_true, if_true,
    List.foldl_cons, List.foldl_nil, setFld_one_bit hslot]

/-- With EMUEN set a word that fails step 1 leads to the emulation handler, at once where R136 holds (R355). -/
theorem undefAt_emulated {s : State} {m : BitVec 8} {pa : Nat} {b : Bundle} (hemu : (cur s).emuAct = false) (hen : bit (entD (cur s) 10) 40 = true)
    (hic : (cur s).ic.find? (fun e => e.1 = (arena s (cur s)).1 + (cur s).pc.toNat) = some (pa, b)) :
    undefAt s m = if quiet (cur s) then emuEnter s s.cur b m else setCur s { cur s with wait := .emu m b } := by
  have hb : ((cur s).ic.find? (fun e => e.1 = (arena s (cur s)).1 + (cur s).pc.toNat)).elim 0 (·.2) = b := by rw [hic]; rfl
  subst hb
  exact (if_neg (by simp [hemu])).trans (if_pos hen)

theorem faultAt_quiet {s : State} {i : FaultInfo} (hq : quiet (cur s) = true) :
    faultAt s i = takeTrap (countErr s i.code) s.cur { info := repInfo s (cur s) i, off := repOff s (cur s) } [] := by
  have hc : cur (countErr s i.code) = cur s ∧ (countErr s i.code).cur = s.cur := by unfold countErr; split <;> exact ⟨rfl, rfl⟩
  rw [faultAt, raiseTrap, hc.1, hc.2, if_pos hq]

theorem countErr_of_ne {s : State} {c : Code} (h : c ≠ .uecc) : countErr s c = s := if_neg h

/-- A lone instruction that reaches step 5 and fails a check of its own. -/
theorem issue_fault {s : State} {o : SlotOp} {f : FaultInfo} (h : Reaches s o) (hon : o.on (cur s) = true)
    (hf : o.check s (o.issued s) = some f) : issue [o] s = bump (faultAt (modCur s giveUp) f) := by
  obtain ⟨hocc, hleg, hres, hroom, hrest⟩ := h
  obtain ⟨hadm, hpr, hprobe⟩ := hrest hon
  have hb : ([o].filter (fun o => !masked (cur s) o.slot && !o.legal s)) = [] := by
    rcases Bool.eq_false_or_eq_true (masked (cur s) o.slot) with hm | hm <;> simp_all
  have hp : preadOf s [o] = none := by simp [preadOf, hon, hpr]
  have hi : issuedOf s [o] = o.issued s := by simp [issuedOf, hon]
  have hff : firstFault s (issuedOf s [o]) [o] (fld (cur s).joincnt 0 16) = some f := by simp [firstFault, hon, hi, hf]
  have hq : ¬ (cur s).probed < o.probe s := by omega
  unfold issue
  simp only [hb, List.any_cons, List.any_nil, Bool.or_false, hocc, hres, hroom, Bool.false_eq_true, if_false, ne_eq, not_true_eq_false]
  simp [hon, hadm, hp, hff, hq]

/-- What the record of a fault says does not depend on the marks of a bundle that waits for issue. -/
theorem faultAt_giveUp {s : State} {i : FaultInfo} (hq : quiet (cur s) = true) : faultAt (modCur s giveUp) i =
    takeTrap (countErr (modCur s giveUp) i.code) s.cur { info := repInfo s (cur s) i, off := repOff s (cur s) } [] := by
  rw [faultAt_quiet (by rw [cur_modCur]; exact hq), cur_modCur]
  rfl

/-- Entry into the emulation handler: its record in the scratchpad, and the core at EMUPC (R355). -/
theorem emuEnter_spec (s : State) (k : Nat) (b : Bundle) (m : BitVec 8) :
    let c := core s k
    let a := spLoc k (fld (entD c 11) 0 21)
    let t := emuEnter s k b m
    core t k = { c with
      emuAct := true, emuMask := m, epc := c.pc, pc := BitVec.ofNat 64 (fld (entD c 10) 0 40), wait := .none, frz := 0, skipBk := false } ∧
    rd t a 32 = b.toNat ∧ rd t (a + 32) 8 = c.pc.toNat ∧ rd t (a + 40) 24 = m.toNat ∧
    (∀ x, x < a ∨ a + 64 ≤ x → rdB t x = rdB s x) ∧ ∀ j, j ≠ k → core t j = core s j := by
  intro c a t
  have hrd : ∀ x n, rd t x n = rd (wr (wr (wr s a 32 b.toNat) (a + 32) 8 c.pc.toNat) (a + 40) 24 m.toNat) x n := fun _ _ => rfl
  refine ⟨core_modCore_self .., ?_, ?_, ?_, fun x hx => ?_, fun j hj => core_modCore_ne _ _ hj⟩
  · rw [hrd, rd_wr_out _ (by omega), rd_wr_out _ (by omega), rd_wr_self]
    exact Nat.mod_eq_of_lt b.isLt
  · rw [hrd, rd_wr_out _ (by omega), rd_wr_self]
    exact Nat.mod_eq_of_lt c.pc.isLt
  · rw [hrd, rd_wr_self]
    exact Nat.mod_eq_of_lt (Nat.lt_of_lt_of_le m.isLt (by decide))
  · have hx' : rdB t x = rdB (wr (wr (wr s a 32 b.toNat) (a + 32) 8 c.pc.toNat) (a + 40) 24 m.toNat) x := rfl
    rw [hx', rdB_wr_out _ (by omega), rdB_wr_out _ (by omega), rdB_wr_out _ (by omega)]

end Sys2Proof.Machine

open Sys2Proof hiding core
open Sys2Proof.Machine

/-- Settles O2. A result goes into its register at once (`scalarPut_now`) or is the newest pending one (`scalarPut_later`), and the newest is put last. -/
theorem scalarResultBound : Obligations.ScalarResultBound := by
  intro c b d v hd
  refine ⟨fun hb hi => ?_, fun hb hi now hnow => ?_, fun now hdue => ?_⟩
  · rw [scalarPut_now v hd hb hi]
    exact ⟨putNow_x_self c v hd, pendX_eq_false d (by simpa using pend_of_inflight_none hi)⟩
  · obtain ⟨p, l, hp, hpd, hr⟩ := scalarPut_later (c := c) v hd (.inl hb)
    refine pendX_of_mem (p := p) ?_ hpd
    rw [pend_expire, List.mem_filter]
    exact ⟨by simp [hp], by simp; omega⟩
  · have hall := expire_all (c := { scalarPut b d v c with ctime := now }) hdue
    refine ⟨?_, pendX_eq_false d (by simp [hall])⟩
    rw [hall]
    by_cases h : 1 < b ∨ inflight c (0, d) ≠ none
    · obtain ⟨p, l, hp, hpd, -⟩ := scalarPut_later (c := c) v hd h
      simpa only [hp] using putAll_x_newest _ l hpd hd
    · obtain ⟨hb, hi⟩ : ¬ 1 < b ∧ inflight c (0, d) = none := by simpa using h
      rw [scalarPut_now v hd (by omega) hi, putAll_x_apart _ (by simpa using pend_of_inflight_none hi)]
      exact putNow_x_self c v hd

/-- Settles O3, one case for each row of `predRow`. -/
theorem predicateResults : Obligations.PredicateResults := by
  refine ⟨fun s i g d v h ho => ?_, fun s a g ho => ?_⟩
  · cases i with
    | cmp e a b c g' | cmpi e a b c g' =>
      obtain ⟨r, hr, hv⟩ := Option.map_eq_some_iff.mp h
      obtain ⟨hrel, hc⟩ := cmpRel_of_rel hr
      cases hv
      exact predicate_open ho (decide_eq_true hc) hrel
    | pand e a b g' | por e a b g' | pxor e a b g' | pandn e a b g' =>
      cases h
      exact predicate_open ho rfl (by rw [← rp_eq, ← rp_eq])
    | _ => cases h
  · rw [bitsAt, ← fld_eq_div]
    exact open_commits (o := opMovToPall 1 a g) ho rfl rfl rfl rfl rfl (fun _ => rfl) (.inl rfl) (fun _ => rfl) (fun _ => rfl) rfl rfl rfl rfl
      ⟨rfl, rfl⟩

/-- Settles O11: `exec_slotOf` and `issue1_of_issues`. -/
theorem issueCommits : Obligations.IssueCommits := by
  intro i o s hslot hiss
  rw [exec_slotOf hslot]
  exact issue1_of_issues hiss

/-- Settles O12: a nullified instruction passes the checks that are made for executed ones, and an occupied slot stops the issue before any of them. -/
theorem slotsNullifiedOrOccupied : Obligations.SlotsNullifiedOrOccupied := by
  refine ⟨fun i o s hslot hg hr => ⟨fun ha => ?_, fun n ha hdebt => ?_⟩, fun i o s hslot hocc => ?_⟩
  · have hon := on_of_guard_off hg
    rw [exec_slotOf hslot, ← commit_off hon ha]
    exact issue1_of_issues (issues_of_nullified hr hon (.inl ha))
  · have hon := on_of_guard_off hg
    rw [exec_slotOf hslot, ← commit_off_charged hon ha]
    exact issue1_of_issues (issues_of_nullified hr hon (.inr hdebt))
  · refine ⟨setCur s (frzBusy (cur s)), by rw [exec_slotOf hslot, issue_occupied (by simpa [occupied] using hocc)],
      ⟨rfl, fun k hk => core_setCur_ne s _ hk⟩, rfl, fun a => rfl, ?_⟩
    rw [cur_setCur]
    exact ⟨rfl, rfl, rfl, rfl, fld_satAdd_same _ (by decide), fld_satAdd_apart _ (by decide), fld_satAdd_apart _ (by decide), rfl⟩

/-- Settles O13: `issue_undef` for the words that fail step 1, `issue_fault` for the checks of step 5. -/
theorem preciseFaults : Obligations.PreciseFaults := by
  refine ⟨fun i o s hslot hocc h8 hm hl hemu hen hq => ?_, fun i o s b hslot hocc h8 hm hl hemu hen => ?_, fun i o s f hslot hr hon hf hq => ?_⟩
  · refine ⟨{ code := .undef, slot := o.slot, engine := slotEngine o.slot }, rfl, rfl, rfl, ?_⟩
    rw [exec_slotOf hslot, issue_undef hocc h8 hm hl, undefAt, first_bit_one_bit h8]
    simp only [hemu, hen, Bool.false_eq_true, if_false, Option.getD_some]
    rw [faultAt_quiet hq, countErr_of_ne (Code.noConfusion ·)]
  · intro c pa m a hic
    rw [exec_slotOf hslot, issue_undef hocc h8 hm hl, undefAt_emulated hemu hen hic]
    refine ⟨fun hq => by rw [hq]; rfl, fun hq => ?_⟩
    rw [if_pos hq]
    obtain ⟨hcore, hbun, hpc, hmask, hmem, hoth⟩ := emuEnter_spec s s.cur b m
    exact ⟨_, rfl, hoth, hcore, hbun, hpc, hmask, hmem⟩
  · rw [exec_slotOf hslot, issue_fault hr hon hf, faultAt_giveUp hq]

end

section
/-! PROOFS. The statements of spec/05_bundle_formats_and_assembler.md on traps: the record that a stopping fault leaves in the context's ring or in the hub,
the task that stops, and the task that is resumed. -/
namespace Sys2Proof.Machine

/-! ## Fault links in memory (R306, R390) -/

/-- Fault links stored one behind the other, 16 bytes each, from entry i on. -/
def wrLinks (s : State) (a i : Nat) (l : List (BitVec 128)) : State := (l.zipIdx i).foldl (fun s e => wr s (a + 16 * e.2) 16 e.1.toNat) s

theorem wrLinks_cons (s : State) (a i : Nat) (e : BitVec 128) (l : List (BitVec 128)) :
    wrLinks s a i (e :: l) = wrLinks (wr s (a + 16 * i) 16 e.toNat) a (i + 1) l := rfl

theorem wrLinks_mem_only (l : List (BitVec 128)) (s : State) (a i : Nat) : { wrLinks s a i l with mem := s.mem } = s :=
  foldl_mem_only (f := fun s (e : BitVec 128 × Nat) => wr s (a + 16 * e.2) 16 e.1.toNat) (fun _ _ => rfl) (l.zipIdx i) s

theorem rdB_wrLinks_out (l : List (BitVec 128)) : ∀ (s : State) {a i b : Nat}, b < a + 16 * i ∨ a + 16 * (i + l.length) ≤ b →
    rdB (wrLinks s a i l) b = rdB s b := by
  induction l with
  | nil => intros; rfl
  | cons e l ih =>
    intro s a i b h
    rw [List.length_cons] at h
    rw [wrLinks_cons, ih _ (by omega), rdB_wr_out s (by omega)]

theorem rd_wrLinks_out (l : List (BitVec 128)) (s : State) {a i b n : Nat} (h : b + n ≤ a + 16 * i ∨ a + 16 * (i + l.length) ≤ b) :
    rd (wrLinks s a i l) b n = rd s b n :=
  rd_congr fun c h1 h2 => rdB_wrLinks_out l s (by omega)

theorem rd_wrLinks (l : List (BitVec 128)) : ∀ (s : State) (a i j : Nat), j < l.length →
    rd (wrLinks s a i l) (a + 16 * (i + j)) 16 = (l.getD j 0).toNat := by
  induction l with
  | nil => intro s a i j h; exact absurd h (Nat.not_lt_zero j)
  | cons e l ih =>
    intro s a i j h
    rw [wrLinks_cons]
    cases j with
    | zero =>
      rw [rd_wrLinks_out l _ (by omega), Nat.add_zero, rd_wr_self]
      exact Nat.mod_eq_of_lt e.isLt
    | succ j =>
      rw [show i + (j + 1) = i + 1 + j by omega, ih _ _ _ _ (by simpa using h)]
      rfl

/-! ## A record in the fault ring (R390) -/

/-- Where the entry of the ring's tail stands. -/
def FRing.entry (f : FRing) : Nat := f.base + 128 + 128 * (f.tail % 2 ^ f.log2n)

theorem ringPut_eq (s : State) (f : FRing) (r : FaultRec) : ringPut s f.base f.log2n f.tail r =
    wr (wrLinks (wrWords s f.entry r.g) (f.entry + 64) 0 (r.links.take 4)) (f.base + 8) 4 ((f.tail + 1) % 2 ^ 32) := rfl

theorem ringPut_mem_only (s : State) (f : FRing) (r : FaultRec) : { ringPut s f.base f.log2n f.tail r with mem := s.mem } = s := by
  rw [ringPut_eq]
  have h1 := wrWords_mem_only r.g s f.entry
  have h2 := wrLinks_mem_only (r.links.take 4) (wrWords s f.entry r.g) (f.entry + 64) 0
  exact (congrArg (fun u : State => { u with mem := s.mem }) h2 :).trans h1

/-- What a record of eight doublewords and its links leave in memory, with the ring's tail. -/
def RingHolds (s t : State) (f : FRing) (r : FaultRec) : Prop :=
  (∀ j, j < 8 → rd t (f.entry + 8 * j) 8 = (r.g.getD j 0).toNat) ∧ rd t (f.base + 8) 4 = (f.tail + 1) % 2 ^ 32 ∧
    (∀ j, j < 4 → j < r.links.length → rd t (f.entry + 64 + 16 * j) 16 = (r.links.getD j 0).toNat) ∧
    ∀ b, (b < f.entry ∨ f.entry + 64 + 16 * Nat.min 4 r.links.length ≤ b) → (b < f.base + 8 ∨ f.base + 12 ≤ b) → rdB t b = rdB s b

theorem RingHolds.congr {s t s' t' : State} {f : FRing} {r : FaultRec} (h : RingHolds s t f r) (hs : s'.mem = s.mem) (ht : t'.mem = t.mem) :
    RingHolds s' t' f r := by
  have hrd : ∀ a n, rd t' a n = rd t a n := fun a n => rd_congr fun b _ _ => rdB_congr ht b
  obtain ⟨hg, htail, hlinks, hout⟩ := h
  refine ⟨fun j hj => (hrd _ _).trans (hg j hj), (hrd _ _).trans htail, fun j h1 h2 => (hrd _ _).trans (hlinks j h1 h2), fun b h1 h2 => ?_⟩
  rw [rdB_congr ht, rdB_congr hs, hout b h1 h2]

theorem ringPut_holds (s : State) (f : FRing) {r : FaultRec} (hg : r.g.length = 8) : RingHolds s (ringPut s f.base f.log2n f.tail r) f r := by
  have hlen : (r.links.take 4).length = Nat.min 4 r.links.length := List.length_take
  have hmin : Nat.min 4 r.links.length ≤ 4 := Nat.min_le_left ..
  have he : f.base + 128 ≤ f.entry := Nat.le_add_right ..
  rw [ringPut_eq]
  refine ⟨fun j hj => ?_, ?_, fun j h4 hj => ?_, fun b h1 h2 => ?_⟩
  · rw [rd_wr_out _ (by omega), rd_wrLinks_out _ _ (by omega), rd_wrWords _ _ _ _ (by omega)]
  · rw [rd_wr_self]
    exact Nat.mod_eq_of_lt (Nat.mod_lt _ (by decide))
  · have hin : j < (r.links.take 4).length := by
      rw [hlen]
      exact Nat.lt_min.mpr ⟨h4, hj⟩
    have hlink := rd_wrLinks (r.links.take 4) (wrWords s f.entry r.g) (f.entry + 64) 0 j hin
    rw [Nat.zero_add] at hlink
    rw [rd_wr_out _ (by omega), hlink, List.getD_eq_getElem?_getD, List.getElem?_take_of_lt h4, List.getD_eq_getElem?_getD]
  · rw [rdB_wr_out _ (by omega), rdB_wrLinks_out _ _ (by omega), rdB_wrWords_out _ _ (by omega)]

/-! ## A stopping fault that is recorded (R363, R389, R390) -/

/-- The record of a fault that stops the task of core k. -/
def stopRec (s : State) (k : Nat) (i : FaultInfo) (off : Word) (links : List (BitVec 128)) : FaultRec :=
  { g := faultWords i (core s k).ctx (core s k).trec.committed true (core s k).emuAct k (core s k).trec.qid (core s k).ltag (core s k).trec.w1
      (fld off 0 40) links.length (core s k).wtime
    links := links, stopping := true }

theorem report_eq (s : State) (k : Nat) (i : FaultInfo) (off : Word) (links : List (BitVec 128)) :
    report s k i true off links = putFault (failLaunch s (core s k).ltag i.code) (core s k).ctx (stopRec s k i off links) := rfl

/-- A stopping record goes to the ring, or waits in the hub without limit. -/
theorem putFault_stopping (s : State) (n : Nat) {r : FaultRec} (h : r.stopping = true) :
    let f := (ctx s n).fr
    ((f.wait = [] ∧ f.room = true) ∧
      putFault s n r = setCtx (ringPut s f.base f.log2n f.tail r) n { ctx s n with fr := { f with tail := (f.tail + 1) % 2 ^ 32, ovfl := false } }) ∨
    (¬ (f.wait = [] ∧ f.room = true) ∧ putFault s n r = setCtx s n { ctx s n with fr := { f with wait := f.wait ++ [r] } }) := by
  intro f
  by_cases hr : f.wait = [] ∧ f.room = true
  · exact .inl ⟨hr, if_pos hr⟩
  · exact .inr ⟨hr, (if_neg hr).trans (if_pos (.inl h))⟩

/-- A stopping record touches memory and the ring of its context. -/
theorem putFault_only (s : State) (n : Nat) {r : FaultRec} (h : r.stopping = true) :
    { putFault s n r with mem := s.mem, ctxs := s.ctxs } = s ∧ ∀ m j, ctxD (putFault s n r) m j = ctxD s m j := by
  have hd : ∀ (t : State) (g : FRing), t.ctxs = s.ctxs → ∀ m j, ctxD (setCtx t n { ctx s n with fr := g }) m j = ctxD s m j := by
    intro t g ht m j
    have hm : (ctx (setCtx t n { ctx s n with fr := g }) m).d = (ctx s m).d := by
      rw [ctx_setCtx, ctx_congr ht]
      split
      · rename_i hm; rw [hm]
      · rfl
    rw [ctxD, ctxD, hm]
  rcases putFault_stopping s n h with ⟨-, he⟩ | ⟨-, he⟩
  · have ho := ringPut_mem_only s (ctx s n).fr r
    rw [he]
    exact ⟨(congrArg (fun u : State => { u with ctxs := s.ctxs }) ho :), hd _ _ (congrArg State.ctxs ho :)⟩
  · rw [he]
    exact ⟨rfl, hd s _ rfl⟩

/-- What a stopping record changes: memory, the ring of its context, and the launch that has failed. -/
theorem report_only (s : State) (k : Nat) (i : FaultInfo) (off : Word) (links : List (BitVec 128)) :
    let u := report s k i true off links
    { u with mem := s.mem, ctxs := s.ctxs, hub := s.hub } = s ∧ u.hub = (failLaunch s (core s k).ltag i.code).hub ∧ ∀ m j, ctxD u m j = ctxD s m j := by
  intro u
  obtain ⟨ho, hd⟩ := putFault_only (failLaunch s (core s k).ltag i.code) (core s k).ctx (r := stopRec s k i off links) rfl
  exact ⟨(congrArg (fun v : State => { v with hub := s.hub }) ho :), (congrArg State.hub ho :), hd⟩

theorem report_cores (s : State) (k : Nat) (i : FaultInfo) (off : Word) (links : List (BitVec 128)) : (report s k i true off links).cores = s.cores :=
  (congrArg State.cores (report_only s k i off links).1 :)

theorem report_clus (s : State) (k : Nat) (i : FaultInfo) (off : Word) (links : List (BitVec 128)) : (report s k i true off links).clus = s.clus :=
  (congrArg State.clus (report_only s k i off links).1 :)

/-- With room in the ring the record stands there. -/
theorem report_room {s : State} {k : Nat} (i : FaultInfo) (off : Word) (links : List (BitVec 128)) (hw : (ctx s (core s k).ctx).fr.wait = [])
    (hr : (ctx s (core s k).ctx).fr.room = true) :
    RingHolds s (report s k i true off links) (ctx s (core s k).ctx).fr (stopRec s k i off links) := by
  rcases putFault_stopping (failLaunch s (core s k).ltag i.code) (core s k).ctx (r := stopRec s k i off links) rfl with ⟨-, he⟩ | ⟨hn, -⟩
  · rw [report_eq, he]
    exact (ringPut_holds (failLaunch s (core s k).ltag i.code) (ctx s (core s k).ctx).fr (r := stopRec s k i off links) rfl).congr rfl rfl
  · exact absurd ⟨hw, hr⟩ hn

/-- Without room it waits in the hub. -/
theorem report_waits {s : State} {k : Nat} (i : FaultInfo) (off : Word) (links : List (BitVec 128))
    (h : ¬ ((ctx s (core s k).ctx).fr.wait = [] ∧ (ctx s (core s k).ctx).fr.room = true)) :
    (report s k i true off links).mem = s.mem ∧
      (ctx (report s k i true off links) (core s k).ctx).fr.wait = (ctx s (core s k).ctx).fr.wait ++ [stopRec s k i off links] := by
  rcases putFault_stopping (failLaunch s (core s k).ltag i.code) (core s k).ctx (r := stopRec s k i off links) rfl with ⟨hy, -⟩ | ⟨-, he⟩
  · exact absurd hy h
  · rw [report_eq, he]
    exact ⟨rfl, by rw [ctx_setCtx_self]; rfl⟩

/-- A launch that a fault has failed stays marked so. -/
theorem failLaunch_failed {s : State} {tag : BitVec 16} {c : Code} {l : Launch} (hl : l ∈ (failLaunch s tag c).hub.launches) (ht : l.tag = tag) :
    l.failed ≠ none := by
  obtain ⟨l', -, rfl⟩ := List.mem_map.mp hl
  split at ht
  · rename_i h
    rw [if_pos h]
    exact Option.some_ne_none c
  · rename_i h
    rw [if_neg h]
    exact fun hn => h ⟨ht, hn⟩

/-! ## Taking a trap and returning from one (R137, R371, R389, R392, R394) -/

theorem awayAsked_congr {s t : State} (hc : t.hub.cmds = s.hub.cmds) (hd : ∀ n j, ctxD t n j = ctxD s n j) (k : Nat) : awayAsked t k = awayAsked s k := by
  simp only [awayAsked, cmdNames, hc, hd]

/-- The core whose task stops. -/
def trappedCore (away : Bool) (t : Trap) (c : Core) : Core :=
  { c with
    run := .stopped, ended := decide (c.run = .ending), trap := none, wait := .none, mwait := .none, frz := 0
    lost := c.lost || decide (t.info.code = .uecc ∨ t.info.code = .frzto)
    pc := if t.next then c.resume else c.pc
    resume := if t.next then c.resume else c.pc, skipBk := decide (t.info.code = .bkpt) && !t.next
    pre := if c.pre = .none then .none else if away then .taking else .held }

/-- The state in which the record of a trap has been written. -/
def toldState (s : State) (k : Nat) (t : Trap) : State := if t.told then s else report s k t.info true t.off t.links

theorem toldState_told {s : State} {k : Nat} {t : Trap} (h : t.told = true) : toldState s k t = s := if_pos h

theorem toldState_report {s : State} {k : Nat} {t : Trap} (h : t.told = false) : toldState s k t = report s k t.info true t.off t.links :=
  if_neg (by simp [h])

theorem toldState_facts (s : State) (k : Nat) (t : Trap) :
    (toldState s k t).cores = s.cores ∧ (toldState s k t).clus = s.clus ∧ awayAsked (toldState s k t) k = awayAsked s k := by
  cases h : t.told with
  | true => rw [toldState_told h]; exact ⟨rfl, rfl, rfl⟩
  | false =>
    rw [toldState_report h]
    obtain ⟨-, hhub, hd⟩ := report_only s k t.info t.off t.links
    exact ⟨report_cores .., report_clus .., awayAsked_congr (by rw [hhub]; rfl) hd k⟩

theorem takeTrap_eq (s : State) (k : Nat) (t : Trap) : takeTrap s k t [] =
    freezeQ (modCore (toldState s k t) k (trappedCore (awayAsked s k) t)) (homeClu k (core s k).trec.w1) (core s k).trec.qid := by
  obtain ⟨hcores, -, haway⟩ := toldState_facts s k t
  have hcore : core (toldState s k t) k = core s k := core_congr hcores k
  have hfatal : t.info.code.fatal = decide (t.info.code = .uecc ∨ t.info.code = .frzto) := by rw [Code.fatal, Bool.decide_or]
  have htold : (if t.told then s else report s k t.info true t.off (t.links ++ [])) = toldState s k t := by rw [List.append_nil]; rfl
  unfold takeTrap
  rw [htold]
  dsimp only
  rw [core_modCore_self, haway, hfatal, hcore]
  rfl

end Sys2Proof.Machine

open Sys2Proof hiding core
open Sys2Proof.Machine

/-- Settles O14: `takeTrap` is the record, where it is still to be written, then the stop of the core and the freeze of its queue (`takeTrap_eq`). -/
theorem trapsTakenAndReturned : Obligations.TrapsTakenAndReturned := by
  refine ⟨fun s k t => ?_, fun s k => ?_⟩
  · obtain ⟨hcores, hclus, -⟩ := toldState_facts s k t
    rw [takeTrap_eq]
    dsimp only
    refine ⟨?_, fun j hj => ?_, ?_, fun m hm => ?_, fun h => ?_, fun h l hl ht => ?_, fun h hw hr => ?_, fun h hn => ?_⟩
    · rw [freezeQ, core_setClu, core_modCore_self, core_congr hcores]
      rfl
    · rw [freezeQ, core_setClu, core_modCore_ne _ _ hj, core_congr hcores]
    · rw [freezeQ, clu_setClu_self]
      exact congrArg (fun x : Cluster => (core s k).trec.qid :: x.frz) (clu_congr hclus _)
    · rw [freezeQ, clu_setClu, if_neg hm]
      exact clu_congr hclus m
    · rw [toldState_told h]
      exact ⟨fun b => rfl, rfl, rfl⟩
    · rw [toldState_report h] at hl
      refine failLaunch_failed (s := s) (c := t.info.code) ?_ ht
      rw [← (report_only s k t.info t.off t.links).2.1]
      exact hl
    · rw [toldState_report h]
      exact (report_room t.info t.off t.links hw hr).congr rfl rfl
    · rw [toldState_report h]
      obtain ⟨hmem, hwait⟩ := report_waits t.info t.off t.links hn
      exact ⟨fun b => rdB_congr hmem b, hwait⟩
  · refine ⟨core_modCore_self .., fun j hj => core_modCore_ne _ _ hj, ?_, fun m hm => ?_, fun a => rfl⟩
    · exact congrArg Cluster.frz (clu_setClu_self ..)
    · exact (clu_setClu ..).trans (if_neg hm)

end

section
/-! PROOFS. The statements of spec/05_bundle_formats_and_assembler.md on code: entry into the emulation handler and `emret`, `icinv` with the lines that the
caches drop, and `publish` with the hub's answer. -/
namespace Sys2Proof.Machine

/-! ## `icinv` (R159) -/

/-- A wait without a predicate stands as the instruction has begun it. -/
theorem settleWaits_wait (p : Core) (ds : List Nat) (q : Bool) (w : Wait) (h : dropPd w = w) :
    settleWaits p ds q { p with wait := w } = { p with wait := w } := by
  have hm : waitPd (if p.mwait = .none then p.mwait else .none) = 0 := by
    split
    · rename_i hn; rw [hn]; rfl
    · rfl
  have h0 : stageOver q { p with wait := w } 0 = false := by simp [stageOver]
  unfold settleWaits
  dsimp only
  rw [hm, h0, h, if_neg Bool.false_ne_true]
  split <;> rfl

/-- The commit of an instruction that only begins a wait without a predicate. -/
theorem commit_wait {s : State} {o : SlotOp} {w : Wait} (hon : o.on (cur s) = true) (he : o.eff s s = modCur s (fun c => { c with wait := w }))
    (hw : dropPd w = w) (hu : ∀ t, o.effu s t = (t, [])) (hl : ∀ t, o.late s t = t) (hc : o.ctl s = .seq) (hk : o.commits s = false)
    (ha : o.cost s = none) (hi : o.issued s = 0) : commit s [o] = retired1 s o.slot (o.occ s) (fun c => { c with wait := w }) := by
  have e1 : effects s [o] s = modCur s (fun c => { c with wait := w }) := by simp [effects, effectsGo, hon, he, hu, putScales]
  have e2 : lates s [o] (modCur s (fun c => { c with wait := w })) = modCur s (fun c => { c with wait := w }) := by simp [lates, hl]
  have e3 : bundleOrder s [o] (modCur s (fun c => { c with wait := w })) = modCur s (fun c => { c with wait := w }) :=
    bundleOrder_unnamed [o] (modCur_nextId ..)
  have e4 : ctlOf s [o] = .seq := by simp [ctlOf, hon, hc]
  have e5 : issuedOf s [o] = 0 := by simp [issuedOf, hon, hi]
  have e6 : costOf s [o] = none := by simp [costOf, ha]
  have e7 : settle s [o] .seq (modCur s (fun c => { c with wait := w })) = modCur s (fun c => { c with wait := w }) := by
    refine (modCur_modCur ..).trans (congrArg (setCur s) ?_)
    exact settleWaits_wait (cur s) (laterPreds s [o]) true w hw
  simp [commit, e1, e2, e3, e4, e5, e6, e7, hon, hk, control, afterCommit, retired1, occupy, leave]

theorem exec_icinv {s : State} {sc : BitVec 3} {g : BitVec 4} (h : Open s 0 g) (hsc : sc.toNat < 4) :
    exec (.icinv sc g) s = .next (retired1 s 0 1 (fun c => { c with wait := .icinv sc.toNat })) := by
  have hl : (opIcinv sc g).legal s = true := decide_eq_true (show sc < 4 from hsc)
  have hi := issues_of_open (o := opIcinv sc g) h hl (roomOk_unasked rfl) rfl rfl rfl rfl rfl rfl
  rw [show exec (.icinv sc g) s = issue1 (opIcinv sc g) s from rfl, issue1_of_issues hi]
  exact congrArg _ (commit_wait (o := opIcinv sc g) (on_of_open h) rfl rfl (fun _ => rfl) (fun _ => rfl) rfl rfl rfl rfl)

/-- The cache of a core without the lines of an arena. -/
def dropLines (a : Nat × Nat) (c : Core) : Core :=
  { c with ic := c.ic.filter (fun e => !(decide (a.1 ≤ e.1) && decide (e.1 < a.1 + a.2))) }

theorem mem_dropLines {a : Nat × Nat} {c : Core} {e : Nat × Bundle} :
    e ∈ (dropLines a c).ic ↔ e ∈ c.ic ∧ ¬ (a.1 ≤ e.1 ∧ e.1 < a.1 + a.2) := by
  rw [dropLines, List.mem_filter, Bool.not_eq_true', ← Bool.decide_and, decide_eq_false_iff_not]

theorem dropLines_dropLines (a : Nat × Nat) (c : Core) : dropLines a (dropLines a c) = dropLines a c := by simp [dropLines]

/-- A table in which the keys of a list have been set, each to a function of its value that applied again changes nothing. -/
theorem tget_foldl_tset_map {α : Type} [DecidableEq α] {d : α} {f : α → α} (hf : ∀ x, f (f x) = f x) (l : List Nat) :
    ∀ (t : Tab α) (j : Nat),
      tget d (l.foldl (fun t w => tset d t w (f (tget d t w))) t) j = if j ∈ l then f (tget d t j) else tget d t j := by
  induction l with
  | nil => intro t j; simp
  | cons w l ih =>
    intro t j
    rw [List.foldl_cons, ih, tget_tset]
    by_cases hw : j = w
    · subst hw
      by_cases hl : j ∈ l <;> simp [hl, hf]
    · simp [hw]

theorem tget_of_not_key {α : Type} {d : α} {k : Nat} : ∀ {t : Tab α}, k ∉ t.map (·.1) → tget d t k = d
  | [], _ => rfl
  | (i, a) :: t, h => by
    rw [List.map_cons, List.mem_cons, not_or] at h
    obtain ⟨hi, ht⟩ := h
    exact (if_neg (fun he => hi he.symm)).trans (tget_of_not_key ht)

/-- The state in which the caches within a scope have dropped the lines of an arena. -/
def linesDropped (s : State) (k sc : Nat) (a : Nat × Nat) : State :=
  { s with cores := ((s.cores.map (·.1)).filter (inScope k sc)).foldl (fun t j => tset {} t j (dropLines a (tget {} t j))) s.cores }

theorem core_linesDropped (s : State) (k sc j : Nat) (a : Nat × Nat) :
    core (linesDropped s k sc a) j = if inScope k sc j = true then dropLines a (core s j) else core s j := by
  unfold linesDropped core
  rw [tget_foldl_tset_map (dropLines_dropLines a)]
  by_cases hin : inScope k sc j = true
  · by_cases hk : j ∈ s.cores.map (·.1)
    · rw [if_pos (List.mem_filter.mpr ⟨hk, hin⟩), if_pos hin]
    · rw [if_neg (fun h => hk (List.mem_of_mem_filter h)), if_pos hin, tget_of_not_key hk]
      rfl
  · rw [if_neg (fun h => hin (List.mem_filter.mp h).2), if_neg hin]

theorem icinvFinish_eq {s : State} {k sc : Nat} (h : (core s k).wait = .icinv sc) : icinvFinish s k =
    modCore (linesDropped s k sc (fld (entD (core s k) 1) 0 52, fld (entD (core s k) 2) 0 41)) k (fun c => { c with wait := .none }) := by
  rw [icinvFinish, h]
  rfl

theorem ic_icinvFinish {s : State} {k sc : Nat} (h : (core s k).wait = .icinv sc) (j : Nat) :
    (core (icinvFinish s k) j).ic =
      (core (linesDropped s k sc (fld (entD (core s k) 1) 0 52, fld (entD (core s k) 2) 0 41)) j).ic := by
  rw [icinvFinish_eq h, core_modCore]
  split
  · rename_i hj; rw [hj]
  · rfl

/-! ## Entry into the emulation handler, and `emret` (R139, R355 to R357) -/

theorem exec_emulationEntry {s : State} {k : Nat} {m : BitVec 8} {b : Bundle} (hw : (core s k).wait = .emu m b) (hq : quiet (core s k) = true) :
    exec (.emulationEntry k) s = .next (emuEnter s k b m) := by
  rw [show exec (.emulationEntry k) s = .next (emuEntry s k) from rfl, emuEntry, hw]
  exact congrArg _ (if_pos hq)

theorem exec_emret {s : State} {g : BitVec 4} (h : Open s 0 g) (he : (cur s).emuAct = true) :
    exec (.emret g) s = .next (bump (modCur s (fun c => tick (emuLeave (leave 0 1 c))))) := by
  have hi := issues_of_open (o := opEmret g) h rfl (roomOk_unasked rfl) rfl (if_pos he) rfl rfl rfl rfl
  rw [show exec (.emret g) s = issue1 (opEmret g) s from rfl, issue1_of_issues hi,
    commit_control (o := opEmret g) (ctl := .emret) (on_of_open h) rfl rfl rfl (fun _ => rfl) (fun _ => rfl) rfl rfl rfl rfl]
  simp only [control, afterCommit, modCur_modCur]
  rfl

/-! ## `publish` (R160, R349, R350) -/

/-- The slot operation that makes its last request among its effects: alone in its bundle it is the same (R96). -/
def SlotOp.early (o : SlotOp) : SlotOp := { o with eff := o.late, late := fun _ t => t }

theorem commit_early {s : State} {o : SlotOp} (hon : o.on (cur s) = true) (he : ∀ t, o.eff s t = t) (hu : ∀ t, o.effu s t = (t, [])) :
    commit s [o] = commit s [o.early] := by
  have hon' : o.early.on (cur s) = true := hon
  have hfilter : ∀ p : SlotOp, p.on (cur s) = true → [p].filter (·.on (cur s)) = [p] := fun p hp => by simp [hp]
  have hlate : ∀ t, o.early.late s t = t := fun _ => rfl
  have heff : o.early.eff s s = o.late s s := rfl
  have heffu : ∀ t, o.early.effu s t = (t, []) := hu
  have e1 : lates s [o] (effects s [o] s) = o.late s s := by simp [lates, effects, effectsGo, hon, he, hu, putScales]
  have e2 : lates s [o.early] (effects s [o.early] s) = o.late s s := by simp [lates, effects, effectsGo, hon', heff, heffu, hlate, putScales]
  have e3 : ctlOf s [o] = ctlOf s [o.early] := by rw [ctlOf, ctlOf, hfilter o hon, hfilter _ hon']; rfl
  have e4 : issuedOf s [o] = issuedOf s [o.early] := by rw [issuedOf, issuedOf, hfilter o hon, hfilter _ hon']; rfl
  have e5 : overtake s [o] = overtake s [o.early] := by unfold overtake; rw [hfilter o hon, hfilter _ hon']; rfl
  have e6 : ∀ t, bundleOrder s [o] t = bundleOrder s [o.early] t := fun t => by unfold bundleOrder; rw [e5]
  have hslot : o.early.slot = o.slot := rfl
  have hnow : o.early.now = o.now := rfl
  have e7 : laterPreds s [o] = laterPreds s [o.early] := by
    by_cases h0 : o.slot = 0 <;> simp [laterPreds, hon, hon', hslot, hnow, h0]
  have e8 : settle s [o] = settle s [o.early] := funext fun ctl => funext fun t => by unfold settle; rw [e7]
  unfold commit
  rw [e1, e2, e3, e4, e6, e7, e8]
  rfl

/-- The completion that `publish` becomes: a request of the hub behind the core's earlier requests within the package. -/
def publishComp (s : State) (c a b : BitVec 6) : Comp :=
  { id := s.nextId, what := .publish s.cur (rx6 s a) (rx6 s b).toNat, loc := slotLoc s (rx6 s c) 8, n := 8, v := 0
    frame := (cur s).trec.w1, die := dieOf s.cur, owner := some s.cur, deps := packageSet s, ltag := (cur s).ltag, ctx := (cur s).ctx
    slack := rslk s }

/-- The state in which `publish` has left as a request. -/
def publishing (s : State) (c a b : BitVec 6) : State := { s with nextId := s.nextId + 1, comps := s.comps ++ [publishComp s c a b] }

theorem mem_packageSet {s : State} {q : Req} (hq : q ∈ s.reqs) (hk : q.core = s.cur) (ho : q.stage = .out)
    (h : reqScope q ≤ 3 ∨ (q.loc = none ∧ offPackage s q.ctx q.addr = false)) : q.id ∈ packageSet s := by
  refine List.mem_map.mpr ⟨q, List.mem_filter.mpr ⟨hq, ?_⟩, rfl⟩
  simp only [hk, ho, decide_true, Bool.true_and]
  cases hl : q.loc with
  | none =>
    have hs : ¬ reqScope q ≤ 3 := by rw [reqScope, hl]; exact Nat.not_succ_le_self 3
    simpa using (h.resolve_left hs).2
  | some l =>
    have hs : reqScope q = homeScope s.cur l := by rw [reqScope, hl, hk]
    have : ¬ (q.loc = none ∧ offPackage s q.ctx q.addr = false) := by simp [hl]
    simpa [← hs] using h.resolve_right this

theorem marks_publish {s : State} {c a b : BitVec 6} {g : BitVec 4} (hon : (opPublish c a b g).on (cur s) = true) :
    Marks s (opPublish c a b g).early (publishing s c a b) 1 :=
  ⟨hon, rfl, fun _ => rfl, fun _ => rfl, rfl, rfl, rfl, rfl, rfl, rfl, rfl, rfl⟩

/-- What the order of a bundle's requests makes of a request of the hub. -/
def orderedComp (s : State) (g : List Nat) (r : Comp) : Comp := if s.nextId ≤ r.id then { r with deps := r.deps ++ g } else r

theorem comps_bundleOrder {s w : State} (ops : List SlotOp) (h : w.nextId ≠ s.nextId) :
    (bundleOrder s ops w).comps = w.comps.map (orderedComp s (gate s w)) := by
  rw [bundleOrder, if_neg h]
  rfl

theorem on_opPublish {s : State} {c a b : BitVec 6} {g : BitVec 4} (hg : guardOn (cur s) g = true) (hm : masked (cur s) 0 = false) :
    (opPublish c a b g).on (cur s) = true := Bool.and_eq_true_iff.mpr ⟨hg, by rw [show masked (cur s) (opPublish c a b g).slot = false from hm]; rfl⟩

theorem publish_leaves {s : State} {c a b : BitVec 6} {g : BitVec 4} (hi : Issues s (opPublish c a b g)) (hon : (opPublish c a b g).on (cur s) = true) :
    ∃ t, exec (.publish c a b g) s = .next t ∧ t.comps = (s.comps ++ [publishComp s c a b]).map (orderedComp s (gate s (publishing s c a b))) ∧
      fld (cur t).joincnt 0 16 = (fld (cur s).joincnt 0 16 + 1) % 2 ^ 16 ∧ (cur t).trec.committed = true := by
  have hc := commit_marks (marks_publish (c := c) (a := a) (b := b) (g := g) hon) rfl
  obtain ⟨-, -, -, -, -, -, hrec, hjoin, -⟩ := marked_frame s (publishing s c a b) (opPublish c a b g).early 1
    (frameHome s (cur s).ctx (dieOf s.cur) (cur s).trec.w1)
    (setFld (BitVec.ofNat 64 (rd (publishing s c a b) (frameHome s (cur s).ctx (dieOf s.cur) (cur s).trec.w1) 8)) 41 1 1).toNat
  refine ⟨_, (issue1_of_issues hi).trans (congrArg _ ((commit_early hon (fun _ => rfl) fun _ => rfl).trans hc)), ?_, hjoin, ?_⟩
  · exact comps_bundleOrder _ (Nat.succ_ne_self _)
  · rw [hrec]
    exact committed_setCommitted _

/-- What the placement of an object that the checks let through leaves. -/
theorem placeObj_ok {s : State} {cx n : Nat} {pub emu : Bool} {v : Option Nat} {u : State × Nat} (h : placeObj s cx pub emu n v = .ok u) :
    u.1.mem = wrMem s.mem ((arenaOf s cx).1 + u.2) n (v.getD 0) ∧ u.1.comps = s.comps ∧
      (ctx u.1 cx).objs = (ctx s cx).objs ++ [{
        off := u.2, size := n, published := pub, base := (arenaOf s cx).1, sum := sha512 (numBytes n (v.getD 0)) }] := by
  unfold placeObj at h
  split at h
  · cases h
  · split at h
    · cases h
    · split at h
      · cases h
      · cases h
        exact ⟨rfl, rfl, congrArg Ctx.objs (ctx_setCtx_self ..)⟩

theorem publishStep_placed {s : State} {r : Comp} {k n : Nat} {a : Word} {u : State × Nat} (hf : findComp s r.id = some r) (hw : r.what = .publish k a n)
    (hp : performed s r.deps = true) (hu : placeObj s r.ctx true false n (staged s r.ctx a n) = .ok u) :
    publishStep s r.id = compDone u.1 r.id (BitVec.ofNat 64 u.2) := by
  simp only [publishStep, hf, hw, hp, hu, Bool.true_eq_false, if_false]

theorem publishStep_refused {s : State} {r : Comp} {k n : Nat} {a : Word} {e : Nat × Nat} (hf : findComp s r.id = some r) (hw : r.what = .publish k a n)
    (hp : performed s r.deps = true) (he : placeObj s r.ctx true false n (staged s r.ctx a n) = .error e) :
    publishStep s r.id = compDone s r.id (pubReply e.1 e.2) := by
  simp only [publishStep, hf, hw, hp, he, Bool.true_eq_false, if_false]

theorem setWidth_ofNat_64 (v : Nat) : (BitVec.ofNat 64 v).setWidth 1024 = BitVec.ofNat 1024 (v % 2 ^ 64) := by
  rw [← BitVec.toNat_inj, BitVec.toNat_setWidth, BitVec.toNat_ofNat, BitVec.toNat_ofNat]

end Sys2Proof.Machine

open Sys2Proof hiding core
open Sys2Proof.Machine

/-- Settles O22: `emuEnter_spec` and `exec_emret`, `exec_icinv` and `core_linesDropped`, `publish_leaves` and `placeObj_ok`. -/
theorem codeAndEmulation : Obligations.CodeAndEmulation := by
  refine ⟨⟨fun s k m b hw hq => ?_, fun s g ho he => ?_⟩, ⟨fun s sc g ho hsc => exec_icinv ho hsc, fun s k sc hw => ?_⟩,
    ⟨fun s c a b g hi hg hm => ?_, fun s r k n a hf hw hp => ?_⟩⟩
  · obtain ⟨hcore, hbun, hpc, hmask, hmem, hoth⟩ := emuEnter_spec s k b m
    exact ⟨_, exec_emulationEntry hw hq, hcore, hbun, hpc, hmask, hmem, hoth⟩
  · refine ⟨_, exec_emret ho he, ⟨rfl, fun j hj => (core_bump ..).trans (core_modCur_ne _ _ hj)⟩, ?_⟩
    rw [cur_bump, cur_modCur]
    exact ⟨rfl, rfl, if_pos he, rfl⟩
  · intro a
    refine ⟨icinvFinish s k, rfl, ?_, ?_, fun j e hin he => ?_, fun j e he hn => ?_, fun j hj => ?_⟩
    · rw [icinvFinish_eq hw, core_modCore_self]
    · rw [icinvFinish_eq hw]
      rfl
    · rw [ic_icinvFinish hw, core_linesDropped, if_pos hin] at he
      exact mem_dropLines.mp he
    · rw [ic_icinvFinish hw, core_linesDropped]
      split
      · rename_i hin
        exact mem_dropLines.mpr ⟨he, fun h => hn ⟨hin, h⟩⟩
      · exact he
    · rw [icinvFinish_eq hw, core_modCore_ne _ _ hj, core_linesDropped]
      split <;> rfl
  · have hon : (opPublish c a b g).on (cur s) = true := on_opPublish hg hm
    obtain ⟨t, hex, hcomps, hjoin, hcom⟩ := publish_leaves hi hon
    refine ⟨t, orderedComp s (gate s (publishing s c a b)) (publishComp s c a b), hex, ?_⟩
    have hnew : orderedComp s (gate s (publishing s c a b)) (publishComp s c a b) =
        { publishComp s c a b with deps := packageSet s ++ gate s (publishing s c a b) } := if_pos (Nat.le_refl _)
    rw [hcomps, hnew]
    refine ⟨?_, fun q hq hid => ?_, ?_, rfl, rfl, rfl, rfl, fun q hq hk ho h => ?_, hjoin, hcom⟩
    · rw [← hnew]
      exact List.mem_map_of_mem (by simp)
    · have hold : orderedComp s (gate s (publishing s c a b)) q = q := if_neg (by omega)
      exact List.mem_map.mpr ⟨q, by simp [hq], hold⟩
    · simp
    · exact List.mem_append_left _ (mem_packageSet hq hk ho h)
  · refine ⟨publishStep s r.id, rfl, ?_⟩
    split
    · rename_i u hu
      obtain ⟨hmem, hcomps, hobjs⟩ := placeObj_ok hu
      rw [publishStep_placed hf hw hp hu, compDone, setWidth_ofNat_64, hcomps]
      exact ⟨hmem, hobjs, rfl⟩
    · rename_i e he
      rw [publishStep_refused hf hw hp he, compDone, pubReply, setWidth_ofNat_64]
      exact ⟨rfl, rfl, rfl⟩

end

section
/-! PROOFS. The statements of spec/05_bundle_formats_and_assembler.md on the passing of time: results, occupancies and busy marks that come due, the
Annealer's window, FRZTO, and traps and pre-emptions that are taken. -/
namespace Sys2Proof.Machine

/-! ## Results that come due (R126) -/

/-- A result stands in its register. -/
def Stands (c : Core) : PDst → Prop
  | .x d v => d ≠ 0 → tget 0 c.x d = v
  | .v d r => tget 0 c.v d = r
  | .sc d r => tget 0 c.sc d = r
  | .slk v => c.slk = v
  | .sm v => c.smv = v
  | .seed v => c.srseed = v

theorem stands_putNow (c : Core) (d : PDst) : Stands (putNow c d) d := by
  cases d with
  | x d v => exact putNow_x_self c v
  | v d r => exact tget_tset_self ..
  | sc d r => exact tget_tset_self ..
  | slk | sm | seed => exact rfl

/-- A result for another register leaves it standing. -/
theorem Stands.putNow_ne {c : Core} {d e : PDst} (h : Stands c d) (hn : e.name ≠ d.name) : Stands (putNow c e) d := by
  cases e with
  | x m w =>
    by_cases hm : m = 0
    · rwa [putNow, if_pos hm]
    · rw [putNow, if_neg hm]
      cases d with
      | x n v => exact fun h0 => (tget_tset_ne _ _ fun he => hn (by rw [PDst.name, PDst.name, he])).trans (h h0)
      | _ => exact h
  | v m w =>
    cases d with
    | v n r => exact (tget_tset_ne _ _ fun he => hn (by rw [PDst.name, PDst.name, he])).trans h
    | _ => exact h
  | sc m w =>
    cases d with
    | sc n r => exact (tget_tset_ne _ _ fun he => hn (by rw [PDst.name, PDst.name, he])).trans h
    | _ => exact h
  | slk =>
    cases d with
    | slk => exact absurd rfl hn
    | _ => exact h
  | sm =>
    cases d with
    | sm => exact absurd rfl hn
    | _ => exact h
  | seed =>
    cases d with
    | seed => exact absurd rfl hn
    | _ => exact h

theorem Stands.putAll {l : List Pend} {d : PDst} : ∀ {c : Core}, Stands c d →
    (∀ q ∈ l, q.dst.name = d.name → q.dst = d) → Stands (putAll c l) d := by
  induction l with
  | nil => intro c h _; exact h
  | cons q l ih =>
    intro c h hl
    refine ih ?_ fun p hp => hl p (by simp [hp])
    by_cases hn : q.dst.name = d.name
    · exact hl q (by simp) hn ▸ stands_putNow c q.dst
    · exact h.putNow_ne hn

/-- Of the results that are put, the only one for its register stands there. -/
theorem stands_putAll {l : List Pend} {p : Pend} : ∀ {c : Core}, p ∈ l →
    (∀ q ∈ l, q.dst.name = p.dst.name → q.dst = p.dst) → Stands (putAll c l) p.dst := by
  induction l with
  | nil => intro c hp _; cases hp
  | cons q l ih =>
    intro c hp hl
    have hrest : ∀ r ∈ l, r.dst.name = p.dst.name → r.dst = p.dst := fun r hr => hl r (by simp [hr])
    rcases List.mem_cons.mp hp with rfl | hp
    · exact (stands_putNow c p.dst).putAll hrest
    · exact ih hp hrest

/-- The registers that results go to, and what is in flight to them, put back to those of `c`. -/
def resultless (c c' : Core) : Core :=
  { c' with x := c.x, v := c.v, sc := c.sc, slk := c.slk, smv := c.smv, srseed := c.srseed, pend := c.pend }

theorem resultless_putNow (b c : Core) (d : PDst) : resultless b (putNow c d) = resultless b c := by
  cases d with
  | x n v =>
    by_cases hn : n = 0
    · rw [putNow, if_pos hn]
    · rw [putNow, if_neg hn]
      rfl
  | _ => rfl

theorem resultless_putAll (b : Core) (l : List Pend) : ∀ c : Core, resultless b (putAll c l) = resultless b c := by
  induction l with
  | nil => intro c; rfl
  | cons p l ih => intro c; exact (ih _).trans (resultless_putNow b c p.dst)

theorem resultless_expire (c : Core) : resultless c (expire c) = c := by
  rw [expire_eq, resultless_putAll]
  rfl

theorem mem_due {c : Core} {p : Pend} : p ∈ (c.pend.filter (fun p => p.ready ≤ c.ctime)).reverse ↔ p ∈ c.pend ∧ p.ready ≤ c.ctime := by
  rw [List.mem_reverse, List.mem_filter, decide_eq_true_iff]

/-- A result that has come due, the only one in flight for its register, stands there. -/
theorem stands_expire {c : Core} {p : Pend} (hp : p ∈ c.pend) (hr : p.ready ≤ c.ctime) (hu : ∀ q ∈ c.pend, q.dst.name = p.dst.name → q = p) :
    Stands (expire c) p.dst := by
  rw [expire_eq]
  exact stands_putAll (mem_due.mpr ⟨hp, hr⟩) fun q hq hn => congrArg Pend.dst (hu q (mem_due.mp hq).1 hn)

/-! ## Occupancies and busy marks (R127, R130) -/

theorem tget_filter_later {t : Tab Nat} (h : tsorted t = true) (n j : Nat) :
    tget 0 (t.filter (fun e => decide (n < e.2))) j = if n < tget 0 t j then tget 0 t j else 0 := by
  induction t with
  | nil => simp [tget]
  | cons e t ih =>
    obtain ⟨i, b⟩ := e
    obtain ⟨hlt, ht⟩ := tsorted_cons.mp h
    by_cases hi : i = j
    · subst hi
      by_cases hb : n < b
      · simp [tget, hb]
      · have hrest : i ∉ (t.filter (fun e => decide (n < e.2))).map (·.1) := fun hm => by
          obtain ⟨e, he, hei⟩ := List.mem_map.mp hm
          exact absurd (hlt e (List.mem_of_mem_filter he)) (by rw [hei]; exact Nat.lt_irrefl _)
        simp [tget, hb, tget_of_not_key hrest]
    · by_cases hb : n < b <;> simp [tget, hi, hb, ih ht]

theorem resBusy_dropBusy (c : Core) (m : Bool) (r : Res) : resBusy (dropBusy c) m r = resBusy c m r := by
  unfold resBusy dropBusy
  rw [List.any_filter]
  refine congrArg (List.any c.busy) (funext fun b => ?_)
  rw [show b.holds { c with busy := c.busy.filter (fun b => b.holds c) } = b.holds c from rfl, Bool.and_left_comm, Bool.and_self]

/-! ## FRZTO (R135, R394) -/

/-- The registers that landed data goes to, and what is in flight to them, put back to those of `c`. -/
def landless (c c' : Core) : Core := { resultless c c' with t := c.t, bt := c.bt, smstat := c.smstat, land := c.land }

theorem landless_set (b c : Core) (t u : Tab Tile) (w : Word) (l : List Landing) :
    landless b { c with t := t, bt := u, smstat := w, land := l } = landless b c := rfl

theorem landless_landPut (b c : Core) (dead : List Nat) (d : PDst) : landless b (landPut c dead d) = landless b c := by
  have hn := congrArg (fun e : Core => ({ e with t := b.t, bt := b.bt, smstat := b.smstat, land := b.land } : Core)) (resultless_putNow b c d)
  unfold landPut
  split
  · rfl
  · split
    · rfl
    · exact hn

theorem landless_vecs (b : Core) (dead : List Nat) (f : Core → Nat → VReg) (l : List Nat) :
    ∀ c : Core, landless b (l.foldl (fun c r => landPut c dead (.v r (f c r))) c) = landless b c := by
  induction l with
  | nil => intro c; rfl
  | cons r l ih => intro c; exact (ih _).trans (landless_landPut ..)

theorem landless_land (b c : Core) (l : List Landing) : landless b { c with land := l } = landless b c := rfl

theorem landless_landEntry (b c : Core) (l : Landing) : landless b (landEntry c l) = landless b c := by
  unfold landEntry
  extract_lets landed
  refine (landless_land b landed _).trans ?_
  unfold landed
  split
  · exact landless_landPut ..
  · exact (landless_landPut ..).trans (landless_landPut ..)
  · exact landless_vecs b l.dead (fun c r => vecReg l c _ _ _ _ r) _ c
  · exact landless_set b c _ _ _ _
  · exact landless_set b c _ _ _ _
  · exact landless_set b c _ _ _ _
  · exact landless_landPut ..
  · exact landless_landPut ..

theorem landless_landEntries (b : Core) (l : List Landing) : ∀ c : Core, landless b (l.foldl landEntry c) = landless b c := by
  induction l with
  | nil => intro c; rfl
  | cons e l ih => intro c; exact (ih _).trans (landless_landEntry b c e)

/-- The landing entries that FRZTO finds without their data, filled with undefined data (R135). -/
def filledLands (s : State) (k : Nat) : List Landing :=
  let fill := fun (l : Landing) => { l with parts := l.parts.zipIdx.map (fun e =>
    { e.1 with data := some (e.1.data.getD (BitVec.ofNat 1024 (freeN s (2 ^ 76 + 256 * l.id + e.2)))) }) }
  ((core s k).land.filter (fun l => !l.full)).map fill

/-- A core that waits for nothing and is not frozen. -/
def unfrozen (c : Core) : Core := { c with wait := .none, mwait := .none, frz := 0 }

/-- The core that FRZTO stops, its landing entries filled and its waits ended. -/
def frozenCore (s : State) (k : Nat) : Core := unfrozen ((filledLands s k).foldl landEntry (giveUp (endBounded (core s k))))

/-- The trap of FRZTO. -/
def frztoTrap (s : State) (k : Nat) : Trap := { info := { code := .frzto, prec := 2 }, off := repOff s (core s k) }

theorem frzto_eq {s : State} {k : Nat} (hr : (core s k).run = .running ∨ (core s k).run = .ending) (hf : 4194304 < (core s k).frz) :
    frzto s k = bump (lateTrap (setCore s k (frozenCore s k)) k (frztoTrap s k)) := if_pos ⟨hr, hf⟩

/-- The marks of waiting and of an issue under way, put back to those of `c`. -/
def waitless (c c' : Core) : Core :=
  { landless c c' with
    wait := c.wait, mwait := c.mwait, p := c.p, prd := c.prd, probed := c.probed, denied := c.denied, frz := c.frz }

theorem waitless_giveUp (b c : Core) : waitless b (giveUp (endBounded c)) = waitless b c := by
  have hset : ∀ (e : Core) (d : Nat) (v : Bool) (w m : Wait), waitless b { setPred e d v with wait := w, mwait := m } = waitless b e := by
    intro e d v w m
    unfold setPred
    split <;> rfl
  have hev : ∀ e : Core, waitless b (endEv e false) = waitless b e := by
    intro e
    unfold endEv
    split
    · exact hset ..
    · rfl
  have hbw : ∀ e : Core, waitless b (endBw e false) = waitless b e := by
    intro e
    unfold endBw
    split
    · exact hset ..
    · rfl
  exact (hbw (endEv c false)).trans (hev c)

theorem waitless_self (c : Core) : waitless c c = c := rfl

theorem waitless_unfrozen (b c : Core) : waitless b (unfrozen c) = waitless b c := rfl

theorem waitless_landless (b c : Core) : waitless b (landless b c) = waitless b c := rfl

theorem waitless_frozenCore (s : State) (k : Nat) : waitless (core s k) (frozenCore s k) = core s k := by
  rw [frozenCore, waitless_unfrozen, ← waitless_landless, landless_landEntries, waitless_landless, waitless_giveUp, waitless_self]

/-- What stays in the core that FRZTO stops. -/
theorem frozenCore_fields (s : State) (k : Nat) : (frozenCore s k).run = (core s k).run ∧ (frozenCore s k).trap = (core s k).trap ∧
    (frozenCore s k).pc = (core s k).pc ∧ (frozenCore s k).ctx = (core s k).ctx ∧
    (frozenCore s k).wait = .none ∧ (frozenCore s k).mwait = .none ∧ (frozenCore s k).frz = 0 := by
  have h := waitless_frozenCore s k
  have hu : ∃ e, frozenCore s k = unfrozen e := ⟨_, rfl⟩
  generalize frozenCore s k = c at h hu
  obtain ⟨e, rfl⟩ := hu
  exact ⟨(congrArg Core.run h :), (congrArg Core.trap h :), (congrArg Core.pc h :), (congrArg Core.ctx h :), rfl, rfl, rfl⟩

/-- A late fault in a core that has none waiting: its trap waits. -/
theorem lateTrap_first {s : State} {k : Nat} (t : Trap) (h : (core s k).trap = none) (hr : (core s k).run = .running ∨ (core s k).run = .ending) :
    lateTrap s k t = modCore (report s k t.info true t.off t.links) k (fun c => { c with trap := some { t with told := true } }) := if_pos ⟨h, hr⟩

/-- A late fault behind another: the task cannot be resumed where this one is fatal. -/
theorem lateTrap_behind {s : State} {k : Nat} (t : Trap) (h : (core s k).trap ≠ none) :
    lateTrap s k t = modCore (report s k t.info true t.off t.links) k (fun c => { c with lost := c.lost || t.info.code.fatal }) :=
  if_neg fun hn => h hn.1

/-- Either way the fault is recorded, and the core keeps all but its trap and the mark `lost`. -/
theorem lateTrap_facts {s : State} {k : Nat} (t : Trap) (hr : (core s k).run = .running ∨ (core s k).run = .ending) (hf : t.info.code.fatal = true) :
    let u := lateTrap s k t
    let c := core s k
    ((core u k).wait = c.wait ∧ (core u k).mwait = c.mwait ∧ (core u k).frz = c.frz ∧ (core u k).pc = c.pc) ∧
      (core u k).trap = some (c.trap.getD { t with told := true }) ∧
      (c.trap ≠ none → (core u k).lost = true) ∧ (∀ j, j ≠ k → core u j = core s j) ∧ u.mem = (report s k t.info true t.off t.links).mem := by
  intro u c
  have hcores := report_cores s k t.info t.off t.links
  by_cases h : c.trap = none
  · rw [show u = _ from lateTrap_first t h hr]
    refine ⟨?_, ?_, fun hn => absurd h hn, fun j hj => (core_modCore_ne _ _ hj).trans (core_congr hcores j), rfl⟩
    · rw [core_modCore_self, core_congr hcores]
      exact ⟨rfl, rfl, rfl, rfl⟩
    · rw [core_modCore_self, h]
      rfl
  · obtain ⟨p, hp⟩ := Option.ne_none_iff_exists'.mp h
    rw [show u = _ from lateTrap_behind t h]
    refine ⟨?_, ?_, fun _ => ?_, fun j hj => (core_modCore_ne _ _ hj).trans (core_congr hcores j), rfl⟩
    · rw [core_modCore_self, core_congr hcores]
      exact ⟨rfl, rfl, rfl, rfl⟩
    · rw [core_modCore_self, core_congr hcores, hp]
      rfl
    · rw [core_modCore_self, hf, Bool.or_true]

theorem Code.num_lt (c : Code) : c.num < 2 ^ 16 := by cases c <;> decide

/-- The first doubleword of a record begins with the number of its code (Table 6 of chapter 17). -/
theorem code_of_stopRec (s : State) (k : Nat) (i : FaultInfo) (off : Word) (links : List (BitVec 128)) :
    ((stopRec s k i off links).g.getD 0 0).toNat % 2 ^ 16 = i.code.num := by
  have h := i.code.num_lt
  show (BitVec.ofNat 64 _).toNat % 2 ^ 16 = i.code.num
  rw [BitVec.toNat_ofNat]
  omega

/-- With room in the ring a late fault leaves its record there, behind which stand no links. -/
theorem lateTrap_ring {s : State} {k : Nat} {t : Trap} (hl : t.links = []) (hr : (core s k).run = .running ∨ (core s k).run = .ending)
    (hf : t.info.code.fatal = true) :
    let f := (ctx s (core s k).ctx).fr
    let a := f.base + 128 + 128 * (f.tail % 2 ^ f.log2n)
    let u := lateTrap s k t
    f.wait = [] → f.room = true → rd u (f.base + 8) 4 = (f.tail + 1) % 2 ^ 32 ∧ rd u a 8 % 2 ^ 16 = t.info.code.num ∧
      ∀ b, (b < a ∨ a + 64 ≤ b) → (b < f.base + 8 ∨ f.base + 12 ≤ b) → rdB u b = rdB s b := by
  intro f a u hw hroom
  obtain ⟨-, -, -, -, hmem⟩ := lateTrap_facts t hr hf
  obtain ⟨hg, htail, -, hout⟩ := (report_room t.info t.off t.links hw hroom).congr (t' := u) rfl hmem
  refine ⟨htail, ?_, fun b h1 h2 => hout b ?_ h2⟩
  · rw [← code_of_stopRec s k t.info t.off t.links]
    exact congrArg (· % 2 ^ 16) (hg 0 (by decide))
  · rw [show (stopRec s k t.info t.off t.links).links = [] from hl]
    exact h1

/-- What a late fault leaves of a core that has been given the state `d`, which waits for nothing. -/
theorem lateTrap_given {s : State} {k : Nat} {d : Core} {t : Trap} (hr : d.run = .running ∨ d.run = .ending) (htrap : d.trap = (core s k).trap)
    (hpc : d.pc = (core s k).pc) (hctx : d.ctx = (core s k).ctx) (hwait : d.wait = .none) (hmwait : d.mwait = .none) (hfrz : d.frz = 0)
    (hl : t.links = []) (hf : t.info.code.fatal = true) :
    let c := core s k
    let u := bump (lateTrap (setCore s k d) k t)
    (core u k).trap = some (c.trap.getD { t with told := true }) ∧ (c.trap ≠ none → (core u k).lost = true) ∧
      (core u k).wait = .none ∧ (core u k).mwait = .none ∧ (core u k).frz = 0 ∧ (core u k).pc = c.pc ∧ (∀ j, j ≠ k → core u j = core s j) ∧
      let f := (ctx s c.ctx).fr
      let a := f.base + 128 + 128 * (f.tail % 2 ^ f.log2n)
      f.wait = [] → f.room = true → rd u (f.base + 8) 4 = (f.tail + 1) % 2 ^ 32 ∧ rd u a 8 % 2 ^ 16 = t.info.code.num ∧
        ∀ b, (b < a ∨ a + 64 ≤ b) → (b < f.base + 8 ∨ f.base + 12 ≤ b) → rdB u b = rdB s b := by
  intro c u
  have hcore : core (setCore s k d) k = d := core_setCore_self ..
  obtain ⟨⟨uwait, umwait, ufrz, upc⟩, utrap, ulost, uoth, -⟩ := lateTrap_facts (s := setCore s k d) (k := k) t (by rwa [hcore]) hf
  have hring := lateTrap_ring (s := setCore s k d) (k := k) hl (by rwa [hcore]) hf
  rw [hcore] at uwait umwait ufrz upc utrap ulost hring
  rw [htrap] at utrap ulost
  rw [hctx] at hring
  simp only [u]
  generalize lateTrap (setCore s k d) k t = w at *
  exact ⟨utrap, ulost, uwait.trans hwait, umwait.trans hmwait, ufrz.trans hfrz, upc.trans hpc,
    fun j hj => (uoth j hj).trans (core_setCore_ne _ _ hj), hring⟩

/-! ## A pre-emption that is taken (R138, R365) -/

theorem rdRec_wr_third (s : State) (a : Nat) (w : Word) : (rdRec (wr s (a + 16) 8 w.toNat) a).w2 = w := by
  show BitVec.ofNat 64 (rd (wr s (a + 16) 8 w.toNat) (a + 16) 8) = w
  rw [rd_wr_self, Nat.mod_eq_of_lt (show w.toNat < 256 ^ 8 from w.isLt), BitVec.ofNat_toNat, BitVec.setWidth_eq]

theorem join_congr {r q : Rec} (h : r.w2 = q.w2) : r.join = q.join := by rw [Rec.join, Rec.join, h]

theorem join_takeSave (s : State) (k : Nat) : (rdRec (takeSave s k) (frameHome s (core s k).ctx (dieOf k) (core s k).trec.w1)).join = 0 := by
  rw [← join_setJoin (rdRec s (frameHome s (core s k).ctx (dieOf k) (core s k).trec.w1)) (j := 0) (by decide) (by decide)]
  exact join_congr (rdRec_wr_third s _ _)

theorem core_takeSave_running {s : State} {k : Nat} (h : (core s k).run = .running) : core (takeSave s k) k =
    { core s k with pre := .saving, joincnt := setFld (core s k).joincnt 0 16 0, resume := (core s k).pc, frz := 0, satCcy := s.ccy } := by
  have hr : (if (core s k).run = .stopped then (core s k).resume else (core s k).pc) = (core s k).pc := by rw [h]; rfl
  rw [takeSave, core_modCore_self, core_wr, hr]
  rfl

end Sys2Proof.Machine

open Sys2Proof hiding core
open Sys2Proof.Machine

/-- Settles O48: `stands_expire` for the results, `lateTrap_given` for FRZTO, `core_takeSave_running` and `join_takeSave` for the pre-emption. -/
theorem coreEvents : Obligations.CoreEvents := by
  intro s k c
  refine ⟨⟨modCore s k expire, rfl, fun j hj => core_modCore_ne _ _ hj, rfl, ?_⟩, ⟨modCore s k dropOcc, rfl, ?_, fun hs j => ?_⟩,
    ⟨modCore s k dropBusy, rfl, ?_, fun r m => ?_, fun b hb => ?_⟩, ?_, fun hr hf => ?_, fun p hp hr hq hw => ?_, fun hr hp hq hw hj hc => ?_⟩
  · rw [core_modCore_self]
    refine ⟨?_, resultless_expire c, fun d hd => ?_, fun p hp hr hu => ?_⟩
    · rw [pend_expire]
      exact List.filter_congr fun p _ => by simp [c]
    · rw [expire_eq]
      exact putAll_x_apart _ fun p hp hn => absurd (hd p (mem_due.mp hp).1 hn) (Nat.not_lt.mpr (mem_due.mp hp).2)
    · have h := stands_expire hp hr hu
      refine ⟨fun d v e h0 => ?_, fun d v e => ?_, fun d v e => ?_, fun v e => ?_, fun v e => ?_, fun v e => ?_⟩ <;> rw [e] at h
      · exact h h0
      all_goals exact h
  · rw [core_modCore_self]
    rfl
  · rw [core_modCore_self]
    exact tget_filter_later hs c.oclk j
  · rw [core_modCore_self]
    rfl
  · rw [core_modCore_self]
    exact resBusy_dropBusy c m r
  · rw [core_modCore_self] at hb
    exact (List.mem_filter.mp hb).2
  · intro a pay
    have hw : anneal s c = if c.window < c.wtime / 64 then windowStep s c else c := by simp only [anneal, windowDue, decide_eq_true_iff]
    exact congrArg (fun e => Host.Outcome.next (setCore s k e)) hw
  · obtain ⟨hrun, htrap, hpc, hctx, hwait, hmwait, hfrz⟩ := frozenCore_fields s k
    refine ⟨bump (lateTrap (setCore s k (frozenCore s k)) k (frztoTrap s k)), congrArg Host.Outcome.next (frzto_eq hr hf), ?_⟩
    exact lateTrap_given (by rw [hrun]; exact hr) htrap hpc hctx hwait hmwait hfrz rfl rfl
  · have hn : (waitedOut s (core s k)).isNone = true := by rw [hw]; rfl
    have ht : trapTaken s k = trapNow s k := if_pos ⟨hr, hq, hn⟩
    rw [show exec (.trapTaken k) s = .next (trapTaken s k) from rfl, ht, trapNow, show (core s k).trap = some p from hp]
  · intro a
    have hn : (waitedOut s (core s k)).isNone = true := by rw [hw]; rfl
    have ht : interruptTaken s k = takeSave s k := if_pos ⟨hr, hp, hq, hn, hj, hc⟩
    refine ⟨takeSave s k, congrArg Host.Outcome.next ht, core_takeSave_running hr, fun j hj => core_modCore_ne _ _ hj, join_takeSave s k, fun b hb => ?_⟩
    exact rdB_wr_out s (by omega)

end

section
/-! PROOFS. The statements of spec/05_bundle_formats_and_assembler.md on steps: words that the spec writes out, the step that runs the decoded instruction, and
the bundle that a fetch brings. -/
namespace Sys2Proof.Machine

/-! ## A fetched bundle (R89, R120) -/

/-- The bytes of a longer read, past its first n. -/
theorem rdMem_div (m : List Host.Cell) (k : Nat) : ∀ n a, rdMem m a (n + k) / 256 ^ n = rdMem m (a + n) k := by
  intro n
  induction n with
  | zero => intro a; simp
  | succ n ih =>
    intro a
    have hlt := (tget (0 : Byte) m a).isLt
    have hn : n + 1 + k = n + k + 1 := by omega
    have hdiv : (tget (0 : Byte) m a).toNat + 256 * rdMem m (a + 1) (n + k) = rdMem m (a + 1) (n + k) * 256 + (tget (0 : Byte) m a).toNat := by omega
    rw [hn, rdMem, hdiv, Nat.pow_succ', ← Nat.div_div_eq_div_mul, Nat.mul_comm, Nat.mul_add_div (by decide), Nat.div_eq_of_lt hlt, Nat.add_zero, ih]
    rw [Nat.add_assoc, Nat.add_comm 1 n]

theorem rdMem_mod (m : List Host.Cell) (k : Nat) : ∀ n a, rdMem m a (n + k) % 256 ^ n = rdMem m a n := by
  intro n
  induction n with
  | zero => intro a; simp [rdMem, Nat.mod_one]
  | succ n ih =>
    intro a
    have hlt := (tget (0 : Byte) m a).isLt
    have hn : n + 1 + k = n + k + 1 := by omega
    rw [hn, rdMem, rdMem, Nat.pow_succ', Nat.mod_mul, ← ih (a + 1)]
    have h1 : ((tget (0 : Byte) m a).toNat + 256 * rdMem m (a + 1) (n + k)) % 256 = (tget (0 : Byte) m a).toNat := by omega
    have h2 : ((tget (0 : Byte) m a).toNat + 256 * rdMem m (a + 1) (n + k)) / 256 = rdMem m (a + 1) (n + k) := by omega
    rw [h1, h2]

/-- The slot words of 32 bytes, little-endian. -/
theorem slotWord_rd (s : State) (a : Nat) {j : Nat} (hj : j < 8) : (slotWord (BitVec.ofNat 256 (rd s a 32)) j).toNat = rd s (a + 4 * j) 4 := by
  have hlt : rd s a 32 < 2 ^ 256 := rdMem_lt 32 s.mem a
  have hdiv := rdMem_div s.mem (32 - 4 * j) (4 * j) a
  have hmod := rdMem_mod s.mem (28 - 4 * j) 4 (a + 4 * j)
  rw [show 4 * j + (32 - 4 * j) = 32 by omega] at hdiv
  rw [show 4 + (28 - 4 * j) = 32 - 4 * j by omega, ← hdiv] at hmod
  have hpow : 2 ^ (32 * j) = 256 ^ (4 * j) := by rw [show 256 = 2 ^ 8 from rfl, ← Nat.pow_mul, ← Nat.mul_assoc]
  rw [slotWord, BitVec.extractLsb'_toNat, Nat.shiftRight_eq_div_pow, BitVec.toNat_ofNat, Nat.mod_eq_of_lt hlt, hpow]
  exact hmod

theorem rd_four (s : State) (a : Nat) : rd s a 4 =
    (rdB s a).toNat + 256 * (rdB s (a + 1)).toNat + 65536 * (rdB s (a + 2)).toNat + 16777216 * (rdB s (a + 3)).toNat := by
  simp only [rd, rdB, rdMem, Nat.add_assoc, Nat.mul_zero, Nat.add_zero, Nat.reduceAdd]
  omega

/-! ## The turn of a core that nothing keeps from issuing (R130) -/

theorem clearMet_eq {c : Core} (h : c.mwait = .none) : clearMet c = c := by unfold clearMet; rw [h]

theorem endBubbles_eq {c : Core} (hw : c.wait = .none) (hm : c.mwait = .none) : endBubbles c = c := by
  unfold endBubbles
  cases c
  cases hw
  cases hm
  rfl

theorem preWait_eq {c : Core} (h : c.pre = .none) : preWait c = c := if_neg (by simp [h])

theorem waitedOut_none {s : State} {c : Core} (hw : c.wait = .none) (hm : c.mwait = .none) : waitedOut s c = none := by
  unfold waitedOut
  rw [hw, hm]
  rfl

/-- A state whose current core stands in it: to put it back changes nothing. -/
def Placed (s : State) : Prop := setCur s (cur s) = s

theorem placed_setCur (s : State) (c : Core) : Placed (setCur s c) := by rw [Placed, cur_setCur, setCur_setCur]

theorem Placed.modCur {s : State} {f : Core → Core} (h : Placed s) (hf : f (cur s) = cur s) : modCur s f = s := by
  rw [Machine.modCur, hf]
  exact h

theorem waitTurn_ready {s : State} (h : Placed s) (hw : (cur s).wait = .none) (hm : (cur s).mwait = .none) : waitTurn s = (s, true) := by
  have hev : evwaitEnd s s.cur = s := by unfold evwaitEnd; rw [show (core s s.cur).wait = .none from hw]
  have hlim : boundedLimit s s.cur = s := by
    unfold boundedLimit evLimit bwLimit
    rw [show (core s s.cur).wait = .none from hw]
    dsimp only
    rw [show (core s s.cur).mwait = .none from hm]
  unfold waitTurn
  dsimp only
  rw [waitedOut_none hw hm]
  dsimp only
  rw [hw]
  dsimp only
  rw [h.modCur (clearMet_eq hm), hev, hlim, h.modCur (endBubbles_eq hw hm), if_pos ⟨hw, hm⟩]

/-- Nothing keeps a running core from its next bundle. -/
structure Ready (s : State) : Prop where
  placed : Placed s
  pre : (cur s).pre = .none
  frz : (cur s).frz ≤ 4194304
  late : lateNow (cur s) = false
  trap : (cur s).trap = none
  wait : (cur s).wait = .none
  mwait : (cur s).mwait = .none
  atStep : (cur s).atStep = false
  issueAt : (cur s).issueAt ≤ (cur s).ctime

theorem runTurn_ready {s : State} (h : Ready s) : runTurn s = fetchTurn s := by
  obtain ⟨hp, hpre, hfrz, hlate, htrap, hw, hm, hat, hiss⟩ := h
  unfold runTurn
  rw [preWait_eq hpre, show setCur s (cur s) = s from hp]
  dsimp only
  rw [if_neg (by omega), if_neg (by simp [hlate]), if_neg (by simp [htrap]), if_neg (by simp [hpre]), if_neg (by simp [hpre]), waitTurn_ready hp hw hm]
  dsimp only
  rw [if_pos rfl, goTurn, if_neg (by simp [hat]), if_neg (by omega)]

theorem fetchTurn_svi {s : State} {m : SviImg} (hb : bkHit (cur s) = none) (hm : sviOf s (cur s) = some m) :
    fetchTurn s = .run (decSvi (BitVec.ofNat 32 (rd s (m.base + sviPc m (cur s)) 4))) s := by
  unfold fetchTurn
  simp only [hb, hm]

theorem fetchTurn_bundle {s : State} {b : Bundle} (hb : bkHit (cur s) = none) (hm : sviOf s (cur s) = none)
    (hpc : (cur s).pc.toNat + 32 ≤ (arena s (cur s)).2)
    (hic : (cur s).ic.find? (fun e => e.1 = (arena s (cur s)).1 + (cur s).pc.toNat) = some ((arena s (cur s)).1 + (cur s).pc.toNat, b)) :
    fetchTurn s = bundleTurn b s := by
  unfold fetchTurn
  simp only [hb, hm, hic, Nat.not_lt.mpr hpc, if_false]

theorem bundleTurn_nops {s : State} {b : Bundle} (h : liveWords b = []) : bundleTurn b s = .run .nop (setCur s (earlyLand [] (cur s))) := by
  unfold bundleTurn
  rw [h]
  rfl

theorem bundleTurn_one {s : State} {b : Bundle} {j : Nat} {i : Instr} (h : liveWords b = [(j, some i)]) (hj : firstSlot j = true) :
    bundleTurn b s = .run i (setCur s (earlyLand ((slotOf j i).elim [] (fun o => o.res s)) (cur s))) := by
  have hres : ((bundleOps [(j, some i)]).map (fun o => o.res s)).flatten = (slotOf j i).elim [] (fun o => o.res s) := by
    cases hs : slotOf j i <;> simp [bundleOps, hs, opUndef]
  unfold bundleTurn
  rw [h]
  dsimp only
  rw [if_pos hj, hres]

theorem turn_run {s t : State} {i : Instr} (hk : s.cur < 512) (h : coreTurn s = .run i t) : turn s = exec i t := by
  rw [turn, if_neg (by omega), h]

theorem step_core {s : State} {k : Nat} {rest : List Move} (h : s.agenda = .core k :: rest) : step s = turn { s with agenda := rest, cur := k } := by
  rw [step, h]

theorem step_event {s : State} {i : Instr} {rest : List Move} (h : s.agenda = .event i :: rest) (hi : isEvent i = true) :
    step s = exec i { s with agenda := rest } := by
  rw [step, h]
  exact if_pos hi

/-- A core whose turn it is, with what has come due. -/
theorem coreTurn_ready {s : State} (hr : (cur (setCur (turnCcy s) (settleCore (turnCcy s) (cur (turnCcy s))))).run = .running)
    (h : Ready (setCur (turnCcy s) (settleCore (turnCcy s) (cur (turnCcy s))))) :
    coreTurn s = fetchTurn (setCur (turnCcy s) (settleCore (turnCcy s) (cur (turnCcy s)))) := by
  unfold coreTurn
  dsimp only
  rw [hr]
  exact runTurn_ready h

/-- The words of a bundle that holds one which is not a NOP. -/
theorem liveWords_one {b : Bundle} {j : Nat} {i : Instr} (hj : j < 8) (hw : slotWord b j ≠ 0) (ho : ∀ n, n < 8 → n ≠ j → slotWord b n = 0)
    (hd : decodeWord (slotCls j) (slotWord b j) = some i) : liveWords b = [(j, some i)] := by
  have hf : (List.range 8).filter (fun n => slotWord b n ≠ 0) = [j] := by
    have hc : ∀ n ∈ List.range 8, decide (slotWord b n ≠ 0) = decide (n = j) := fun n hn => by
      by_cases hnj : n = j
      · rw [hnj]
        simpa using hw
      · simp [hnj, ho n (List.mem_range.mp hn) hnj]
    rw [List.filter_congr hc, List.filter_eq, List.count_eq_one_of_mem List.nodup_range (List.mem_range.mpr hj)]
    rfl
  rw [liveWords, hf, List.map_singleton, hd]

/-! ## Fetches (R120, R347) -/

theorem exec_fetchArrival (s : State) (k : Nat) : exec (.fetchArrival k) s = .next (fetchArrival s k) := rfl

section
variable {s : State} {k : Nat} (hr : (core s k).run = .running) (hpc : (core s k).pc.toNat + 32 ≤ (arena s (core s k)).2)
  (hic : (core s k).ic.find? (fun e => e.1 = (arena s (core s k)).1 + (core s k).pc.toNat) = none)
include hr hpc hic

theorem fetchArrival_plain (hf : sealedFree s ((arena s (core s k)).1 + (core s k).pc.toNat) = false) :
    let a := (arena s (core s k)).1 + (core s k).pc.toNat
    fetchArrival s k = setCore s k { core s k with ic := (a, BitVec.ofNat 256 (rd s a 32)) :: (core s k).ic } :=
  (if_pos ⟨hr, hpc, by rw [hic]; rfl⟩).trans (if_neg (by rw [hf]; exact Bool.false_ne_true))

theorem fetchArrival_sealed (hf : sealedFree s ((arena s (core s k)).1 + (core s k).pc.toNat) = true) :
    let a := (arena s (core s k)).1 + (core s k).pc.toNat
    fetchArrival s k = bump (setCore s k { core s k with ic := (a, BitVec.ofNat 256 (freeN s (2 ^ 79 + a))) :: (core s k).ic }) :=
  (if_pos ⟨hr, hpc, by rw [hic]; rfl⟩).trans (if_pos hf)

end

end Sys2Proof.Machine

open Sys2Proof hiding core
open Sys2Proof.Machine

/-- Settles O9, by evaluating the decoder on each word. -/
theorem decodedWords : Obligations.DecodedWords :=
  ⟨rfl, rfl, rfl, rfl, rfl, rfl, rfl, rfl, rfl, rfl, rfl⟩

/-- Settles O10: a ready core's turn is its fetch (`coreTurn_ready`), and a fetched bundle with one live word runs that word (`bundleTurn_one`). -/
theorem stepRunsDecoded : Obligations.StepRunsDecoded := by
  refine ⟨⟨?_, fun b j i hj hw ho hd => liveWords_one hj hw ho hd, fun s i rest ha hi => step_event ha hi⟩, ?_⟩
  · intro s k rest b ha hk u v c hrun hpre hfrz hlate htrap hwait hmwait hat hiss hbk
    have hready : Ready v := ⟨placed_setCur .., hpre, hfrz, hlate, htrap, hwait, hmwait, hat, hiss⟩
    have hturn : coreTurn { s with agenda := rest, cur := k } = fetchTurn v := coreTurn_ready hrun hready
    have hrunStep : ∀ i t, fetchTurn v = .run i t → step s = exec i t := fun i t h => by
      rw [step_core ha]
      exact turn_run hk (hturn.trans h)
    refine ⟨fun hsvi hpc hic => ⟨fun j i hlw hj => ?_, fun hlw => ?_⟩, fun m hm => ?_⟩
    · exact hrunStep _ _ ((fetchTurn_bundle hbk hsvi hpc hic).trans (bundleTurn_one hlw hj))
    · exact hrunStep _ _ ((fetchTurn_bundle hbk hsvi hpc hic).trans (bundleTurn_nops hlw))
    · exact hrunStep _ _ (fetchTurn_svi hbk hm)
  · intro s k hr c a hpc hic
    refine ⟨fun hf => ⟨BitVec.ofNat 256 (rd s a 32), ?_, fun j hj => ?_⟩, fun hf => ⟨BitVec.ofNat 256 (freeN s (2 ^ 79 + a)), ?_⟩⟩
    · exact (exec_fetchArrival s k).trans (congrArg _ (fetchArrival_plain hr hpc hic hf))
    · rw [slotWord_rd s a hj, rd_four]
    · exact (exec_fetchArrival s k).trans (congrArg _ (fetchArrival_sealed hr hpc hic hf))

end
